-- ==== Sys2Proof/Word.lean ====
section
/-!
DEFINITION. The word types of the engine: bytes, 32-bit words (R10, R48, R508) and 64-bit words (R83, R54).
-/

namespace Sys2Proof

abbrev Byte := BitVec 8
abbrev Word := BitVec 32
abbrev DWord := BitVec 64

end Sys2Proof
end

