-- ==== Sys2Proof/Machine/Types.lean ====
section
/-!
DEFINITION. The plain data types of the engine's state that are not numbers: modes (R26), events (R62), packets and
replies of Dweul (R486 to R488).
-/

namespace Sys2Proof.Machine

/-- The operating modes of R26; `reserved` stands for codes 6 and 7, which the engine never takes. -/
inductive Mode where
  | boot | commission | service | standby | alarm | fallback | reserved
  deriving DecidableEq, Repr

/-- The code of a mode in SYS_MODE.MODE (R47). -/
def Mode.code : Mode → Nat
  | .boot => 0 | .commission => 1 | .service => 2 | .standby => 3 | .alarm => 4 | .fallback => 5 | .reserved => 6

/-- The mode of a code of SYS_MODE.MODE. -/
def Mode.ofCode : Nat → Mode
  | 0 => .boot | 1 => .commission | 2 => .service | 3 => .standby | 4 => .alarm | 5 => .fallback | _ => .reserved

/-- Who makes a bus access (R522, R537): the master codes of SYS_LOCKV_INFO. -/
inductive Master where
  | shepherd | bar0 | bar2 | drover | praphor | jtag
  deriving DecidableEq, Repr

def Master.code : Master → Nat
  | .shepherd => 0 | .bar0 => 1 | .bar2 => 2 | .drover => 3 | .praphor => 4 | .jtag => 5

/-- Master codes of SYS_ECC_INFO: the priorities of R543. -/
def Master.prio : Master → Nat
  | .shepherd => 3 | .bar0 => 2 | .bar2 => 2 | .drover => 5 | .praphor => 1 | .jtag => 8

/-- What a START or STOP event names (R62). -/
inductive Obj where
  | rxFlow (f : Nat) | txFlow (f : Nat) | flock (g : Nat)
  | arx (r : Nat) | atx (t : Nat) | tdm (p : Nat)
  | player (p : Nat) | lines (mask : Nat)
  deriving DecidableEq, Repr

/-- The action of a scheduler event; its class is that of R62. -/
inductive Action where
  | handover
  | mode (code : Nat)
  /-- `group` marks a GROUP_SEW (R155). -/
  | sew (group : Bool)
  | stop (o : Obj)
  | start (o : Obj)
  | message (player slot rep gap : Nat)
  | lineEn (mask : Nat)
  deriving DecidableEq, Repr

/-- Event classes of R62. -/
def Action.cls : Action → Nat
  | .handover => 0 | .mode _ => 1 | .sew _ => 2 | .stop _ => 3 | .start _ => 4 | .message .. => 5 | .lineEn _ => 6

/-- One pending event of the scheduler. -/
structure Event where
  handle : Nat
  act : Action
  /-- the target T the command named -/
  target : Nat
  /-- the sample at which the event fires: T, or L of R66 -/
  fire : Nat
  late : Bool
  /-- the fold that entered it and that fold's class at entry -/
  fold : Nat
  cls : Nat
  /-- opcode, SEQ and GROUP of the command, which a notice repeats (R498) -/
  opcode : Nat
  seq : Nat
  group : Nat
  /-- the objects that a START accepted (R319) -/
  members : List Obj
  deriving DecidableEq, Repr

/-- The 16-byte header of a Dweul packet (R486). -/
structure Hdr where
  version : Nat
  fold : Nat
  opcode : Nat
  seq : Nat
  length : Nat
  flags : Nat
  engine : Nat
  group : Nat
  deriving DecidableEq, Repr

/-- A reply or notice the engine has written (R488, R498): its header fields, its status word and its results. -/
structure Reply where
  fold : Nat
  opcode : Nat
  seq : Nat
  flags : Nat
  group : Nat
  status : Nat
  detail : Nat
  results : List Byte
  deriving DecidableEq, Repr

/-- An RTP packet as a UDP payload carries it (R300 to R302). -/
structure Rtp where
  version : Nat
  padding : Bool
  pt : Nat
  seq : Nat
  ts : Nat
  ssrc : Nat
  payload : List Byte
  deriving DecidableEq, Repr

/-- A frame as it arrives at a port (R297, R298): what the engine looks at. -/
structure Frame where
  size : Nat
  tags : Nat
  fcsOk : Bool
  fragment : Bool
  /-- a UDP datagram whose non-zero checksum fails -/
  badSum : Bool
  /-- IPv4 and UDP: source address, destination address, destination port, and the payload read as RTP -/
  udp : Option (Nat × Nat × Nat × Rtp)
  /-- the domainNumber of a PTP event message -/
  domain : Option Nat
  /-- a Delay_Req or Pdelay_Req for a master instance -/
  delayReq : Bool
  /-- an ARP reply: address and MAC address -/
  arp : Option (Nat × Nat)
  deriving DecidableEq, Repr

/-- What leaves a port (R284, R312): the oldest ready packet of a transmit flow on one leg, or a frame of Shepherd
with the time base and identifier of a requested timestamp. -/
inductive Sending where
  | stream (flow : Nat) (legB : Bool)
  | host (stamp : Option (Nat × Nat))
  deriving DecidableEq, Repr

/-- A local port (R328). -/
inductive LocalPort where
  | arx (r : Fin 32) | atx (t : Fin 32) | tdm (p : Fin 16)
  deriving DecidableEq, Repr

/-- A word of a received frame of a local port (R334): its bits, whether the subframe passes its parity check, and its
validity bit (both without meaning on a TDM port). -/
structure RxWord where
  bits : Word
  parityOk : Bool
  invalid : Bool
  deriving DecidableEq, Repr

/-- What a write to the BASTE bank names (R83, R85, R86, R137): a slot, a 32-bit word of a descriptor, a map entry. -/
inductive BasteWord where
  | slot (tile : Fin 16) (slot : Fin 65536)
  | desc (bus : Fin 4096) (word : Fin 8)
  | dmap (entry : Fin 8192)
  deriving DecidableEq, Repr

/-- A write on the internal bus (R508): master, address, word and a mask of the bits written. -/
structure BusWrite where
  master : Master
  addr : Nat
  val : Nat
  mask : Nat
  deriving DecidableEq, Repr

/-- A register of a fold that is written only while the fold is disabled (R478). -/
inductive FoldWord where
  | cfg | ringCfg | cringLo | cringHi | rringLo | rringHi
  | key (k : Fin 8)
  deriving DecidableEq, Repr

/-- The registers of a Needle core as a configuration copy carries them (R434). -/
structure CoreRegs where
  st : Nat
  pc : Nat
  d : List Word
  acc : List (BitVec 72)
  /-- P0–P7, B0–B7, L0–L7, M0–M7 -/
  agu : List (BitVec 16)
  sr : Word
  lr : BitVec 14
  deriving DecidableEq, Repr

/-- One item of the configuration copy of R434 or of the per-block copy of R437 and R438. -/
inductive CopyItem where
  /-- a copied write: its address, word and byte enables -/
  | write (addr : Nat) (v : Word) (enable : BitVec 4)
  /-- a staged register with its active value -/
  | reg (addr : Nat) (v : Word)
  /-- an object that runs in the duty engine since a sample -/
  | running (o : Obj) (since : Nat)
  /-- words of the pattern banks -/
  | slot (live : Bool) (key : Nat) (w : DWord) (gain : Word)
  | desc (live : Bool) (k : Nat) (w : DWord)
  | dmap (live : Bool) (e : Nat) (w : Word)
  /-- a word of a core's memories: 0 P, 1 X, 2 Y, 3 and 4 the stream buffers -/
  | needle (core : Nat) (space : Nat) (addr : Nat) (w : Word)
  | core (core : Nat) (k : CoreRegs)
  /-- a scheduler entry, and a cancel by handle -/
  | event (e : Event)
  | cancel (handle : Nat)
  /-- alarm latches, suppressions and command activations; an activation and a release with the MSC of the command -/
  | alarms (latch supp : Word) (commanded : Nat)
  | activate (p q : Nat)
  | release (q : Nat)
  /-- bytes of the NVS alarm and message areas and of the fallback image -/
  | nvs (off : Nat) (data : List Byte)
  /-- a pattern load -/
  | pattern (p : Nat) (data : List Byte)
  /-- a commit of the configuration, with its LIFE-SAFETY fold entries -/
  | commit (entries : List (Nat × Word))
  /-- the duty engine's SEAM_CHK_CRC (R152) -/
  | chkCrc (w : Word)
  deriving DecidableEq, Repr

/-- Words of the Quilt memories whose content is uncorrectable (R120): a slot by 65,536·tile + slot, a 64-bit descriptor
word by 4·bus + word, a map entry, a current gain word, a source frame replica. -/
inductive QWord where
  | slot (live : Bool) (key : Nat)
  | desc (live : Bool) (k : Nat)
  | dmap (live : Bool) (e : Nat)
  | gain (key : Nat)
  | frame (tile src : Nat)
  deriving DecidableEq, Repr

/-- The ECC result of the words that a step reads (R544), with the word address that the engine records. -/
inductive Ecc where
  | clean
  | correctable (addr : Word)
  | uncorrectable (addr : Word)
  deriving DecidableEq, Repr

/-- A word that a scrubber reads (R541, R545): a 64-bit word of SRAM (memory codes 1 to 3), NVS (10) or DRAM (11) by its
index; a word of the Quilt memories; a word of a core's memories (0 P, 1 X, 2 Y); a word of the Bobbin store (8) or of the
alarm pattern cache (9). -/
inductive ScrubWord where
  | mem (code : Fin 12) (word : Nat)
  | quilt (w : QWord)
  | needle (core : Fin 64) (space : Fin 3) (addr : BitVec 16)
  deriving DecidableEq, Repr

end Sys2Proof.Machine
end

