-- ==== Sys2Proof/Syntax.lean ====
section
/-!
DEFINITION. The commands of the engine, one constructor per row of spec/opcode_table.json. A command of an outside
agent carries what that agent sends (an address, a value, a packet); an event of the engine's own clocks and sensors
carries the index of the unit it happens to and what the unit has measured (a phase, a temperature, a frame).
-/

namespace Sys2Proof

open Sys2Proof.Machine

/-- The commands of the engine: one constructor per row of spec/opcode_table.json. -/
inductive Instr where
  /-- MEDIA_CLOCK_EDGE (R53): Each media clock edge advances MSC by one and the data plane computes the sample of that MSC. -/
  | mediaClockEdge (found : List Machine.QWord) (bad : List (Fin 64 × Word)) (clips : List (Machine.LocalPort × Nat))
  /-- MSC_START (R55): MSC starts counting at the first media clock edge after the AUDIO APLL or its bypass delivers a clock. -/
  | mscStart
  /-- BLOCK_START (R52): At each edge with MSC & 7 = 0 a block begins, and the writes and conversions that wait for a block start act. -/
  | blockStart (codes : List (BitVec 12)) (back : List (Fin 16 × Bool)) (late : List (Fin 4096 × Option Word))
  /-- EVENT_FIRE (R64): Pending events whose target sample is reached fire in ascending class order. -/
  | eventFire
  /-- ANCHOR_GO (R58): A write of GO to SCHED_ANCHOR requests an anchor, or is a violation while ANCHORED. -/
  | anchorGo (m : Machine.Master) (v : Word)
  /-- ANCHOR_TAKE (R56): At the next media clock edge the engine sets MSC from the named time base or refuses the anchor. -/
  | anchorTake
  /-- LATCHED_PAIR_READ (R61): A read of the _LO word of a 64-bit register pair returns the low word and latches the high word. -/
  | latchedPairRead (m : Machine.Master) (addr : Word)
  /-- BGCFG_TAKE_EFFECT (R39): A written SYS_BGCFG takes effect at the next block whose index is a multiple of 16. -/
  | bgcfgTakeEffect
  /-- REGISTER_WRITE (R511): A write to a register with no row of its own acts under its access type. -/
  | registerWrite (m : Machine.Master) (addr : Word) (v : Word) (enable : BitVec 4) (hw : Word)
  /-- ALIAS_ACCESS (R44): An access to the bit-alias region reads or writes one bit of the SYS control page. -/
  | aliasAccess (m : Machine.Master) (index : Fin 32768) (write : Option Word)
  /-- REMAP_WRITE (R45): Setting SYS_REMAP.REMAP places working SRAM at address 0 until chip reset. -/
  | remapWrite (m : Machine.Master) (v : Word)
  /-- DIRECT_STITCH_WRITE (R116): A write to a LIVE slot loads the holding register or applies the record, or is refused under R117. -/
  | directStitchWrite (tile : Fin 16) (slot : Fin 65536) (v : DWord) (enable : BitVec 8)
  /-- DIRECT_WRITE_PAIRED_APPLY (R119): In a paired engine a direct stitch write acts at the second block start after it completes. -/
  | directWritePairedApply
  /-- BASTE_WRITE (R137): A write to the BASTE bank, descriptors or map is applied when BASTE is writable, else counted as BUSY. -/
  | basteWrite (word : Machine.BasteWord) (v : DWord) (enable : BitVec 8)
  /-- METER_PEAK_READ (R102): A read of QUILT_METER_PEAK returns the largest magnitude since the last read and restarts it. -/
  | meterPeakRead (point : Fin 1024)
  /-- DLY_APPLY (R111): A write of GO to QUILT_DLY_APPLY checks and captures one tap's BASE and RLEN. -/
  | dlyApply (tap : Fin 4096)
  /-- DLY_DELAY_WRITE (R112): A write to QUILT_DLY_DELAY is refused when too large, else takes effect at the next block start or is held during a crossfade. -/
  | dlyDelayWrite (tap : Fin 4096) (v : Word)
  /-- DLY_XF_END (R113): The end of a delay crossfade starts the held DELAY value's crossfade. -/
  | dlyXfEnd (tap : Fin 4096)
  /-- SEAM_CMD_CHECK (R136): A write of CHECK to SEAM_CMD starts a CHECK of the basted pattern. -/
  | seamCmdCheck (cls : Fin 4)
  /-- SEAM_CMD_DISCARD (R136): A write of DISCARD to SEAM_CMD removes a pending SEW and copies LIVE into BASTE. -/
  | seamCmdDiscard (cls : Fin 4)
  /-- SEAM_CMD_FORCE (R146): DISCARD with FORCE from a LIFE-SAFETY class retires every outgoing stitch at the next sample. -/
  | seamCmdForce (cls : Fin 4)
  /-- CHECK_DONE (R138): A CHECK completes, setting CHECKED with SEAM_CHK_CRC or returning BASTE to OPEN with the failing code. -/
  | checkDone (found : List Machine.QWord)
  /-- SEW_ARM_CHECK_DONE (R140): The arming re-evaluation of a SEW completes and either keeps it ARMED or fails it. -/
  | sewArmCheckDone
  /-- UNRAVEL_END (R146): At the unravel end E the last outgoing stitch has retired and re-baste starts or BASTE opens. -/
  | unravelEnd
  /-- REBASTE_DONE (R147): The copy of LIVE into BASTE completes and BSTATE returns to OPEN with a second notice. -/
  | rebasteDone (found : List Machine.QWord)
  /-- LIVE_CRC_DONE (R153): SEAM_LIVE_CRC of the new LIVE bank is computed and LIVE_CRC_RDY set. -/
  | liveCrcDone
  /-- NEEDLE_WINDOW_OPEN (R172): At a window opening the input buffers exchange, queued host writes and doorbells apply and BLOCK becomes pending. -/
  | needleWindowOpen
  /-- NEEDLE_WINDOW_CLOSE (R173): At a window close the engine takes the output frame or handles a missed window. -/
  | needleWindowClose (cycles : BitVec 17)
  /-- INTERRUPT_ENTRY (R189): At a clean point the core takes the highest pending enabled interrupt and jumps to its vector. -/
  | interruptEntry (core : Fin 64) (stall : Nat)
  /-- NX_DONE_STORE (R174): A store to NX_DONE marks the output frame ready or, with a wrong tag, is counted as late. -/
  | nxDoneStore (core : Fin 64) (v : Word)
  /-- NX_TOHOST_STORE (R202): A store to NX_TOHOST copies the word to NEEDLE_TOHOST. -/
  | nxTohostStore (core : Fin 64) (v : Word)
  /-- NX_DBELL_READ (R202): A core read of NX_DBELL returns the delivered doorbell bits and clears them. -/
  | nxDbellRead (core : Fin 64)
  /-- SP_GO (R179): A write of GO to NX_SP_CTRL starts a stream port transfer or is refused. -/
  | spGo (core : Fin 64) (port : Fin 2)
  /-- SP_SWAP (R177): A write of SWAP to NX_SP_CTRL exchanges the stream buffer halves when the port is not BUSY. -/
  | spSwap (core : Fin 64) (port : Fin 2)
  /-- SP_TRANSFER_DONE (R180): A stream port transfer completes, clearing BUSY, setting DONE and making STREAM pending. -/
  | spTransferDone (core : Fin 64) (port : Fin 2) (bad : List (Fin 1024))
  /-- WAIT_END (R191): A WAIT stall ends when an enabled source is pending. -/
  | waitEnd (core : Fin 64) (stall : Nat)
  /-- WAITS_END (R181): A WAITS stall ends when the named stream port is not BUSY. -/
  | waitsEnd (core : Fin 64) (stall : Nat)
  /-- NEEDLE_CTRL_RUN (R196): NEEDLE_CTRL.CMD = RUN moves a halted or trapped core to STARTING. -/
  | needleCtrlRun (core : Fin 64)
  /-- NEEDLE_CTRL_HALT (R196): NEEDLE_CTRL.CMD = HALT halts a core at the next window close. -/
  | needleCtrlHalt (core : Fin 64)
  /-- NEEDLE_MEM_WRITE (R203): A host write of NEEDLE_MEM_DATA is applied, queued or refused by space and core state. -/
  | needleMemWrite (core : Fin 64) (v : Word)
  /-- NEEDLE_MEM_READ (R204): A host read of NEEDLE_MEM_DATA returns a core memory word, stalling a running core for one cycle. -/
  | needleMemRead (core : Fin 64) (master : Machine.Master) (ecc : Machine.Ecc)
  /-- NEEDLE_DOORBELL_WRITE (R203): A write of NEEDLE_DOORBELL sets bits that are delivered at the next window opening. -/
  | needleDoorbellWrite (core : Fin 64) (v : Word)
  /-- NEEDLE_TOHOST_READ (R205): A host read of NEEDLE_TOHOST returns the latest core value and clears it. -/
  | needleTohostRead (core : Fin 64)
  /-- NEEDLE_NOP (R217): Needle NOP instruction does nothing for one issue cycle. -/
  | alNeedleNop (core : Fin 64) (ecc : Machine.Ecc)
  /-- WAIT (R191): WAIT instruction stalls until an enabled source is pending. -/
  | alWait (core : Fin 64) (ecc : Machine.Ecc)
  /-- WAITS (R181): WAITS instruction stalls until the named stream port is not BUSY. -/
  | alWaits (core : Fin 64) (ecc : Machine.Ecc)
  /-- HALT (R217): HALT instruction issues nothing further and halts the core at the next window close. -/
  | alHalt (core : Fin 64) (ecc : Machine.Ecc)
  /-- ADD (R218): ALU ADD of two D registers. -/
  | alAdd (core : Fin 64) (ecc : Machine.Ecc)
  /-- SUB (R218): ALU SUB of two D registers. -/
  | alSub (core : Fin 64) (ecc : Machine.Ecc)
  /-- NEG (R218): ALU negation of a D register. -/
  | alNeg (core : Fin 64) (ecc : Machine.Ecc)
  /-- ABS (R218): ALU absolute value of a D register. -/
  | alAbs (core : Fin 64) (ecc : Machine.Ecc)
  /-- MIN (R218): ALU signed minimum. -/
  | alMin (core : Fin 64) (ecc : Machine.Ecc)
  /-- MAX (R218): ALU signed maximum. -/
  | alMax (core : Fin 64) (ecc : Machine.Ecc)
  /-- CMP (R218): ALU compare setting flags of DA − DB. -/
  | alCmp (core : Fin 64) (ecc : Machine.Ecc)
  /-- AND (R218): ALU bitwise and. -/
  | alAnd (core : Fin 64) (ecc : Machine.Ecc)
  /-- OR (R218): ALU bitwise or. -/
  | alOr (core : Fin 64) (ecc : Machine.Ecc)
  /-- XOR (R218): ALU bitwise exclusive or. -/
  | alXor (core : Fin 64) (ecc : Machine.Ecc)
  /-- NOT (R218): ALU bitwise not. -/
  | alNot (core : Fin 64) (ecc : Machine.Ecc)
  /-- SHL (R218): ALU left shift by a constant under saturation rules. -/
  | alShl (core : Fin 64) (ecc : Machine.Ecc)
  /-- SHR (R218): ALU arithmetic right shift by a constant. -/
  | alShr (core : Fin 64) (ecc : Machine.Ecc)
  /-- LSR (R218): ALU logical right shift by a constant. -/
  | alLsr (core : Fin 64) (ecc : Machine.Ecc)
  /-- RSHR (R218): ALU rounding right shift under SR.RND. -/
  | alRshr (core : Fin 64) (ecc : Machine.Ecc)
  /-- SHLV (R218): ALU left shift by a register amount. -/
  | alShlv (core : Fin 64) (ecc : Machine.Ecc)
  /-- SHRV (R218): ALU arithmetic right shift by a register amount. -/
  | alShrv (core : Fin 64) (ecc : Machine.Ecc)
  /-- MOV (R218): ALU register move. -/
  | alMov (core : Fin 64) (ecc : Machine.Ecc)
  /-- NORM (R218): ALU count of redundant sign bits. -/
  | alNorm (core : Fin 64) (ecc : Machine.Ecc)
  /-- ADDI (R216): Add a sign-extended immediate. -/
  | alAddi (core : Fin 64) (ecc : Machine.Ecc)
  /-- CMPI (R216): Compare with a sign-extended immediate. -/
  | alCmpi (core : Fin 64) (ecc : Machine.Ecc)
  /-- LDI (R216): Load a sign-extended 16-bit immediate. -/
  | alLdi (core : Fin 64) (ecc : Machine.Ecc)
  /-- LDI32 (R216): Load a 32-bit immediate. -/
  | alLdi32 (core : Fin 64) (ecc : Machine.Ecc)
  /-- LDS (R221): Load a special register from memory. -/
  | alLds (core : Fin 64) (ecc : Machine.Ecc)
  /-- STS (R221): Store a special register to memory. -/
  | alSts (core : Fin 64) (ecc : Machine.Ecc)
  /-- LD (R216): Load a D register from X or Y. -/
  | alLd (core : Fin 64) (ecc : Machine.Ecc)
  /-- ST (R216): Store a D register to X or Y. -/
  | alSt (core : Fin 64) (ecc : Machine.Ecc)
  /-- LDQ (R214): Load four D registers as a quad. -/
  | alLdq (core : Fin 64) (ecc : Machine.Ecc)
  /-- STQ (R214): Store four D registers as a quad. -/
  | alStq (core : Fin 64) (ecc : Machine.Ecc)
  /-- DLS (R226): One X and one Y single-word load or store in parallel. -/
  | alDls (core : Fin 64) (ecc : Machine.Ecc)
  /-- MOVS (R221): Move between a D register and a special register. -/
  | alMovs (core : Fin 64) (ecc : Machine.Ecc)
  /-- SETA (R216): Set a P, B, L or M address register to an immediate. -/
  | alSeta (core : Fin 64) (ecc : Machine.Ecc)
  /-- ADDP (R213): Add an immediate to a pointer under circular addressing. -/
  | alAddp (core : Fin 64) (ecc : Machine.Ecc)
  /-- MAC (R222): Single-lane multiply-accumulate into An. -/
  | alMac (core : Fin 64) (ecc : Machine.Ecc)
  /-- MSU (R222): Single-lane multiply-subtract from An. -/
  | alMsu (core : Fin 64) (ecc : Machine.Ecc)
  /-- MPY (R222): Single-lane multiply into An. -/
  | alMpy (core : Fin 64) (ecc : Machine.Ecc)
  /-- MPYN (R222): Single-lane negated multiply into An. -/
  | alMpyn (core : Fin 64) (ecc : Machine.Ecc)
  /-- QMAC (R222): Four-lane multiply-accumulate from D registers. -/
  | alQmac (core : Fin 64) (ecc : Machine.Ecc)
  /-- QMSU (R222): Four-lane multiply-subtract from D registers. -/
  | alQmsu (core : Fin 64) (ecc : Machine.Ecc)
  /-- QMPY (R222): Four-lane multiply from D registers. -/
  | alQmpy (core : Fin 64) (ecc : Machine.Ecc)
  /-- QMPYN (R222): Four-lane negated multiply from D registers. -/
  | alQmpyn (core : Fin 64) (ecc : Machine.Ecc)
  /-- QMACM (R222): Four-lane multiply-accumulate from memory operands. -/
  | alQmacm (core : Fin 64) (ecc : Machine.Ecc)
  /-- QMSUM (R222): Four-lane multiply-subtract from memory operands. -/
  | alQmsum (core : Fin 64) (ecc : Machine.Ecc)
  /-- QMPYM (R222): Four-lane multiply from memory operands. -/
  | alQmpym (core : Fin 64) (ecc : Machine.Ecc)
  /-- QMPYNM (R222): Four-lane negated multiply from memory operands. -/
  | alQmpynm (core : Fin 64) (ecc : Machine.Ecc)
  /-- MACDL (R226): Single-lane MAC with a parallel dual load or store. -/
  | alMacdl (core : Fin 64) (ecc : Machine.Ecc)
  /-- EXT (R223): Extract an accumulator into a D register with rounding and saturation. -/
  | alExt (core : Fin 64) (ecc : Machine.Ecc)
  /-- QEXT (R223): Extract four accumulators into four D registers. -/
  | alQext (core : Fin 64) (ecc : Machine.Ecc)
  /-- QEXTS (R223): Extract four accumulators and store them as a quad. -/
  | alQexts (core : Fin 64) (ecc : Machine.Ecc)
  /-- ACLR (R224): Clear an accumulator. -/
  | alAclr (core : Fin 64) (ecc : Machine.Ecc)
  /-- AADD (R224): Add one accumulator to another. -/
  | alAadd (core : Fin 64) (ecc : Machine.Ecc)
  /-- ASUB (R224): Subtract one accumulator from another. -/
  | alAsub (core : Fin 64) (ecc : Machine.Ecc)
  /-- AMOV (R224): Copy one accumulator to another. -/
  | alAmov (core : Fin 64) (ecc : Machine.Ecc)
  /-- ANEG (R224): Negate an accumulator. -/
  | alAneg (core : Fin 64) (ecc : Machine.Ecc)
  /-- ASHL (R224): Shift an accumulator left. -/
  | alAshl (core : Fin 64) (ecc : Machine.Ecc)
  /-- ASHR (R224): Shift an accumulator arithmetically right. -/
  | alAshr (core : Fin 64) (ecc : Machine.Ecc)
  /-- BR (R225): Conditional branch with two delay slots. -/
  | alBr (core : Fin 64) (ecc : Machine.Ecc)
  /-- CALL (R225): Call writing LR with the return address. -/
  | alCall (core : Fin 64) (ecc : Machine.Ecc)
  /-- JR (R225): Jump to the address in a D register. -/
  | alJr (core : Fin 64) (ecc : Machine.Ecc)
  /-- RET (R225): Return to LR. -/
  | alRet (core : Fin 64) (ecc : Machine.Ecc)
  /-- RTI (R189): Return from interrupt restoring SR from ISTAT and continuing at IPC. -/
  | alRti (core : Fin 64) (ecc : Machine.Ecc)
  /-- CALLR (R225): Call the address in a D register. -/
  | alCallr (core : Fin 64) (ecc : Machine.Ecc)
  /-- REP_IMM (R185): Repeat the next instruction an immediate number of times. -/
  | alRepImm (core : Fin 64) (ecc : Machine.Ecc)
  /-- REP_REG (R185): Repeat the next instruction a register-given number of times. -/
  | alRepReg (core : Fin 64) (ecc : Machine.Ecc)
  /-- APLL_LOCK (R228): An APLL first locks and its domain moves to it glitch-free. -/
  | apllLock (apll : Fin 4)
  /-- CORE_APLL_UNLOCK (R256): The selected CORE APLL loses lock and the core domain moves to the other one. -/
  | coreApllUnlock (a : Fin 2)
  /-- AUDIO_APLL_UNLOCK (R258): The AUDIO APLL loses lock, the audio domain moves to the TCXO path and the loop enters HOLDOVER. -/
  | audioApllUnlock
  /-- AUDIO_APLL_RELOCK (R258): After 10 ms of lock the audio domain returns to the AUDIO APLL and the loop leaves HOLDOVER. -/
  | audioApllRelock (ms : Nat) (raw : Int)
  /-- NET_APLL_UNLOCK (R259): The NET APLL loses lock, links go down and the PTP tick moves to XIN. -/
  | netApllUnlock (requested : List (Fin 4 × Fin 8 × BitVec 16)) (raw : Int)
  /-- NET_APLL_RELOCK (R290): The NET APLL relocks, links restart and the tick returns to 500 MHz. -/
  | netApllRelock
  /-- TCXO_LOSS (R260): TCXO_IN stops for 1 µs; MSC stops and line bridges go LOW_SIDE_ON. -/
  | tcxoLoss
  /-- TCXO_RETURN (R260): TCXO_IN returns and MSC resumes from its held value. -/
  | tcxoReturn (lost : Nat)
  /-- XIN_LOSS (R260): XIN stops for 1 µs; gates go low, DUTY_OUT falls and the engine holds in chip reset. -/
  | xinLoss
  /-- XIN_RETURN (R260): XIN returns and the chip reset held for its loss ends. -/
  | xinReturn
  /-- REF_ACTIVITY_LOSS (R232): A reference input shows no edge for MISS periods and becomes inactive. -/
  | refActivityLoss (input : Fin 16)
  /-- FREQ_GATE_END (R233): A frequency gate ends, reporting y and updating qualification and agreement. -/
  | freqGateEnd (input : Fin 16) (periods : Nat)
  /-- SELECTION_EVAL (R238): Every 1 ms Bellwether evaluates reference selection. -/
  | selectionEval (phases : List Int)
  /-- PD_UPDATE (R244): Every 1 ms BELL_PD updates and the loop steers the frequency word. -/
  | pdUpdate (raw : Int) (explained : Int) (out : Int)
  /-- HOLDOVER_LIMIT (R242): HOLDOVER lasts LIMIT seconds and the loop moves to FREERUN. -/
  | holdoverLimit (seconds : Nat)
  /-- HISTORY_RECORD (R250): Once a second the mean applied word is recorded in the holdover history. -/
  | historyRecord
  /-- SW_VALID_EXPIRY (R231): SW_VALID clears 2 s after its last write of 1. -/
  | swValidExpiry (input : Fin 8) (ms : Nat)
  /-- REF_LIMIT_APPLY (R235): A write to BELL_REF_APPLY checks and applies one input's accept and reject limits. -/
  | refLimitApply (input : Fin 16)
  /-- REF_SEL_WRITE (R239): A write to BELL_SEL.REF_SEL requests selection of that input. -/
  | refSelWrite (input : Fin 16)
  /-- LOOP_OPEN_WRITE (R253): A write of BELL_CTRL.OPEN opens or closes the software loop. -/
  | loopOpenWrite (open_ : Bool) (raw : Int)
  /-- BELL_FREQ_WRITE (R253): In OPEN a write of BELL_FREQ replaces the word at the next media clock edge. -/
  | bellFreqWrite (v : Word)
  /-- OPEN_WD_EXPIRY (R253): OPEN_WD seconds without a BELL_FREQ write close the loop. -/
  | openWdExpiry (seconds : Nat) (raw : Int)
  /-- CORE_SPREAD_TAKE_EFFECT (R229): A BELL_CORE_CFG change takes effect at the next turning point of the spread triangle. -/
  | coreSpreadTakeEffect
  /-- DIV_UPDATE (R262): A write of BELL_DIV_UPDATE.GO checks and captures the six divider shadows. -/
  | divUpdate
  /-- DIV_TAKE_EFFECT (R262): A captured divider group restarts the dividers at the next block-aligned media clock edge. -/
  | divTakeEffect
  /-- SYNC_IN_EDGE (R263): A qualifying SYNC_IN edge realigns the masked dividers. -/
  | syncInEdge (falling : Bool) (tick : Nat)
  /-- TB_INC_APPLY (R269): PTP_TB_CMD.APPLY checks and applies a time base increment at the next tick. -/
  | tbIncApply (tb : Fin 8)
  /-- TB_STEP (R272): PTP_TB_CMD.STEP captures a step offset or is ignored while one is pending. -/
  | tbStep (tb : Fin 8)
  /-- STEP_APPLY (R271): At the next tick a captured step is applied or refused. -/
  | stepApply (tb : Fin 8)
  /-- MAP_CAPTURE (R276): Every 1 ms the engine captures all time bases and writes each map offset. -/
  | mapCapture
  /-- TB_TIME_READ (R274): A read of PTP_TB_TIME_NS latches the seconds and fraction of the same tick. -/
  | tbTimeRead (tb : Fin 8)
  /-- TB_MAP_READ (R276): A read of PTP_TB_MAP_NS_LO latches the rest of the same capture. -/
  | tbMapRead (tb : Fin 8)
  /-- TXTS_HEAD_READ (R285): A read of PTP_TXTS_HEAD removes the oldest timestamp entry and latches it. -/
  | txtsHeadRead (port : Fin 4)
  /-- LINK_UP (R296): A port's PCS has held block lock for 10 ms and the link is up. -/
  | linkUp (port : Fin 4) (ms : Nat)
  /-- LINK_DOWN (R296): A port loses block lock and its link goes down. -/
  | linkDown (port : Fin 4) (requested : List (Fin 8 × BitVec 16))
  /-- FRAME_RECEIVE (R298): A received frame is stamped and taken as a stream packet, queued for Shepherd or dropped. -/
  | frameReceive (port : Fin 4) (frame : Machine.Frame) (sub : Nat) (full : Bool)
  /-- FRAME_TRANSMIT (R284): A frame leaves a port and any requested transmit timestamp is queued. -/
  | frameTransmit (port : Fin 4) (what : Machine.Sending) (sub : Nat)
  /-- NET_APPLY (R303): A write to NET_APPLY checks and applies one flow's configuration group. -/
  | netApply (tx : Bool) (flow : Fin 1024)
  /-- TX_PACKET_READY (R312): A transmit packet becomes ready at its ready edge and is queued to leave. -/
  | txPacketReady (flow : Fin 1024)
  /-- TX_PACKET_DISCARD (R312): A ready packet that cannot leave within one packet time is discarded. -/
  | txPacketDiscard (flow : Fin 1024)
  /-- LEG_DOWN (R316): A leg that delivers no packet for 4 packet times is down. -/
  | legDown (flow : Fin 1024) (legB : Bool)
  /-- PORT_APPLY (R345): A write to PORT_APPLY checks one local port group. -/
  | portApply (port : Machine.LocalPort)
  /-- PORT_GROUP_TAKE_EFFECT (R346): An accepted port group takes effect at a frame boundary or block start. -/
  | portGroupTakeEffect (port : Machine.LocalPort) (cs : Bool)
  /-- LOCAL_FRAME_RECEIVE (R331): A SYNC receive frame is assigned its MSC and may slip. -/
  | localFrameReceive (port : Machine.LocalPort) (ts : Nat) (words : List Machine.RxWord)
  /-- RATE_MEASURE (R332): A frame rate measured over 1,024 frames sets or ends the off-rate state. -/
  | rateMeasure (port : Machine.LocalPort) (rate : Nat)
  /-- AES_LOCK (R333): An AES3 receiver locks within 384 frames of a valid Z preamble. -/
  | aesLock (r : Fin 32)
  /-- AES_UNLOCK (R333): An AES3 receiver sees no valid preamble for 4 frames and loses lock. -/
  | aesUnlock (r : Fin 32)
  /-- CS_BLOCK_END (R335): A channel status block completes and is accepted, CRC-failed or discarded. -/
  | csBlockEnd (r : Fin 32) (whole : Bool) (csA : BitVec 192) (csB : BitVec 192) (ubA : BitVec 192) (ubB : BitVec 192)
  /-- ARX_CS_READ (R340): A read of word 0 of a receive CS or UB group latches the group and may clear CS_NEW. -/
  | arxCsRead (r : Fin 32) (group : Fin 4)
  /-- ASRC_LOCK (R349): A port's ratio estimate has stayed within 10 ppm for 100 ms and its ASRC channels fade in. -/
  | asrcLock (port : Machine.LocalPort)
  /-- ASRC_UNLOCK (R349): A rate step or out-of-range rate clears ASRC_LOCK. -/
  | asrcUnlock (port : Machine.LocalPort)
  /-- ATX_CLK_LOSS (R338): An AES3 transmitter's named clock is absent and the transmitter holds its output low. -/
  | atxClkLoss (t : Fin 32)
  /-- TDM_CLK_LOSS (R357): A slave TDM port sees no BCLK for 4 frame periods and loses its clock. -/
  | tdmClkLoss (p : Fin 16)
  /-- TDM_CLK_RETURN (R357): A TDM port's clock returns and it resumes at its next frame boundary. -/
  | tdmClkReturn (p : Fin 16)
  /-- OCP_LIMITED_PERIOD (R380): OCP_N asserted outside blanking limits the carrier period. -/
  | ocpLimitedPeriod (ch : Fin 16)
  /-- OCP_RETRY (R381): After 2 s without OCP_N a tripped channel retries with fade-in. -/
  | ocpRetry (ch : Fin 16)
  /-- SENSE_LOSS (R374): A sense bitstream without transitions for 64 SDCLK periods is lost. -/
  | senseLoss (ch : Fin 16) (vsns : Bool)
  /-- CALIBRATION_PASS (R375): A power-stage calibration pass corrects offset and gain or reports CAL_ERR. -/
  | calibrationPass (ch : Fin 16) (offset : Int) (ratio : Int)
  /-- SUPERVISION_RESULT (R387): A supervision period ends with a measured impedance and earth value or NOT_MEASURED. -/
  | supervisionResult (ch : Fin 16) (measured : Option (Nat × Int × BitVec 12))
  /-- LINE_APPLY (R390): A write to LINE_APPLY checks one channel's group. -/
  | lineApply (ch : Fin 16)
  /-- LINE_CH_ENABLE (R385): LINE_CH_CMD.ENABLE enables a channel at the next block start. -/
  | lineChEnable (ch : Fin 16)
  /-- LINE_CH_DISABLE (R385): LINE_CH_CMD.DISABLE disables a channel at the next block start. -/
  | lineChDisable (ch : Fin 16)
  /-- LINE_CH_CLEAR (R382): LINE_CH_CMD.CLEAR returns a LOCKED channel to DISABLED. -/
  | lineChClear (ch : Fin 16)
  /-- LINE_CTRL_WRITE (R370): A write of LINE_CTRL changes region and quiet frequency only while all channels are DISABLED. -/
  | lineCtrlWrite (v : Word)
  /-- ALARM_INPUT_QUALIFY (R395): An alarm input sampled asserted at DB consecutive edges qualifies. -/
  | alarmInputQualify (input : Fin 32) (edges : Nat)
  /-- ALARM_INPUT_RELEASE (R395): An alarm input sampled deasserted at DB consecutive edges is released. -/
  | alarmInputRelease (input : Fin 32) (edges : Nat)
  /-- PARTNER_ALARM_MESSAGE (R404): A partner's qualification or release arrives over the Praphor link. -/
  | partnerAlarmMessage (input : Fin 32) (qualify : Bool) (q : Nat)
  /-- ALARM_ACTION (R404): At the action sample the Muster path acts on alarm triggers. -/
  | alarmAction
  /-- CHANGEOVER_REPLACE (R409): Eight samples after a changeover the overlay and duck targets are replaced and players start. -/
  | changeoverReplace
  /-- ALARM_IN_CFG_WRITE (R397): A write of ALARM_IN_CFG is accepted only in BOOT or COMMISSION. -/
  | alarmInCfgWrite (input : Fin 32) (v : Word)
  /-- PLAYER_MESSAGE_END (R415): A player reaches its last sample and enters GAP or IDLE. -/
  | playerMessageEnd (player : Fin 64)
  /-- PLAYER_GAP_END (R415): A player's gap ends and it plays again from sample 0. -/
  | playerGapEnd (player : Fin 64)
  /-- MSG_DRAM_WRITE (R414): The ONCE write of ALARM_MSG_DRAM starts copying messages to DRAM. -/
  | msgDramWrite (m : Machine.Master) (v : Word)
  /-- MSG_COPY_DONE (R414): A message's DRAM copy completes and DRAM_OK is set. -/
  | msgCopyDone (slot : Fin 512)
  /-- FALLBACK_APPLY (R421): At the first block start after the fade the fallback image is applied. -/
  | fallbackApply
  /-- DUTY_IN_DEASSERT (R429): A DUTY_IN deassertion stable for 16 ns is qualified. -/
  | dutyInDeassert
  /-- DUTY_IN_ASSERT (R444): DUTY_IN asserts; a role-B engine also asserting duty deasserts. -/
  | dutyInAssert
  /-- TAKEOVER (R445): At the takeover edge the engine asserts DUTY_OUT and takes duty. -/
  | takeover (raw : Int)
  /-- MEDIA_WATCHDOG (R429): No media clock edge for 3 sample periods deasserts DUTY_OUT. -/
  | mediaWatchdog (ns : Nat)
  /-- ROLE_B_WAIT_END (R444): A role-B engine's extra 96-sample BOOT wait ends and it leaves BOOT. -/
  | roleBWaitEnd (samples : Nat)
  /-- LANES_DETECTED (R431): Praphor lanes are detected and the pair enters LINK. -/
  | lanesDetected
  /-- LINK_TRAINED (R431): Training completes on at least one lane and the pair enters CLOCK. -/
  | linkTrained (lanes : BitVec 2) (partner : Bool)
  /-- LINK_TRAIN_TIMEOUT (R431): Training not complete in 10 ms returns the pair to SOLO. -/
  | linkTrainTimeout (samples : Nat)
  /-- LINK_RETRY (R431): Link training is retried every second from SOLO. -/
  | linkRetry (samples : Nat)
  /-- CLOCK_LOCK (R432): The standby's media clock locks to the duty engine's. -/
  | clockLock
  /-- MSC_TRANSFER (R433): At a block start the standby takes or compares the duty engine's MSC. -/
  | mscTransfer (msc : DWord) (tb : Fin 8) (accepted : Bool)
  /-- COPY_COMPLETE (R434): The configuration copy completes and the pair enters SETTLE. -/
  | copyComplete
  /-- SETTLE_END (R431): SETTLE seconds elapse and the pair enters PAIRED. -/
  | settleEnd (seconds : Nat)
  /-- PER_BLOCK_COPY_APPLY (R438): The standby applies the per-block copy of block k at the start of block k + 2. -/
  | perBlockCopyApply (items : List Machine.CopyItem) (crc : Option (Nat × Word))
  /-- HEALTH_REPORT (R442): A partner's health report arrives at the end of a block. -/
  | healthReport (tstate : Fin 8) (checking : Bool) (healthy : Bool) (mismatches : BitVec 16)
  /-- REPORT_STALE (R443): The partner's report age passes 16 blocks. -/
  | reportStale
  /-- REVERT_REQUEST (R451): The preferred standby healthy for HOLD_BACK asks for a handover. -/
  | revertRequest (seconds : Nat)
  /-- LANE_LOSS (R453): One Praphor lane is lost and the link runs at half rate. -/
  | laneLoss (lane : Fin 2)
  /-- BOTH_LANES_LOST (R453): Both lanes are lost and the pair falls to SOLO. -/
  | bothLanesLost (raw : Int)
  /-- TWIN_CMD_RESYNC (R456): TWIN_CMD.RESYNC returns the pair to COPY. -/
  | twinCmdResync
  /-- TWIN_CMD_RELEASE (R456): TWIN_CMD.RELEASE makes a fault release of duty to a ready partner. -/
  | twinCmdRelease
  /-- TWIN_CMD_SELFTEST (R456): TWIN_CMD.SELFTEST starts a memory self-test in the standby. -/
  | twinCmdSelftest
  /-- SELFTEST_END (R456): The standby self-test ends and the pair returns to COPY. -/
  | selftestEnd (pass : Bool)
  /-- FAULT_WINDOW_CLOSE (R463): A source's counting window closes W after it opened. -/
  | faultWindowClose (f : Fin 256) (ms : Nat)
  /-- FAULT_QUIET_EXIT (R462): Q elapses since a source's last event and it returns to IDLE. -/
  | faultQuietExit (f : Fin 256) (ms : Nat)
  /-- FAULT_REC_ACK (R466): A write of FAULT_REC_ACK.GO closes the fault record. -/
  | faultRecAck
  /-- FAULT_SW_RAISE (R457): A write of FAULT_SW_RAISE raises events of software sources. -/
  | faultSwRaise (v : Word) (parity : List (Fin 256))
  /-- FAULTN_READBACK (R468): FAULT_N driven low but read high for 1 ms raises FAULTN_READBACK. -/
  | faultnReadback (high : Bool) (ms : Nat)
  /-- FAULTN_MIN_LOW_END (R467): The 10 ms minimum low time of FAULT_N ends. -/
  | faultnMinLowEnd (ms : Nat)
  /-- FOLD_DOORBELL (R481): A write to FOLD_CDB advances the command tail of a PCIe fold. -/
  | foldDoorbell (fold : Fin 128) (tail : BitVec 16) (packets : List Machine.Hdr)
  /-- FOLD_RHEAD_WRITE (R482): A write to FOLD_RHEAD frees reply slots and resumes a fold stopped on RPL_FULL. -/
  | foldRheadWrite (fold : Fin 128) (v : BitVec 16) (packets : List Machine.Hdr)
  /-- FOLD_CFG_WRITE (R478): A write to fold configuration applies only while disabled and respects LS_LOCK. -/
  | foldCfgWrite (m : Machine.Master) (fold : Fin 128) (w : Machine.FoldWord) (v : Word) (enable : BitVec 4)
  /-- DWEUL_DATAGRAM (R484): A Dweul datagram is authenticated, sequence-checked and taken as a command. -/
  | dweulDatagram (port : Fin 4) (srcIp : Word) (srcPort : BitVec 16) (bytes : List Byte)
  /-- BULK_FETCH_DONE (R491): The Drover fetch of a command's bulk block completes and the command executes. -/
  | bulkFetchDone (fold : Fin 128) (seq : Word) (ok : Bool)
  /-- SHEPHERD_FRAME (R495): Each 1 ms Shepherd frame divides service between the LS and general queues. -/
  | shepherdFrame (backlog : BitVec 24)
  /-- TELEMETRY_REFRESH (R503): A telemetry refresh takes one selector's set within one block. -/
  | telemetryRefresh (sel : BitVec 16)
  /-- SHEP_WDOG_EXPIRY (R504): 100 ms without a watchdog restart raises SHEP_WDOG. -/
  | shepWdogExpiry (ms : Nat)
  /-- SHEP_TRAP (R504): A recoverable firmware trap raises SHEP_TRAP. -/
  | shepTrap
  /-- SHEP_RESTART (R504): Firmware restarts command service and answers ABORTED to unanswered commands. -/
  | shepRestart (ok : Bool)
  /-- NOP (R500): Dweul NOP command. -/
  | dwNop (f : Fin 128) (h : Machine.Hdr) (params : List Byte)
  /-- GET_INFO (R500): Returns identity, mode and MSC. -/
  | dwGetInfo (f : Fin 128) (h : Machine.Hdr) (params : List Byte)
  /-- SET_MODE (R27): Enters a MODE event for a mode transition at a target. -/
  | dwSetMode (f : Fin 128) (h : Machine.Hdr) (params : List Byte)
  /-- EVENT_CANCEL (R70): Cancels a pending event by handle. -/
  | dwEventCancel (f : Fin 128) (h : Machine.Hdr) (params : List Byte)
  /-- REG_READ (R501): Reads registers through the internal map. -/
  | dwRegRead (f : Fin 128) (h : Machine.Hdr) (params : List Byte)
  /-- REG_WRITE (R501): Writes registers through the internal map. -/
  | dwRegWrite (f : Fin 128) (h : Machine.Hdr) (params : List Byte)
  /-- FOLD_INFO (R500): Returns the fold's configuration and status. -/
  | dwFoldInfo (f : Fin 128) (h : Machine.Hdr) (params : List Byte)
  /-- GROUP_CANCEL (R499): Cancels every pending event of a group. -/
  | dwGroupCancel (f : Fin 128) (h : Machine.Hdr) (params : List Byte)
  /-- STITCH_READ (R500): Reads stitch records from a bank. -/
  | dwStitchRead (f : Fin 128) (h : Machine.Hdr) (params : List Byte)
  /-- STITCH_BASTE (R136): Writes stitch records into BASTE. -/
  | dwStitchBaste (f : Fin 128) (h : Machine.Hdr) (params : List Byte)
  /-- STITCH_DIRECT (R117): Makes a direct stitch write to LIVE. -/
  | dwStitchDirect (f : Fin 128) (h : Machine.Hdr) (params : List Byte)
  /-- DESC_READ (R500): Reads bus descriptors. -/
  | dwDescRead (f : Fin 128) (h : Machine.Hdr) (params : List Byte)
  /-- DESC_BASTE (R136): Writes bus descriptors into BASTE. -/
  | dwDescBaste (f : Fin 128) (h : Machine.Hdr) (params : List Byte)
  /-- DMAP_BASTE (R136): Writes destination map entries into BASTE. -/
  | dwDmapBaste (f : Fin 128) (h : Machine.Hdr) (params : List Byte)
  /-- SRC_ATTR_SET (R96): Writes source attribute words. -/
  | dwSrcAttrSet (f : Fin 128) (h : Machine.Hdr) (params : List Byte)
  /-- METER_READ (R102): Reads meter peaks and RMS values. -/
  | dwMeterRead (f : Fin 128) (h : Machine.Hdr) (params : List Byte)
  /-- BASTE_IMAGE (R124): Loads a Morari image into BASTE. -/
  | dwBasteImage (f : Fin 128) (h : Machine.Hdr) (params : List Byte) (block : List Byte)
  /-- CHECK (R138): Dweul CHECK of the basted pattern. -/
  | dwCheck (f : Fin 128) (h : Machine.Hdr) (params : List Byte)
  /-- SEW (R136): Schedules a SEW at a target. -/
  | dwSew (f : Fin 128) (h : Machine.Hdr) (params : List Byte)
  /-- DISCARD (R136): Discards the basted pattern or a pending SEW, with optional FORCE. -/
  | dwDiscard (f : Fin 128) (h : Machine.Hdr) (params : List Byte)
  /-- GROUP_SEW (R155): Schedules a grouped SEW with an expected CRC. -/
  | dwGroupSew (f : Fin 128) (h : Machine.Hdr) (params : List Byte)
  /-- PATTERN_STATE (R500): Returns Seam status and CRCs. -/
  | dwPatternState (f : Fin 128) (h : Machine.Hdr) (params : List Byte)
  /-- NEEDLE_LOAD (R203): Loads words into a core memory. -/
  | dwNeedleLoad (f : Fin 128) (h : Machine.Hdr) (params : List Byte) (block : List Byte)
  /-- NEEDLE_READ (R204): Reads words from a core memory. -/
  | dwNeedleRead (f : Fin 128) (h : Machine.Hdr) (params : List Byte)
  /-- NEEDLE_CTRL (R196): Runs or halts a set of cores. -/
  | dwNeedleCtrl (f : Fin 128) (h : Machine.Hdr) (params : List Byte)
  /-- NEEDLE_DOORBELL (R203): Sets doorbell bits of a core. -/
  | dwNeedleDoorbell (f : Fin 128) (h : Machine.Hdr) (params : List Byte)
  /-- NEEDLE_STATUS (R500): Returns a core's per-core registers. -/
  | dwNeedleStatus (f : Fin 128) (h : Machine.Hdr) (params : List Byte)
  /-- BELL_READ (R500): Returns Bellwether status registers. -/
  | dwBellRead (f : Fin 128) (h : Machine.Hdr) (params : List Byte)
  /-- REF_SET (R235): Configures a reference input and applies its limits. -/
  | dwRefSet (f : Fin 128) (h : Machine.Hdr) (params : List Byte)
  /-- REF_SELECT (R239): Requests a preferred reference. -/
  | dwRefSelect (f : Fin 128) (h : Machine.Hdr) (params : List Byte)
  /-- LOOP_SET (R500): Writes the loop configuration registers. -/
  | dwLoopSet (f : Fin 128) (h : Machine.Hdr) (params : List Byte)
  /-- DIV_SET (R262): Writes and captures the output dividers. -/
  | dwDivSet (f : Fin 128) (h : Machine.Hdr) (params : List Byte)
  /-- SERVO_SET (R289): Sets the PTP servo step threshold. -/
  | dwServoSet (f : Fin 128) (h : Machine.Hdr) (params : List Byte)
  /-- PTP_READ (R500): Returns time base and servo state. -/
  | dwPtpRead (f : Fin 128) (h : Machine.Hdr) (params : List Byte)
  /-- PTP_SET (R287): Configures a PTP instance on a time base. -/
  | dwPtpSet (f : Fin 128) (h : Machine.Hdr) (params : List Byte)
  /-- NET_PORT_SET (R295): Configures an Ethernet port. -/
  | dwNetPortSet (f : Fin 128) (h : Machine.Hdr) (params : List Byte)
  /-- FLOW_SET (R303): Writes and applies a flow's configuration group. -/
  | dwFlowSet (f : Fin 128) (h : Machine.Hdr) (params : List Byte)
  /-- FLOW_START (R319): Enters a START event for one flow. -/
  | dwFlowStart (f : Fin 128) (h : Machine.Hdr) (params : List Byte)
  /-- FLOW_STOP (R321): Enters a STOP event for one flow. -/
  | dwFlowStop (f : Fin 128) (h : Machine.Hdr) (params : List Byte)
  /-- FLOCK_START (R319): Enters a START event for a flock. -/
  | dwFlockStart (f : Fin 128) (h : Machine.Hdr) (params : List Byte)
  /-- FLOCK_STOP (R321): Enters a STOP event for a flock. -/
  | dwFlockStop (f : Fin 128) (h : Machine.Hdr) (params : List Byte)
  /-- FLOW_READ (R500): Returns a flow's status and counters. -/
  | dwFlowRead (f : Fin 128) (h : Machine.Hdr) (params : List Byte)
  /-- PORT_SET (R345): Writes and applies a local port group. -/
  | dwPortSet (f : Fin 128) (h : Machine.Hdr) (params : List Byte)
  /-- PORT_START (R352): Enters a START event for a local port. -/
  | dwPortStart (f : Fin 128) (h : Machine.Hdr) (params : List Byte)
  /-- PORT_STOP (R352): Enters a STOP event for a local port. -/
  | dwPortStop (f : Fin 128) (h : Machine.Hdr) (params : List Byte)
  /-- PORT_READ (R500): Returns a local port's status and counters. -/
  | dwPortRead (f : Fin 128) (h : Machine.Hdr) (params : List Byte)
  /-- LINE_SET (R390): Writes and applies a line channel group. -/
  | dwLineSet (f : Fin 128) (h : Machine.Hdr) (params : List Byte)
  /-- LINE_ENABLE (R383): Enters a LINE_EN event for channels. -/
  | dwLineEnable (f : Fin 128) (h : Machine.Hdr) (params : List Byte)
  /-- LINE_DISABLE (R383): Enters a STOP event disabling channels. -/
  | dwLineDisable (f : Fin 128) (h : Machine.Hdr) (params : List Byte)
  /-- LINE_CLEAR (R382): Clears LOCKED channels. -/
  | dwLineClear (f : Fin 128) (h : Machine.Hdr) (params : List Byte)
  /-- LINE_CTRL_SET (R370): Writes LINE_CTRL. -/
  | dwLineCtrlSet (f : Fin 128) (h : Machine.Hdr) (params : List Byte)
  /-- LINE_READ (R500): Returns line status and a channel's registers. -/
  | dwLineRead (f : Fin 128) (h : Machine.Hdr) (params : List Byte)
  /-- ALARM_ACTIVATE (R403): Activates an alarm pattern by command. -/
  | dwAlarmActivate (f : Fin 128) (h : Machine.Hdr) (params : List Byte)
  /-- ALARM_RELEASE (R411): Releases latches and activations and suppresses asserted inputs. -/
  | dwAlarmRelease (f : Fin 128) (h : Machine.Hdr) (params : List Byte)
  /-- PATTERN_LOAD (R401): Replaces an alarm pattern in NVS and the cache. -/
  | dwPatternLoad (f : Fin 128) (h : Machine.Hdr) (params : List Byte) (block : List Byte)
  /-- MESSAGE_WRITE (R413): Writes a message into the store. -/
  | dwMessageWrite (f : Fin 128) (h : Machine.Hdr) (params : List Byte) (block : List Byte)
  /-- MESSAGE_START (R417): Enters a MESSAGE event for a player. -/
  | dwMessageStart (f : Fin 128) (h : Machine.Hdr) (params : List Byte)
  /-- MESSAGE_STOP (R415): Enters a STOP event for a player. -/
  | dwMessageStop (f : Fin 128) (h : Machine.Hdr) (params : List Byte)
  /-- FALLBACK_LOAD (R420): Writes the fallback image. -/
  | dwFallbackLoad (f : Fin 128) (h : Machine.Hdr) (params : List Byte) (block : List Byte)
  /-- ALARM_READ (R500): Returns alarm registers. -/
  | dwAlarmRead (f : Fin 128) (h : Machine.Hdr) (params : List Byte)
  /-- TWIN_READ (R500): Returns twin registers. -/
  | dwTwinRead (f : Fin 128) (h : Machine.Hdr) (params : List Byte)
  /-- HANDOVER (R449): Enters a HANDOVER event in the duty engine. -/
  | dwHandover (f : Fin 128) (h : Machine.Hdr) (params : List Byte)
  /-- TWIN_CMD (R456): Writes a TWIN_CMD word. -/
  | dwTwinCmd (f : Fin 128) (h : Machine.Hdr) (params : List Byte)
  /-- TWIN_CFG_SET (R500): Writes TWIN_CFG. -/
  | dwTwinCfgSet (f : Fin 128) (h : Machine.Hdr) (params : List Byte)
  /-- FAULT_READ (R500): Returns fault status and record. -/
  | dwFaultRead (f : Fin 128) (h : Machine.Hdr) (params : List Byte)
  /-- FAULT_ACK (R466): Closes the fault record. -/
  | dwFaultAck (f : Fin 128) (h : Machine.Hdr) (params : List Byte)
  /-- FAULT_SRC_SET (R464): Configures a fault source. -/
  | dwFaultSrcSet (f : Fin 128) (h : Machine.Hdr) (params : List Byte)
  /-- FAULT_SRC_READ (R500): Returns fault source states and counts. -/
  | dwFaultSrcRead (f : Fin 128) (h : Machine.Hdr) (params : List Byte)
  /-- TELEM_SNAPSHOT (R503): Returns the latest telemetry set of a selector. -/
  | dwTelemSnapshot (f : Fin 128) (h : Machine.Hdr) (params : List Byte)
  /-- TELEM_SUBSCRIBE (R503): Subscribes a fold to telemetry notices. -/
  | dwTelemSubscribe (f : Fin 128) (h : Machine.Hdr) (params : List Byte)
  /-- TELEM_UNSUBSCRIBE (R503): Ends a telemetry subscription. -/
  | dwTelemUnsubscribe (f : Fin 128) (h : Machine.Hdr) (params : List Byte)
  /-- NVS_READ (R500): Reads NVS bytes. -/
  | dwNvsRead (f : Fin 128) (h : Machine.Hdr) (params : List Byte)
  /-- NVS_WRITE (R584): Writes the NVS user area in COMMISSION. -/
  | dwNvsWrite (f : Fin 128) (h : Machine.Hdr) (params : List Byte) (block : List Byte)
  /-- FW_UPDATE (R585): Writes a firmware image to the inactive slot. -/
  | dwFwUpdate (f : Fin 128) (h : Machine.Hdr) (params : List Byte) (block : List Byte)
  /-- FW_ACTIVATE (R585): Makes a slot preferred with the trial flag set. -/
  | dwFwActivate (f : Fin 128) (h : Machine.Hdr) (params : List Byte)
  /-- CONFIG_COMMIT (R590): Writes a new committed configuration record. -/
  | dwConfigCommit (f : Fin 128) (h : Machine.Hdr) (params : List Byte) (block : List Byte)
  /-- LIFECYCLE (R592): Advances the life-cycle state, burns fuses and resets. -/
  | dwLifecycle (f : Fin 128) (h : Machine.Hdr) (params : List Byte)
  /-- CHIP_RESET (R471): Writes its reply and resets the engine. -/
  | dwChipReset (f : Fin 128) (h : Machine.Hdr) (params : List Byte)
  /-- SYS_FRESH_REQ (R527): A write of SYS_FRESH.REQ clears DONE for a slow-domain refresh. -/
  | sysFreshReq
  /-- FRESH_DONE (R527): DONE sets at the second slow-clock edge after REQ. -/
  | freshDone (edges : Nat)
  /-- CCU_COMMIT_EXPLICIT (R530): CCU_COMMIT with MODE EXPLICIT makes regions CHECKED with CCU_REF. -/
  | ccuCommitExplicit (regions : BitVec 3)
  /-- CCU_COMMIT_MEASURED (R530): CCU_COMMIT with MODE MEASURED sets ADOPT for the next clean pass. -/
  | ccuCommitMeasured (regions : BitVec 3)
  /-- CCU_PASS_END (R531): A CCU pass over a region ends and its CRC is compared or adopted. -/
  | ccuPassEnd (region : Fin 3) (read : Option Word) (found : List Machine.QWord)
  /-- CCU_DEADLINE (R530): A GRACE region reaches its deadline and raises CCU_COMMIT_TIMEOUT. -/
  | ccuDeadline (region : Fin 3)
  /-- SCRUB_LINE (R545): A scrubber reads one 256-byte line and handles its ECC results. -/
  | scrubLine (found : List (Machine.ScrubWord × Bool)) (nvsEnd : Bool)
  /-- BUS_TIMEOUT (R551): An access without response for 20 µs completes with a bus error. -/
  | busTimeout (m : Machine.Master) (addr : Word) (write : Option (Word × BitVec 4)) (took : Bool)
  /-- DRAM_RETRAIN (R556): Periodic DRAM retraining runs and on failure raises DRAM_FAIL. -/
  | dramRetrain (ok : Bool)
  /-- DROVER_START (R572): DROVER_CH_CMD.START starts a channel from DROVER_CH_DESC. -/
  | droverStart (m : Machine.Master) (c : Fin 16)
  /-- DROVER_ABORT (R572): DROVER_CH_CMD.ABORT aborts a running channel at the next burst boundary. -/
  | droverAbort (m : Machine.Master) (c : Fin 16) (moved : Nat) (host : List Byte)
  /-- DESCRIPTOR_FETCH (R566): A Drover channel fetches and checks a descriptor. -/
  | descriptorFetch (c : Fin 16) (host : List Byte)
  /-- DESCRIPTOR_COMPLETE (R570): A descriptor's last write completes and the chain continues or ends. -/
  | descriptorComplete (c : Fin 16) (host : List Byte) (conflict : List (Fin 65536))
  /-- DROVER_BUS_ERROR (R568): A bus error on any Drover access halts all running channels. -/
  | droverBusError (write : Bool) (kind : Fin 4) (addr : DWord) (moved : List (Fin 16 × Nat × List Byte))
  /-- PERST (R579): PERST_N resets the PCIe endpoint and disables PCIe folds. -/
  | perst
  /-- POWER_ON_RESET (R604): All rails above brown-out for 1 ms end the power-on reset. -/
  | powerOnReset (bootsel : Fin 8) (roleB : Bool) (v33 : BitVec 6)
  /-- BROWN_OUT (R604): A rail below its brown-out level for 1 µs starts a chip reset. -/
  | brownOut
  /-- RESET_N_PIN (R578): RESET_N held low for 1 µs starts a chip reset. -/
  | resetNPin (low : Bool)
  /-- RESET_END (R581): At the end of a chip reset the engine runs the boot sequence and leaves BOOT. -/
  | resetEnd (flash : List Byte × List Byte) (sig : Bool × Bool) (trained : Bool)
  /-- BOOT_GO (R586): A write of SYS_BOOT.GO fetches and verifies a PCIe boot image. -/
  | bootGo (image : Option (List Byte)) (sig : Bool) (trained : Bool)
  /-- BOOT_CONFIRM (R585): A write of SYS_BOOT.CONFIRM clears the trial flag and raises the rollback count. -/
  | bootConfirm
  /-- EXTEST (R611): JTAG EXTEST drives pins from the boundary register. -/
  | jtagExtest
  /-- SAMPLE_PRELOAD (R611): JTAG SAMPLE/PRELOAD captures pins without affecting them. -/
  | jtagSamplePreload
  /-- IDCODE (R611): JTAG IDCODE selects the identification register. -/
  | jtagIdcode
  /-- HIGHZ (R611): JTAG HIGHZ puts every output in high impedance. -/
  | jtagHighz
  /-- CLAMP (R611): JTAG CLAMP holds outputs from the boundary register. -/
  | jtagClamp
  /-- CHIP_RST (R611): JTAG CHIP_RST makes a chip reset with cause 7. -/
  | jtagChipRst
  /-- BYPASS (R611): JTAG BYPASS selects the bypass register. -/
  | jtagBypass
  /-- TAP_RESET (R611): Entering Test-Logic-Reset after a pin-controlling instruction makes a chip reset. -/
  | jtagTapReset
  /-- DIE_TEMP_READING (R614): Every 1 ms the die sensors are read and DIE_TEMP raised at the limits. -/
  | dieTempReading (t : BitVec 16)
  /-- TIME_BASE_TICK (R268): At each tick of the 500 MHz tick clock every time base adds its increment, and pending increments and steps take effect. -/
  | timeBaseTick
  /-- REFERENCE_ACTIVE (R232): An inactive reference input becomes active again at its next edge. -/
  | referenceActive (input : Fin 16)
  /-- CORE_APLL_RELOCK (R256): A CORE APLL that lost lock locks again and becomes the bypass of the selected one. -/
  | coreApllRelock (apll : Fin 2)
  /-- ATX_CLOCK_RETURN (R338): The named clock of an AES3 transmitter returns and the transmitter resumes at the next block start. -/
  | atxClockReturn (t : Fin 32)
  /-- PCIE_LINK_UP (R579): The PCIe link comes up again after PERST_N, and firmware re-enables the LIFE-SAFETY folds. -/
  | pcieLinkUp
  /-- HANDOVER_REQUEST (R451): The duty engine receives the standby's revert request over the Praphor link and enters a HANDOVER event at MSC + 9,600. -/
  | handoverRequest
  /-- OCP_N_ASSERT (R381): OCP_N asserts while a channel is TRIPPED and restarts its 2 s retry wait. -/
  | ocpNAssert (ch : Fin 16)
  deriving DecidableEq, Repr

end Sys2Proof
end

