-- ==== Sys2Proof/Decode.lean ====
section
/-!
DEFINITION. Commands from words. spec/opcode_table.json gives no row any bits: its rows are commands of this block and
events of its clocks, which no word spells, so no word decodes to one. The instruction words that the spec does encode are
those of the Needle cores (R213 to R226); they are data in a core's program memory, and Machine/NeedleIsa.lean reads them.
-/

namespace Sys2Proof

/-- The command that a word spells by the table's bits: none. -/
def decodeTableWord (_nbits _w : Nat) : Option Instr := none

end Sys2Proof
end

