-- ==== Sys2Proof/Config.lean ====
section
/-!
DEFINITION. What an implementation or a board fixes, and the free values: constants without a body, of which no proof
can see a value. Each is applied to the operands the spec lets it depend on, or to the counter `freeCtr` of the state.
-/

namespace Sys2Proof.Config

/-- A value the spec leaves open, one for each use: the argument is the state's counter. -/
opaque free : Nat → Nat

/-- Bytes of DRAM that nothing has written since the key of R554 was made (a fresh key makes earlier content
unreadable): a function of the key number and the byte address. -/
opaque dramNoise : Nat → Nat → BitVec 8

/-- The sample that the 48 kHz upsampler forms between two positions, from the input samples within 16 samples of it,
earliest first (R310 states the filter by its response only). -/
opaque upsample : List Int → Int

/-- Contents of the boot ROM (R40), which the spec does not list. -/
opaque bootRom : Nat → BitVec 8

/-- Deviation of a ramp word from the formula of R132, at most 16 codes either way, as a function of start word,
target, shape, length and position. -/
opaque rampDither : Nat → Nat → Nat → Nat → Nat → Int

/-- What the memory self-test of R456 leaves in a memory of the standby, as (word address, content) pairs of the words
that are not zero: the arguments are the number of the memory and the state's counter. -/
opaque selftest : Nat → Nat → List (Nat × Nat)

/-- Bytes that one copied write takes in the delta of R438, by its address. -/
opaque copyBytes : Nat → Nat

/-- The address that SYS_ECC_ADDR records for a word of a memory that R40 gives no address: the memory's code and the
word's index in it. -/
opaque eccAddr : Nat → Nat → BitVec 32

/-- A byte of host memory that the engine reads and no command supplies: the state's counter and the address. -/
opaque hostByte : Nat → Nat → BitVec 8

/-- A byte of the boot record area of NVS (R584), whose layout the spec does not give: preferred slot, trial flag, trial count,
byte offset, and the byte that a write has left there. -/
opaque bootRecord : Nat → Bool → Nat → Nat → BitVec 8 → BitVec 8

end Sys2Proof.Config
end

