-- ==== Sys2Proof/Machine/Regs.lean ====
section
/-!
DEFINITION. The register table of the engine: one row per register of the block windows (spec chapters 01 to 19,
the tables of R46, R73, R126, R158, R205, R266, R293, R326, R359, R393, R424, R455, R474, R506, R536, R538, R573,
R575, R595 and R617), with its privileged address, its index strides and counts, its access type (R14, R511), the
bits a software write stores, the bits a write of 1 clears, its reset value, and whether the unprivileged view
hides it (R521). `R.X` is the address of register X; `F.X_Y` is field Y of register X.
-/

namespace Sys2Proof.Machine

/-- Access types of R14. -/
inductive Access where
  | rw | ro | w1c | w1s | rc | wo | lock | once | stg
  deriving DecidableEq, Repr

/-- One row of a register table. -/
structure RegSpec where
  /-- privileged address of the first register of the row -/
  addr : Nat
  /-- distance in bytes between two values of the first index -/
  stride : Nat
  /-- number of values of the first index (1 when the register has none) -/
  count : Nat
  stride2 : Nat
  count2 : Nat
  acc : Access
  /-- bits that a software write stores (RW, STG, LOCK, ONCE and W1S fields) -/
  wmask : Nat
  /-- bits that a written 1 clears (W1C fields) -/
  cmask : Nat
  reset : Nat
  /-- absent from the unprivileged view -/
  hidden : Bool
  /-- an event counter of R512 -/
  counter : Bool
  deriving DecidableEq, Repr

/-- A field of a register: its bits [hi:lo]. -/
structure Fld where
  hi : Nat
  lo : Nat
  deriving DecidableEq, Repr

namespace R
/-- R46: Part and silicon revision. -/
def SYS_ID : Nat := 0x40000000
/-- R46: 12-bit engine ID. -/
def SYS_ENGINE_ID : Nat := 0x40000004
/-- R46: Mode, duty, return mode, last cause. -/
def SYS_MODE : Nat := 0x40000010
/-- R46: Mode options. -/
def SYS_MODECFG : Nat := 0x40000014
/-- R46: Background policy. -/
def SYS_BGCFG : Nat := 0x40000018
/-- R46: Boot ROM and SRAM swap. -/
def SYS_REMAP : Nat := 0x40000020
/-- R46: DRAM window page. -/
def SYS_DRAMPAGE : Nat := 0x40000024
/-- R73: LATE defaults, life-safety reserve. -/
def SCHED_CTRL : Nat := 0x40280000
/-- R73: MSC state, anchored time base, pending count. -/
def SCHED_STATUS : Nat := 0x40280004
/-- R73: Current MSC [31:0]; latches [63:32]. -/
def SCHED_MSC_LO : Nat := 0x40280008
/-- R73: MSC [63:32]. -/
def SCHED_MSC_HI : Nat := 0x4028000C
/-- R73: Anchor command and time base. -/
def SCHED_ANCHOR : Nat := 0x40280010
/-- R73: Anchor fraction. -/
def SCHED_ANCHOR_RES : Nat := 0x40280014
/-- R73: Sticky scheduler flags. -/
def SCHED_FLAGS : Nat := 0x40280018
/-- R73: Late events executed. -/
def SCHED_LATE_EXEC_CNT : Nat := 0x4028001C
/-- R73: Late events refused. -/
def SCHED_LATE_REJ_CNT : Nat := 0x40280020
/-- R73: Events refused for capacity. -/
def SCHED_FULL_CNT : Nat := 0x40280024
/-- R73: Earliest pending target [31:0]. -/
def SCHED_NEXT_LO : Nat := 0x40280028
/-- R73: Earliest pending target [63:32]. -/
def SCHED_NEXT_HI : Nat := 0x4028002C
/-- R126: Solo ramp. -/
def QUILT_CTRL : Nat := 0x40100000
/-- R126: Solo and SEW state. -/
def QUILT_STATUS : Nat := 0x40100004
/-- R126: Sticky flags. -/
def QUILT_FLAGS : Nat := 0x40100008
/-- R126: Last direct write. -/
def QUILT_DWR_STAT : Nat := 0x4010000C
/-- R126: Effective sample of last applied write [31:0]. -/
def QUILT_DWR_MSC_LO : Nat := 0x40100010
/-- R126: Same, [63:32]. -/
def QUILT_DWR_MSC_HI : Nat := 0x40100014
/-- R126: Direct writes applied. -/
def QUILT_DWR_CNT : Nat := 0x40100018
/-- R126: Direct writes refused. -/
def QUILT_DWR_REJ_CNT : Nat := 0x4010001C
/-- R126: Result of latest CHECK or SEW check. -/
def QUILT_CHK_RESULT : Nat := 0x40100020
/-- R126: Meter window. -/
def QUILT_METER_CFG : Nat := 0x40100024
/-- R126: APPLY of one tap's STG group. -/
def QUILT_DLY_APPLY : Nat := 0x40100028
/-- R126: L_t of LIVE. -/
def QUILT_TILE_CNT (t : Nat) : Nat := 0x40100100 + 16 * t
/-- R126: Current V_t. -/
def QUILT_TILE_OVL (t : Nat) : Nat := 0x40100104 + 16 * t
/-- R126: W_t from latest check. -/
def QUILT_TILE_WORK (t : Nat) : Nat := 0x40100108 + 16 * t
/-- R126: Saturated products. -/
def QUILT_TILE_PSAT_CNT (t : Nat) : Nat := 0x4010010C + 16 * t
/-- R126: Activity and class of source s. -/
def QUILT_SRC_ATTR (s : Nat) : Nat := 0x40110000 + 4 * s
/-- R126: Clips of bus b. -/
def QUILT_BUS_CLIP_CNT (b : Nat) : Nat := 0x40120000 + 8 * b
/-- R126: Limited samples of bus b. -/
def QUILT_BUS_LIM_CNT (b : Nat) : Nat := 0x40120004 + 8 * b
/-- R126: Peak magnitude. -/
def QUILT_METER_PEAK (m : Nat) : Nat := 0x40130000 + 8 * m
/-- R126: RMS level. -/
def QUILT_METER_RMS (m : Nat) : Nat := 0x40130004 + 8 * m
/-- R126: LIVE descriptor, 32 bytes. -/
def QUILT_DESC_LIVE (b : Nat) (w : Nat) : Nat := 0x40140000 + 32 * b + 4 * w
/-- R126: BASTE descriptor, 32 bytes. -/
def QUILT_DESC_BASTE (b : Nat) (w : Nat) : Nat := 0x40160000 + 32 * b + 4 * w
/-- R126: LIVE map entry. -/
def QUILT_DMAP_LIVE (e : Nat) : Nat := 0x40180000 + 4 * e
/-- R126: BASTE map entry. -/
def QUILT_DMAP_BASTE (e : Nat) : Nat := 0x40188000 + 4 * e
/-- R126: Ring base, 4 KB units. -/
def QUILT_DLY_BASE (n : Nat) : Nat := 0x40190000 + 16 * n
/-- R126: Ring length. -/
def QUILT_DLY_RLEN (n : Nat) : Nat := 0x40190004 + 16 * n
/-- R126: Delay. -/
def QUILT_DLY_DELAY (n : Nat) : Nat := 0x40190008 + 16 * n
/-- R126: Crossfade length and state. -/
def QUILT_DLY_XF (n : Nat) : Nat := 0x4019000C + 16 * n
/-- R126: Generator g enable, kind and ramp. -/
def QUILT_GEN_CFG (g : Nat) : Nat := 0x401A0000 + 16 * g
/-- R126: Tone phase increment. -/
def QUILT_GEN_FREQ (g : Nat) : Nat := 0x401A0004 + 16 * g
/-- R126: Generator level. -/
def QUILT_GEN_LEVEL (g : Nat) : Nat := 0x401A0008 + 16 * g
/-- R126: Tone phase offset or noise seed. -/
def QUILT_GEN_PHSEED (g : Nat) : Nat := 0x401A000C + 16 * g
/-- R158: Re-baste mode. -/
def SEAM_CTRL : Nat := 0x40200000
/-- R158: BASTE state, check class, group. -/
def SEAM_STATUS : Nat := 0x40200004
/-- R158: Sticky flags. -/
def SEAM_FLAGS : Nat := 0x40200008
/-- R158: CRC of BASTE at the latest passing CHECK. -/
def SEAM_CHK_CRC : Nat := 0x4020000C
/-- R158: CRC of LIVE at the latest swap. -/
def SEAM_LIVE_CRC : Nat := 0x40200010
/-- R158: Target of the pending SEW, or sample of the latest swap, [31:0]. -/
def SEAM_SEW_MSC_LO : Nat := 0x40200014
/-- R158: Same, [63:32]. -/
def SEAM_SEW_MSC_HI : Nat := 0x40200018
/-- R158: E of the latest swap, [31:0]. -/
def SEAM_UNRAVEL_END_LO : Nat := 0x4020001C
/-- R158: Same, [63:32]. -/
def SEAM_UNRAVEL_END_HI : Nat := 0x40200020
/-- R158: Stitches ramping. -/
def SEAM_RAMP_CNT : Nat := 0x40200024
/-- R158: Outgoing stitches not yet retired. -/
def SEAM_OUT_CNT : Nat := 0x40200028
/-- R158: Swaps. -/
def SEAM_SEW_CNT : Nat := 0x4020002C
/-- R158: SEWs failed at arming. -/
def SEAM_SEW_FAIL_CNT : Nat := 0x40200030
/-- R158: Pattern accesses refused as BUSY. -/
def SEAM_BUSY_CNT : Nat := 0x40200034
/-- R158: CHECK and DISCARD triggers. -/
def SEAM_CMD : Nat := 0x40200038
/-- R205: Cores 0–31 in RUNNING or WAITING. -/
def NEEDLE_RUN_LO : Nat := 0x40300000
/-- R205: Cores 32–63. -/
def NEEDLE_RUN_HI : Nat := 0x40300004
/-- R205: Sticky overrun, cores 0–31. -/
def NEEDLE_OVR_LO : Nat := 0x40300008
/-- R205: Sticky overrun, cores 32–63. -/
def NEEDLE_OVR_HI : Nat := 0x4030000C
/-- R205: Sticky trap, cores 0–31. -/
def NEEDLE_TRAP_LO : Nat := 0x40300010
/-- R205: Sticky trap, cores 32–63. -/
def NEEDLE_TRAP_HI : Nat := 0x40300014
/-- R205: Sticky flags. -/
def NEEDLE_FLAGS : Nat := 0x40300018
/-- R205: Core cycles in the latest window. -/
def NEEDLE_WIN_CYC : Nat := 0x4030001C
/-- R205: RUN and HALT. -/
def NEEDLE_CTRL (c : Nat) : Nat := 0x40310000 + 64 * c
/-- R205: State, trap cause, PC. -/
def NEEDLE_STATUS (c : Nat) : Nat := 0x40310004 + 64 * c
/-- R205: Doorbell bits awaiting delivery. -/
def NEEDLE_DOORBELL (c : Nat) : Nat := 0x40310008 + 64 * c
/-- R205: Latest NX_TOHOST value. -/
def NEEDLE_TOHOST (c : Nat) : Nat := 0x4031000C + 64 * c
/-- R205: Missed windows. -/
def NEEDLE_OVR_CNT (c : Nat) : Nat := 0x40310010 + 64 * c
/-- R205: Ignored NX_DONE stores. -/
def NEEDLE_LATE_CNT (c : Nat) : Nat := 0x40310014 + 64 * c
/-- R205: Largest cycles from opening to NX_DONE. -/
def NEEDLE_CYC_MAX (c : Nat) : Nat := 0x40310018 + 64 * c
/-- R205: Cycles from opening to NX_DONE in the latest ready window. -/
def NEEDLE_CYC_LAST (c : Nat) : Nat := 0x4031001C + 64 * c
/-- R205: Host memory port address. -/
def NEEDLE_MEM_ADDR (c : Nat) : Nat := 0x40310020 + 64 * c
/-- R205: Host memory port data. -/
def NEEDLE_MEM_DATA (c : Nat) : Nat := 0x40310024 + 64 * c
/-- R205: Queued host writes. -/
def NEEDLE_WQ_STAT (c : Nat) : Nat := 0x40310028 + 64 * c
/-- R205: Largest BLOCK latency. -/
def NEEDLE_LAT_MAX (c : Nat) : Nat := 0x4031002C + 64 * c
/-- R266: Loop options and bandwidth. -/
def BELL_CTRL : Nat := 0x40400000
/-- R266: Reference request and revert wait. -/
def BELL_SEL : Nat := 0x40400004
/-- R266: Pull slope and lock window. -/
def BELL_PHASE : Nat := 0x40400008
/-- R266: Holdover averaging and limit. -/
def BELL_HO : Nat := 0x4040000C
/-- R266: Free-run offset. -/
def BELL_FREE_TRIM : Nat := 0x40400010
/-- R266: Disagreement limit. -/
def BELL_CROSS : Nat := 0x40400014
/-- R266: Phase jump threshold. -/
def BELL_JUMP : Nat := 0x40400018
/-- R266: Loop and APLL state. -/
def BELL_STATUS : Nat := 0x40400020
/-- R266: Active and qualified inputs. -/
def BELL_QUAL : Nat := 0x40400024
/-- R266: Disagreeing and outvoted inputs. -/
def BELL_VOTE : Nat := 0x40400028
/-- R266: Sticky flags. -/
def BELL_FLAGS : Nat := 0x4040002C
/-- R266: Phase detector. -/
def BELL_PD : Nat := 0x40400030
/-- R266: Phase detector update count. -/
def BELL_PD_SEQ : Nat := 0x40400034
/-- R266: Frequency word. -/
def BELL_FREQ : Nat := 0x40400038
/-- R266: O, bits [31:0]. -/
def BELL_PHASE_OFS_LO : Nat := 0x4040003C
/-- R266: O, bits [63:32]. -/
def BELL_PHASE_OFS_HI : Nat := 0x40400040
/-- R266: Switches. -/
def BELL_SWITCH_CNT : Nat := 0x40400044
/-- R266: SYNC_IN realignments. -/
def BELL_SYNC_CORR_CNT : Nat := 0x40400048
/-- R266: CORE spread. -/
def BELL_CORE_CFG : Nat := 0x4040004C
/-- R266: SYNC_IN realignment. -/
def BELL_SYNC : Nat := 0x40400050
/-- R266: Divider group APPLY. -/
def BELL_DIV_UPDATE : Nat := 0x40400054
/-- R266: Limit group APPLY. -/
def BELL_REF_APPLY : Nat := 0x40400058
/-- R266: Output divider d. -/
def BELL_DIV (d : Nat) : Nat := 0x40400060 + 4 * d
/-- R266: Input n configuration. -/
def BELL_REF_CFG (n : Nat) : Nat := 0x40410000 + 32 * n
/-- R266: Nominal frequency. -/
def BELL_REF_NOM (n : Nat) : Nat := 0x40410004 + 32 * n
/-- R266: Accept limit. -/
def BELL_REF_ACCEPT (n : Nat) : Nat := 0x40410008 + 32 * n
/-- R266: Reject limit. -/
def BELL_REF_REJECT (n : Nat) : Nat := 0x4041000C + 32 * n
/-- R266: Latest frequency result. -/
def BELL_REF_Y (n : Nat) : Nat := 0x40410010 + 32 * n
/-- R266: Input state. -/
def BELL_REF_STAT (n : Nat) : Nat := 0x40410014 + 32 * n
/-- R293: Running time bases, tick state. -/
def PTP_STATUS : Nat := 0x40500000
/-- R293: Sticky flags. -/
def PTP_FLAGS : Nat := 0x40500004
/-- R293: Domain map entry i, 0–7. -/
def PTP_DOMMAP (i : Nat) : Nat := 0x40500040 + 4 * i
/-- R293: Increment fraction. -/
def PTP_TB_INC_LO (n : Nat) : Nat := 0x40510000 + 64 * n
/-- R293: Increment integer ns. -/
def PTP_TB_INC_HI (n : Nat) : Nat := 0x40510004 + 64 * n
/-- R293: Step, ns part. -/
def PTP_TB_STEP_NS (n : Nat) : Nat := 0x40510008 + 64 * n
/-- R293: Step, seconds part. -/
def PTP_TB_STEP_SEC (n : Nat) : Nat := 0x4051000C + 64 * n
/-- R293: APPLY and STEP. -/
def PTP_TB_CMD (n : Nat) : Nat := 0x40510010 + 64 * n
/-- R293: Running, step pending, epoch. -/
def PTP_TB_STAT (n : Nat) : Nat := 0x40510014 + 64 * n
/-- R293: Nanoseconds; latches the rest. -/
def PTP_TB_TIME_NS (n : Nat) : Nat := 0x40510018 + 64 * n
/-- R293: Seconds [31:0]. -/
def PTP_TB_TIME_SEC_LO (n : Nat) : Nat := 0x4051001C + 64 * n
/-- R293: Seconds [47:32]. -/
def PTP_TB_TIME_SEC_HI (n : Nat) : Nat := 0x40510020 + 64 * n
/-- R293: Fraction of a ns. -/
def PTP_TB_TIME_FRAC (n : Nat) : Nat := 0x40510024 + 64 * n
/-- R293: Θn in ns [31:0]; latches the rest. -/
def PTP_TB_MAP_NS_LO (n : Nat) : Nat := 0x40510028 + 64 * n
/-- R293: Θn in ns [63:32]. -/
def PTP_TB_MAP_NS_HI (n : Nat) : Nat := 0x4051002C + 64 * n
/-- R293: Θn fraction. -/
def PTP_TB_MAP_FRAC (n : Nat) : Nat := 0x40510030 + 64 * n
/-- R293: Applied steps. -/
def PTP_TB_STEP_CNT (n : Nat) : Nat := 0x40510034 + 64 * n
/-- R293: Default time base. -/
def PTP_PORT_CFG (p : Nat) : Nat := 0x40520000 + 64 * p
/-- R293: Transmit delay compensation. -/
def PTP_PORT_TX_ADJ (p : Nat) : Nat := 0x40520004 + 64 * p
/-- R293: Receive delay compensation. -/
def PTP_PORT_RX_ADJ (p : Nat) : Nat := 0x40520008 + 64 * p
/-- R293: Queue level. -/
def PTP_TXTS_STAT (p : Nat) : Nat := 0x4052000C + 64 * p
/-- R293: Oldest entry; removes it. -/
def PTP_TXTS_HEAD (p : Nat) : Nat := 0x40520010 + 64 * p
/-- R293: Latched ns. -/
def PTP_TXTS_NS (p : Nat) : Nat := 0x40520014 + 64 * p
/-- R293: Latched seconds [31:0]. -/
def PTP_TXTS_SEC_LO (p : Nat) : Nat := 0x40520018 + 64 * p
/-- R293: Latched seconds [47:32]. -/
def PTP_TXTS_SEC_HI (p : Nat) : Nat := 0x4052001C + 64 * p
/-- R293: Dropped entries. -/
def PTP_TXTS_DROP_CNT (p : Nat) : Nat := 0x40520020 + 64 * p
/-- R326: Links and running flows. -/
def NET_STATUS : Nat := 0x40600000
/-- R326: Sticky flags. -/
def NET_FLAGS : Nat := 0x40600004
/-- R326: Realignment threshold. -/
def NET_CTRL : Nat := 0x40600008
/-- R326: APPLY of one flow's group. -/
def NET_APPLY : Nat := 0x4060000C
/-- R326: Result of the latest APPLY. -/
def NET_APPLY_RESULT : Nat := 0x40600010
/-- R326: Line mode. -/
def NET_PORT_CFG (p : Nat) : Nat := 0x40600100 + 64 * p
/-- R326: MAC address [31:0]. -/
def NET_PORT_MAC_LO (p : Nat) : Nat := 0x40600104 + 64 * p
/-- R326: MAC address [47:32]. -/
def NET_PORT_MAC_HI (p : Nat) : Nat := 0x40600108 + 64 * p
/-- R326: IPv4 address. -/
def NET_PORT_IP (p : Nat) : Nat := 0x4060010C + 64 * p
/-- R326: Link state. -/
def NET_PORT_STAT (p : Nat) : Nat := 0x40600110 + 64 * p
/-- R326: Committed load. -/
def NET_PORT_LOAD (p : Nat) : Nat := 0x40600114 + 64 * p
/-- R326: Stream packets received. -/
def NET_PORT_RX_CNT (p : Nat) : Nat := 0x40600118 + 64 * p
/-- R326: Frames dropped under R297 and R302. -/
def NET_PORT_RXERR_CNT (p : Nat) : Nat := 0x4060011C + 64 * p
/-- R326: Frames for Shepherd dropped. -/
def NET_PORT_HOST_DROP_CNT (p : Nat) : Nat := 0x40600120 + 64 * p
/-- R326: Receive format. -/
def NET_RXF_FMT (f : Nat) : Nat := 0x40610000 + 64 * f
/-- R326: Channels, flock, ports. -/
def NET_RXF_MAP (f : Nat) : Nat := 0x40610004 + 64 * f
/-- R326: Leg A destination. -/
def NET_RXF_DST_A (f : Nat) : Nat := 0x40610008 + 64 * f
/-- R326: UDP ports. -/
def NET_RXF_UDP (f : Nat) : Nat := 0x4061000C + 64 * f
/-- R326: Leg B destination. -/
def NET_RXF_DST_B (f : Nat) : Nat := 0x40610010 + 64 * f
/-- R326: Source filter. -/
def NET_RXF_SRC (f : Nat) : Nat := 0x40610014 + 64 * f
/-- R326: Expected SSRC. -/
def NET_RXF_SSRC (f : Nat) : Nat := 0x40610018 + 64 * f
/-- R326: RTP offset. -/
def NET_RXF_OFFSET (f : Nat) : Nat := 0x4061001C + 64 * f
/-- R326: Bobbin depth. -/
def NET_RXF_DEPTH (f : Nat) : Nat := 0x40610020 + 64 * f
/-- R326: State and legs. -/
def NET_RXF_STAT (f : Nat) : Nat := 0x40610024 + 64 * f
/-- R326: K [31:0]. -/
def NET_RXF_K_LO (f : Nat) : Nat := 0x40610028 + 64 * f
/-- R326: K [63:32]. -/
def NET_RXF_K_HI (f : Nat) : Nat := 0x4061002C + 64 * f
/-- R326: Packets used. -/
def NET_RXF_PKT_CNT (f : Nat) : Nat := 0x40610030 + 64 * f
/-- R326: Packets lost. -/
def NET_RXF_LOST_CNT (f : Nat) : Nat := 0x40610034 + 64 * f
/-- R326: Packets late or outside the window. -/
def NET_RXF_OOW_CNT (f : Nat) : Nat := 0x40610038 + 64 * f
/-- R326: Gaps. -/
def NET_RXF_UNDER_CNT (f : Nat) : Nat := 0x4061003C + 64 * f
/-- R326: Transmit format. -/
def NET_TXF_FMT (f : Nat) : Nat := 0x40620000 + 64 * f
/-- R326: Channels, flock, ports. -/
def NET_TXF_MAP (f : Nat) : Nat := 0x40620004 + 64 * f
/-- R326: Leg A destination. -/
def NET_TXF_DST_A (f : Nat) : Nat := 0x40620008 + 64 * f
/-- R326: UDP ports. -/
def NET_TXF_UDP (f : Nat) : Nat := 0x4062000C + 64 * f
/-- R326: Leg B destination. -/
def NET_TXF_DST_B (f : Nat) : Nat := 0x40620010 + 64 * f
/-- R326: SSRC. -/
def NET_TXF_SSRC (f : Nat) : Nat := 0x40620014 + 64 * f
/-- R326: RTP offset. -/
def NET_TXF_OFFSET (f : Nat) : Nat := 0x40620018 + 64 * f
/-- R326: TTL and VLAN tag. -/
def NET_TXF_IPCFG (f : Nat) : Nat := 0x4062001C + 64 * f
/-- R326: State. -/
def NET_TXF_STAT (f : Nat) : Nat := 0x40620020 + 64 * f
/-- R326: K [31:0]. -/
def NET_TXF_K_LO (f : Nat) : Nat := 0x40620024 + 64 * f
/-- R326: K [63:32]. -/
def NET_TXF_K_HI (f : Nat) : Nat := 0x40620028 + 64 * f
/-- R326: Next sequence number. -/
def NET_TXF_SEQ (f : Nat) : Nat := 0x4062002C + 64 * f
/-- R326: Packets sent. -/
def NET_TXF_PKT_CNT (f : Nat) : Nat := 0x40620030 + 64 * f
/-- R326: Clipped samples. -/
def NET_TXF_CLIP_CNT (f : Nat) : Nat := 0x40620034 + 64 * f
/-- R326: Packets discarded. -/
def NET_TXF_DROP_CNT (f : Nat) : Nat := 0x40620038 + 64 * f
/-- R326: Members and state. -/
def NET_FLOCK_STAT (g : Nat) : Nat := 0x40630000 + 16 * g
/-- R326: Target of the latest START [31:0]. -/
def NET_FLOCK_MSC_LO (g : Nat) : Nat := 0x40630004 + 16 * g
/-- R326: Same, [63:32]. -/
def NET_FLOCK_MSC_HI (g : Nat) : Nat := 0x40630008 + 16 * g
/-- R359: ASRC use, TDM clocks. -/
def PORT_STATUS : Nat := 0x40700000
/-- R359: Sticky flags. -/
def PORT_FLAGS : Nat := 0x40700004
/-- R359: APPLY of one group. -/
def PORT_APPLY : Nat := 0x40700008
/-- R359: Latest APPLY result. -/
def PORT_APPLY_RESULT : Nat := 0x4070000C
/-- R359: Bit r = receiver r locked. -/
def PORT_AES_LOCK : Nat := 0x40700010
/-- R359: Receiver configuration. -/
def PORT_ARX_CFG (r : Nat) : Nat := 0x40710000 + 256 * r
/-- R359: Receiver state. -/
def PORT_ARX_STAT (r : Nat) : Nat := 0x40710004 + 256 * r
/-- R359: Measured frame rate. -/
def PORT_ARX_RATE (r : Nat) : Nat := 0x40710008 + 256 * r
/-- R359: Parity errors. -/
def PORT_ARX_PAR_CNT (r : Nat) : Nat := 0x4071000C + 256 * r
/-- R359: CRCC failures. -/
def PORT_ARX_CRC_CNT (r : Nat) : Nat := 0x40710010 + 256 * r
/-- R359: Samples muted by validity. -/
def PORT_ARX_VAL_CNT (r : Nat) : Nat := 0x40710014 + 256 * r
/-- R359: Losses of lock. -/
def PORT_ARX_UNLOCK_CNT (r : Nat) : Nat := 0x40710018 + 256 * r
/-- R359: Slips. -/
def PORT_ARX_SLIP_CNT (r : Nat) : Nat := 0x4071001C + 256 * r
/-- R359: Discarded blocks. -/
def PORT_ARX_BLKERR_CNT (r : Nat) : Nat := 0x40710020 + 256 * r
/-- R359: Channel status, subframe A. -/
def PORT_ARX_CS_A (r : Nat) (w : Nat) : Nat := 0x40710040 + 256 * r + 4 * w
/-- R359: Channel status, subframe B. -/
def PORT_ARX_CS_B (r : Nat) (w : Nat) : Nat := 0x40710060 + 256 * r + 4 * w
/-- R359: User bits, subframe A. -/
def PORT_ARX_UB_A (r : Nat) (w : Nat) : Nat := 0x40710080 + 256 * r + 4 * w
/-- R359: User bits, subframe B. -/
def PORT_ARX_UB_B (r : Nat) (w : Nat) : Nat := 0x407100A0 + 256 * r + 4 * w
/-- R359: Transmitter configuration. -/
def PORT_ATX_CFG (t : Nat) : Nat := 0x40720000 + 256 * t
/-- R359: Transmitter state. -/
def PORT_ATX_STAT (t : Nat) : Nat := 0x40720004 + 256 * t
/-- R359: Clipped samples. -/
def PORT_ATX_CLIP_CNT (t : Nat) : Nat := 0x40720008 + 256 * t
/-- R359: Channel status, subframe A. -/
def PORT_ATX_CS_A (t : Nat) (w : Nat) : Nat := 0x40720040 + 256 * t + 4 * w
/-- R359: Channel status, subframe B. -/
def PORT_ATX_CS_B (t : Nat) (w : Nat) : Nat := 0x40720060 + 256 * t + 4 * w
/-- R359: User bits, subframe A. -/
def PORT_ATX_UB_A (t : Nat) (w : Nat) : Nat := 0x40720080 + 256 * t + 4 * w
/-- R359: User bits, subframe B. -/
def PORT_ATX_UB_B (t : Nat) (w : Nat) : Nat := 0x407200A0 + 256 * t + 4 * w
/-- R359: Port configuration. -/
def PORT_TDM_CFG (p : Nat) : Nat := 0x40730000 + 512 * p
/-- R359: Receive slot enables. -/
def PORT_TDM_RXMASK (p : Nat) : Nat := 0x40730004 + 512 * p
/-- R359: Transmit slot enables. -/
def PORT_TDM_TXMASK (p : Nat) : Nat := 0x40730008 + 512 * p
/-- R359: Port state. -/
def PORT_TDM_STAT (p : Nat) : Nat := 0x4073000C + 512 * p
/-- R359: Clipped samples. -/
def PORT_TDM_CLIP_CNT (p : Nat) : Nat := 0x40730010 + 512 * p
/-- R359: Slips. -/
def PORT_TDM_SLIP_CNT (p : Nat) : Nat := 0x40730014 + 512 * p
/-- R359: Clock losses. -/
def PORT_TDM_CLKLOSS_CNT (p : Nat) : Nat := 0x40730018 + 512 * p
/-- R359: Receive slot route. -/
def PORT_TDM_RXMAP (p : Nat) (s : Nat) : Nat := 0x40730100 + 512 * p + 4 * s
/-- R359: Transmit slot channel. -/
def PORT_TDM_TXMAP (p : Nat) (s : Nat) : Nat := 0x40730180 + 512 * p + 4 * s
/-- R393: Raster, quiet frequency, k. -/
def LINE_CTRL : Nat := 0x40800000
/-- R393: Supply state, running channels. -/
def LINE_STATUS : Nat := 0x40800004
/-- R393: Sticky flags. -/
def LINE_FLAGS : Nat := 0x40800008
/-- R393: APPLY of one channel's group. -/
def LINE_APPLY : Nat := 0x4080000C
/-- R393: Latest APPLY result. -/
def LINE_APPLY_RESULT : Nat := 0x40800010
/-- R393: Supply inputs. -/
def LINE_SADC_CFG : Nat := 0x40800014
/-- R393: Supply scaling. -/
def LINE_SUPPLY_SCALE : Nat := 0x40800018
/-- R393: UVLO and OV. -/
def LINE_SUPPLY_LIM : Nat := 0x4080001C
/-- R393: Battery warning level. -/
def LINE_VBAT_LOW : Nat := 0x40800020
/-- R393: VBUS and VBAT. -/
def LINE_SUPPLY_V : Nat := 0x40800024
/-- R393: NTC table, i = 0–16. -/
def LINE_NTC_LUT (i : Nat) : Nat := 0x40800100 + 4 * i
/-- R393: Dead time, loop, sensor inputs. -/
def LINE_CH_CFG (n : Nat) : Nat := 0x40810000 + 256 * n
/-- R393: VRATED and VFS. -/
def LINE_CH_VSCALE (n : Nat) : Nat := 0x40810004 + 256 * n
/-- R393: IFS. -/
def LINE_CH_ISCALE (n : Nat) : Nat := 0x40810008 + 256 * n
/-- R393: Impedance window. -/
def LINE_CH_SUPWIN (n : Nat) : Nat := 0x4081000C + 256 * n
/-- R393: Earth threshold, qualification. -/
def LINE_CH_SUPCFG (n : Nat) : Nat := 0x40810010 + 256 * n
/-- R393: TFOLD and TSTOP. -/
def LINE_CH_THERM (n : Nat) : Nat := 0x40810014 + 256 * n
/-- R393: ENABLE, DISABLE, CLEAR. -/
def LINE_CH_CMD (n : Nat) : Nat := 0x40810018 + 256 * n
/-- R393: State, holds, supervision. -/
def LINE_CH_STAT (n : Nat) : Nat := 0x4081001C + 256 * n
/-- R393: Foldback and limiter gain. -/
def LINE_CH_GR (n : Nat) : Nat := 0x40810020 + 256 * n
/-- R393: Line impedance. -/
def LINE_CH_ZMAG (n : Nat) : Nat := 0x40810024 + 256 * n
/-- R393: Earth-fault value. -/
def LINE_CH_EF (n : Nat) : Nat := 0x40810028 + 256 * n
/-- R393: Heatsink temperature. -/
def LINE_CH_TEMP (n : Nat) : Nat := 0x4081002C + 256 * n
/-- R393: Limited periods. -/
def LINE_CH_OCP_CNT (n : Nat) : Nat := 0x40810030 + 256 * n
/-- R393: Trips. -/
def LINE_CH_TRIP_CNT (n : Nat) : Nat := 0x40810034 + 256 * n
/-- R393: Retries. -/
def LINE_CH_RETRY (n : Nat) : Nat := 0x40810038 + 256 * n
/-- R393: Clipped samples. -/
def LINE_CH_CLIP_CNT (n : Nat) : Nat := 0x4081003C + 256 * n
/-- R393: Limited samples. -/
def LINE_CH_LIM_CNT (n : Nat) : Nat := 0x40810040 + 256 * n
/-- R424: Active and governing patterns. -/
def ALARM_STATUS : Nat := 0x40900000
/-- R424: Sticky flags. -/
def ALARM_FLAGS : Nat := 0x40900004
/-- R424: Debounced input levels. -/
def ALARM_IN_STATE : Nat := 0x40900008
/-- R424: Latched inputs. -/
def ALARM_IN_LATCH : Nat := 0x4090000C
/-- R424: Suppressed inputs. -/
def ALARM_IN_SUPP : Nat := 0x40900010
/-- R424: Cached and invalid patterns. -/
def ALARM_PAT_STAT : Nat := 0x40900014
/-- R424: Latest entry E [31:0]. -/
def ALARM_ENTRY_MSC_LO : Nat := 0x40900018
/-- R424: Same, [63:32]. -/
def ALARM_ENTRY_MSC_HI : Nat := 0x4090001C
/-- R424: Entries. -/
def ALARM_ENTRY_CNT : Nat := 0x40900020
/-- R424: DRAM base of message copies. -/
def ALARM_MSG_DRAM : Nat := 0x40900024
/-- R424: Slots marked BAD. -/
def ALARM_MSG_BAD_CNT : Nat := 0x40900028
/-- R424: Slots repaired. -/
def ALARM_MSG_REPAIR_CNT : Nat := 0x4090002C
/-- R424: Input configuration. -/
def ALARM_IN_CFG (a : Nat) : Nat := 0x40900100 + 4 * a
/-- R424: Player state. -/
def ALARM_PLY_STAT (p : Nat) : Nat := 0x40901000 + 16 * p
/-- R424: Sample position in the message. -/
def ALARM_PLY_POS (p : Nat) : Nat := 0x40901004 + 16 * p
/-- R424: Slot state. -/
def ALARM_MSG_STAT (s : Nat) : Nat := 0x40902000 + 4 * s
/-- R455: Return, settle and identity options. -/
def TWIN_CFG : Nat := 0x40A00000
/-- R455: Role, pins, pair state, readiness. -/
def TWIN_STATUS : Nat := 0x40A00004
/-- R455: Sticky flags. -/
def TWIN_FLAGS : Nat := 0x40A00008
/-- R455: RESYNC, RELEASE, SELFTEST. -/
def TWIN_CMD : Nat := 0x40A0000C
/-- R455: Partner's latest health report. -/
def TWIN_HEALTH : Nat := 0x40A00010
/-- R455: Blocks since that report. -/
def TWIN_HEALTH_AGE : Nat := 0x40A00014
/-- R455: Blocks compared equal. -/
def TWIN_CHECK_CNT : Nat := 0x40A00018
/-- R455: Mismatches. -/
def TWIN_MISMATCH_CNT : Nat := 0x40A0001C
/-- R455: Duty taken. -/
def TWIN_SWITCH_CNT : Nat := 0x40A00020
/-- R455: Largest per-block delta. -/
def TWIN_DELTA_MAX : Nat := 0x40A00024
/-- R455: Latest takeover edge [31:0]. -/
def TWIN_SWITCH_MSC_LO : Nat := 0x40A00028
/-- R455: Same, [63:32]. -/
def TWIN_SWITCH_MSC_HI : Nat := 0x40A0002C
/-- R455: Latest exposure window. -/
def TWIN_EXPOSE : Nat := 0x40A00030
/-- R455: Stream source MAC [31:0]. -/
def TWIN_SID_MAC_LO (p : Nat) : Nat := 0x40A00100 + 16 * p
/-- R455: Stream source MAC [47:32]. -/
def TWIN_SID_MAC_HI (p : Nat) : Nat := 0x40A00104 + 16 * p
/-- R455: Stream source IPv4 address. -/
def TWIN_SID_IP (p : Nat) : Nat := 0x40A00108 + 16 * p
/-- R474: Pin force, LS guard. -/
def FAULT_CTRL : Nat := 0x40B00000
/-- R474: Record and pin state. -/
def FAULT_STATUS : Nat := 0x40B00004
/-- R474: Sticky flags. -/
def FAULT_FLAGS : Nat := 0x40B00008
/-- R474: Source, state and reactions of the record. -/
def FAULT_REC_SRC : Nat := 0x40B00010
/-- R474: Info word of the record. -/
def FAULT_REC_INFO : Nat := 0x40B00014
/-- R474: MSC of the record [31:0]. -/
def FAULT_REC_MSC_LO : Nat := 0x40B00018
/-- R474: Same, [63:32]. -/
def FAULT_REC_MSC_HI : Nat := 0x40B0001C
/-- R474: Merged events. -/
def FAULT_REC_MERGE_CNT : Nat := 0x40B00020
/-- R474: Close the record. -/
def FAULT_REC_ACK : Nat := 0x40B00024
/-- R474: Raise SW0–SW15. -/
def FAULT_SW_RAISE : Nat := 0x40B00028
/-- R474: Merged sources. -/
def FAULT_REC_MAP (w : Nat) : Nat := 0x40B00040 + 4 * w
/-- R474: IRQ pending. -/
def FAULT_PEND (w : Nat) : Nat := 0x40B00080 + 4 * w
/-- R474: Sources RAISED or SEVERE. -/
def FAULT_RAISED (w : Nat) : Nat := 0x40B000A0 + 4 * w
/-- R474: Sources SEVERE. -/
def FAULT_SEVERE (w : Nat) : Nat := 0x40B000C0 + 4 * w
/-- R474: N and reaction sets. -/
def FAULT_SRC_CFG (s : Nat) : Nat := 0x40B10000 + 32 * s
/-- R474: W. -/
def FAULT_SRC_WIN (s : Nat) : Nat := 0x40B10004 + 32 * s
/-- R474: Q. -/
def FAULT_SRC_QUIET (s : Nat) : Nat := 0x40B10008 + 32 * s
/-- R474: State, window count, recoveries. -/
def FAULT_SRC_STAT (s : Nat) : Nat := 0x40B1000C + 32 * s
/-- R474: Events. -/
def FAULT_SRC_CNT (s : Nat) : Nat := 0x40B10010 + 32 * s
/-- R506: LS lock. -/
def FOLD_CTRL : Nat := 0x40C00000
/-- R506: Load state, LS queue level. -/
def FOLD_STATUS : Nat := 0x40C00004
/-- R506: Sticky flags. -/
def FOLD_FLAGS : Nat := 0x40C00008
/-- R506: UDP port and Ethernet ports. -/
def FOLD_NET : Nat := 0x40C0000C
/-- R506: Backlog B in µs. -/
def FOLD_BACKLOG : Nat := 0x40C00010
/-- R506: Enable, transport, class, credit. -/
def FOLD_CFG (f : Nat) : Nat := 0x40C10000 + 128 * f
/-- R506: Commands per second. -/
def FOLD_RATE (f : Nat) : Nat := 0x40C10004 + 128 * f
/-- R506: Ring sizes. -/
def FOLD_RING_CFG (f : Nat) : Nat := 0x40C10008 + 128 * f
/-- R506: Command ring host address [31:0]. -/
def FOLD_CRING_LO (f : Nat) : Nat := 0x40C1000C + 128 * f
/-- R506: Same, [63:32]. -/
def FOLD_CRING_HI (f : Nat) : Nat := 0x40C10010 + 128 * f
/-- R506: Reply ring host address [31:0]. -/
def FOLD_RRING_LO (f : Nat) : Nat := 0x40C10014 + 128 * f
/-- R506: Same, [63:32]. -/
def FOLD_RRING_HI (f : Nat) : Nat := 0x40C10018 + 128 * f
/-- R506: Command doorbell. -/
def FOLD_CDB (f : Nat) : Nat := 0x40C1001C + 128 * f
/-- R506: Command ring head. -/
def FOLD_CHEAD (f : Nat) : Nat := 0x40C10020 + 128 * f
/-- R506: Reply ring tail. -/
def FOLD_RTAIL (f : Nat) : Nat := 0x40C10024 + 128 * f
/-- R506: Reply slots consumed by the host. -/
def FOLD_RHEAD (f : Nat) : Nat := 0x40C10028 + 128 * f
/-- R506: Outstanding commands, errors. -/
def FOLD_STAT (f : Nat) : Nat := 0x40C1002C + 128 * f
/-- R506: Authentication key. -/
def FOLD_KEY (f : Nat) (k : Nat) : Nat := 0x40C10030 + 128 * f + 4 * k
/-- R506: Commands taken. -/
def FOLD_CMD_CNT (f : Nat) : Nat := 0x40C10050 + 128 * f
/-- R506: BUSY replies. -/
def FOLD_BUSY_CNT (f : Nat) : Nat := 0x40C10054 + 128 * f
/-- R506: BAD_PACKET replies and dropped stale SEQ. -/
def FOLD_ERR_CNT (f : Nat) : Nat := 0x40C10058 + 128 * f
/-- R506: Datagrams failing R484. -/
def FOLD_AUTH_CNT (f : Nat) : Nat := 0x40C1005C + 128 * f
/-- R506: Notices dropped. -/
def FOLD_NOTICE_DROP_CNT (f : Nat) : Nat := 0x40C10060 + 128 * f
/-- R506: Reply address under R483. -/
def FOLD_PEER_IP (f : Nat) : Nat := 0x40C10064 + 128 * f
/-- R506: Reply UDP port. -/
def FOLD_PEER_PORT (f : Nat) : Nat := 0x40C10068 + 128 * f
/-- R536: Address of the latest violation. -/
def SYS_LOCKV_ADDR : Nat := 0x40000100
/-- R536: Master and kind of the latest violation. -/
def SYS_LOCKV_INFO : Nat := 0x40000104
/-- R536: Violations. -/
def SYS_LOCKV_CNT : Nat := 0x40000108
/-- R536: Sticky flags. -/
def SYS_REGFLAGS : Nat := 0x4000010C
/-- R536: Slow-domain handshake. -/
def SYS_FRESH : Nat := 0x40000110
/-- R536: BAR0 write lock. -/
def SYS_VIEW_LOCK : Nat := 0x40000114
/-- R538: Region states. -/
def CCU_STATUS : Nat := 0x40E00000
/-- R538: Sticky flags. -/
def CCU_FLAGS : Nat := 0x40E00004
/-- R538: Commit. -/
def CCU_COMMIT : Nat := 0x40E00008
/-- R538: Reference for an EXPLICIT commit. -/
def CCU_REF (r : Nat) : Nat := 0x40E00010 + 4 * r
/-- R538: Reference in force. -/
def CCU_ACT_REF (r : Nat) : Nat := 0x40E00020 + 4 * r
/-- R538: CRC of the latest completed pass. -/
def CCU_LAST (r : Nat) : Nat := 0x40E00030 + 4 * r
/-- R538: GRACE deadline [31:0]. -/
def CCU_DEADLINE_LO (r : Nat) : Nat := 0x40E00040 + 8 * r
/-- R538: Same, [63:32]. -/
def CCU_DEADLINE_HI (r : Nat) : Nat := 0x40E00044 + 8 * r
/-- R538: Full passes. -/
def CCU_PASS_CNT : Nat := 0x40E00060
/-- R538: Mismatches. -/
def CCU_MISM_CNT : Nat := 0x40E00064
/-- R573: DRAM size and state. -/
def SYS_DRAM_STAT : Nat := 0x40000200
/-- R573: Correctable results. -/
def SYS_ECC_CE_CNT : Nat := 0x40000204
/-- R573: Uncorrectable results. -/
def SYS_ECC_UE_CNT : Nat := 0x40000208
/-- R573: Address of the latest result. -/
def SYS_ECC_ADDR : Nat := 0x4000020C
/-- R573: Memory, master and kind. -/
def SYS_ECC_INFO : Nat := 0x40000210
/-- R573: Column repair. -/
def SYS_REPAIR : Nat := 0x40000214
/-- R573: Address of the latest timeout. -/
def SYS_BUS_TO_ADDR : Nat := 0x40000218
/-- R573: Sticky flags. -/
def SYS_MEMFLAGS : Nat := 0x4000021C
/-- R575: Running and done channels. -/
def DROVER_STATUS : Nat := 0x40D00000
/-- R575: Sticky flags. -/
def DROVER_FLAGS : Nat := 0x40D00004
/-- R575: Completion interrupts pending. -/
def DROVER_DONE : Nat := 0x40D00008
/-- R575: Bus error address [31:0]. -/
def DROVER_ERR_ADDR_LO : Nat := 0x40D0000C
/-- R575: Same, [63:32]. -/
def DROVER_ERR_ADDR_HI : Nat := 0x40D00010
/-- R575: Space, direction, kind. -/
def DROVER_ERR_INFO : Nat := 0x40D00014
/-- R575: Privilege and budget. -/
def DROVER_CH_CFG (c : Nat) : Nat := 0x40D00100 + 64 * c
/-- R575: First descriptor [31:0]. -/
def DROVER_CH_DESC_LO (c : Nat) : Nat := 0x40D00104 + 64 * c
/-- R575: Same, [63:32]. -/
def DROVER_CH_DESC_HI (c : Nat) : Nat := 0x40D00108 + 64 * c
/-- R575: START, ABORT. -/
def DROVER_CH_CMD (c : Nat) : Nat := 0x40D0010C + 64 * c
/-- R575: State and cause. -/
def DROVER_CH_STAT (c : Nat) : Nat := 0x40D00110 + 64 * c
/-- R575: Descriptor in progress [31:0]. -/
def DROVER_CH_CUR_LO (c : Nat) : Nat := 0x40D00114 + 64 * c
/-- R575: Same, [63:32]. -/
def DROVER_CH_CUR_HI (c : Nat) : Nat := 0x40D00118 + 64 * c
/-- R575: Descriptors completed. -/
def DROVER_CH_DESC_CNT (c : Nat) : Nat := 0x40D0011C + 64 * c
/-- R575: Bytes written. -/
def DROVER_CH_BYTES (c : Nat) : Nat := 0x40D00120 + 64 * c
/-- R595: Cause of the latest chip reset. -/
def SYS_RST_CAUSE : Nat := 0x40000300
/-- R595: Chip resets since POR. -/
def SYS_RST_CNT : Nat := 0x40000304
/-- R595: Strap values. -/
def SYS_STRAP : Nat := 0x40000308
/-- R595: Boot slot, trial, PCIe boot. -/
def SYS_BOOT : Nat := 0x4000030C
/-- R595: Life-cycle state. -/
def SYS_LC : Nat := 0x40000310
/-- R595: PCIe image address [31:0]. -/
def SYS_BOOT_HADDR_LO : Nat := 0x40000314
/-- R595: Same, [63:32]. -/
def SYS_BOOT_HADDR_HI : Nat := 0x40000318
/-- R617: Die temperature. -/
def SYS_DIE_TEMP : Nat := 0x40000400
/-- R617: DIE_TEMP level and hysteresis. -/
def SYS_TEMP_LIM : Nat := 0x40000404
/-- R617: VDDIO bank classes. -/
def SYS_IOBANK : Nat := 0x40000408
/-- R617: VID code driven. -/
def SYS_AVS : Nat := 0x4000040C
/-- R617: Latest code of input i. -/
def SYS_SADC_CODE (i : Nat) : Nat := 0x40000440 + 4 * i
end R

namespace F
def SYS_ID_PART : Fld := ⟨31, 16⟩
def SYS_ID_REV : Fld := ⟨7, 0⟩
def SYS_ENGINE_ID_ENGINE : Fld := ⟨11, 0⟩
def SYS_MODE_TRANS_CNT : Fld := ⟨31, 24⟩
def SYS_MODE_CAUSE : Fld := ⟨23, 16⟩
def SYS_MODE_FB_RES : Fld := ⟨8, 8⟩
def SYS_MODE_RET_MODE : Fld := ⟨6, 4⟩
def SYS_MODE_DUTY : Fld := ⟨3, 3⟩
def SYS_MODE_MODE : Fld := ⟨2, 0⟩
def SYS_MODECFG_COMM_ALARM_FULL : Fld := ⟨1, 1⟩
def SYS_MODECFG_AUTO_RUN : Fld := ⟨0, 0⟩
def SYS_BGCFG_PENDING : Fld := ⟨8, 8⟩
def SYS_BGCFG_BG_PHASE : Fld := ⟨7, 4⟩
def SYS_BGCFG_BG_POLICY : Fld := ⟨0, 0⟩
def SYS_REMAP_REMAP : Fld := ⟨0, 0⟩
def SYS_DRAMPAGE_PAGE : Fld := ⟨3, 0⟩
def SCHED_CTRL_LS_RESERVE : Fld := ⟨23, 16⟩
def SCHED_CTRL_LATE_DEF : Fld := ⟨7, 0⟩
def SCHED_STATUS_PENDING : Fld := ⟨28, 16⟩
def SCHED_STATUS_TB : Fld := ⟨6, 4⟩
def SCHED_STATUS_STATE : Fld := ⟨1, 0⟩
def SCHED_ANCHOR_TB : Fld := ⟨6, 4⟩
def SCHED_ANCHOR_GO : Fld := ⟨0, 0⟩
def SCHED_ANCHOR_RES_RES : Fld := ⟨15, 0⟩
def SCHED_FLAGS_LOST : Fld := ⟨4, 4⟩
def SCHED_FLAGS_ANCHOR_ERR : Fld := ⟨3, 3⟩
def SCHED_FLAGS_FULL : Fld := ⟨2, 2⟩
def SCHED_FLAGS_LATE_REJ : Fld := ⟨1, 1⟩
def SCHED_FLAGS_LATE_EXEC : Fld := ⟨0, 0⟩
def QUILT_CTRL_SOLO_RAMP : Fld := ⟨16, 0⟩
def QUILT_STATUS_SOLO_ACTIVE : Fld := ⟨1, 1⟩
def QUILT_STATUS_SEW_ARMED : Fld := ⟨0, 0⟩
def QUILT_FLAGS_LOST : Fld := ⟨9, 9⟩
def QUILT_FLAGS_ECC_CE : Fld := ⟨8, 8⟩
def QUILT_FLAGS_APPLY_ERR : Fld := ⟨7, 7⟩
def QUILT_FLAGS_DLY_UNDERRUN : Fld := ⟨6, 6⟩
def QUILT_FLAGS_DLY_ERR : Fld := ⟨5, 5⟩
def QUILT_FLAGS_LIMIT : Fld := ⟨4, 4⟩
def QUILT_FLAGS_BUS_CLIP : Fld := ⟨3, 3⟩
def QUILT_FLAGS_PROD_SAT : Fld := ⟨2, 2⟩
def QUILT_FLAGS_LS_VIOL : Fld := ⟨1, 1⟩
def QUILT_FLAGS_DWR_REJ : Fld := ⟨0, 0⟩
def QUILT_DWR_STAT_REASON : Fld := ⟨31, 28⟩
def QUILT_DWR_STAT_TILE : Fld := ⟨19, 16⟩
def QUILT_DWR_STAT_SLOT : Fld := ⟨15, 0⟩
def QUILT_CHK_RESULT_CODE : Fld := ⟨31, 24⟩
def QUILT_CHK_RESULT_TILE : Fld := ⟨23, 20⟩
def QUILT_CHK_RESULT_INDEX : Fld := ⟨15, 0⟩
def QUILT_METER_CFG_WIN : Fld := ⟨11, 0⟩
def QUILT_DLY_APPLY_GO : Fld := ⟨31, 31⟩
def QUILT_DLY_APPLY_TAP : Fld := ⟨11, 0⟩
def QUILT_TILE_CNT_COUNT : Fld := ⟨16, 0⟩
def QUILT_TILE_OVL_RESERVE : Fld := ⟨16, 0⟩
def QUILT_TILE_WORK_WORK : Fld := ⟨21, 0⟩
def QUILT_SRC_ATTR_SOLO : Fld := ⟨29, 29⟩
def QUILT_SRC_ATTR_PAGING : Fld := ⟨28, 28⟩
def QUILT_SRC_ATTR_THR : Fld := ⟨27, 21⟩
def QUILT_SRC_ATTR_HOLD : Fld := ⟨20, 7⟩
def QUILT_SRC_ATTR_ACTIVE : Fld := ⟨0, 0⟩
def QUILT_METER_PEAK_PEAK : Fld := ⟨31, 0⟩
def QUILT_METER_RMS_LEVEL : Fld := ⟨15, 0⟩
def QUILT_DLY_BASE_PAGE : Fld := ⟨31, 0⟩
def QUILT_DLY_RLEN_RLEN : Fld := ⟨17, 0⟩
def QUILT_DLY_DELAY_DELAY : Fld := ⟨17, 0⟩
def QUILT_DLY_XF_PENDING : Fld := ⟨31, 31⟩
def QUILT_DLY_XF_XFADING : Fld := ⟨30, 30⟩
def QUILT_DLY_XF_XF : Fld := ⟨16, 0⟩
def QUILT_GEN_CFG_EN : Fld := ⟨31, 31⟩
def QUILT_GEN_CFG_KIND : Fld := ⟨29, 28⟩
def QUILT_GEN_CFG_RAMP : Fld := ⟨16, 0⟩
def QUILT_GEN_FREQ_INC : Fld := ⟨31, 0⟩
def QUILT_GEN_LEVEL_LEVEL : Fld := ⟨11, 0⟩
def QUILT_GEN_PHSEED_PHSEED : Fld := ⟨31, 0⟩
def SEAM_CTRL_REBASTE : Fld := ⟨0, 0⟩
def SEAM_STATUS_GROUP : Fld := ⟨8, 8⟩
def SEAM_STATUS_CHK_CLASS : Fld := ⟨5, 4⟩
def SEAM_STATUS_BSTATE : Fld := ⟨2, 0⟩
def SEAM_FLAGS_LOST : Fld := ⟨6, 6⟩
def SEAM_FLAGS_LIVE_CRC_RDY : Fld := ⟨5, 5⟩
def SEAM_FLAGS_FORCED : Fld := ⟨4, 4⟩
def SEAM_FLAGS_BUSY_WR : Fld := ⟨3, 3⟩
def SEAM_FLAGS_SEW_FAIL : Fld := ⟨2, 2⟩
def SEAM_FLAGS_REBASTE_DONE : Fld := ⟨1, 1⟩
def SEAM_FLAGS_SEW_DONE : Fld := ⟨0, 0⟩
def SEAM_RAMP_CNT_COUNT : Fld := ⟨21, 0⟩
def SEAM_OUT_CNT_COUNT : Fld := ⟨20, 0⟩
def SEAM_CMD_CLASS : Fld := ⟨5, 4⟩
def SEAM_CMD_FORCE : Fld := ⟨2, 2⟩
def SEAM_CMD_DISCARD : Fld := ⟨1, 1⟩
def SEAM_CMD_CHECK : Fld := ⟨0, 0⟩
def NEEDLE_FLAGS_CMD_IGN : Fld := ⟨5, 5⟩
def NEEDLE_FLAGS_LOST : Fld := ⟨4, 4⟩
def NEEDLE_FLAGS_STREAM_ERR : Fld := ⟨3, 3⟩
def NEEDLE_FLAGS_ECC_CE : Fld := ⟨2, 2⟩
def NEEDLE_FLAGS_WQ_FULL : Fld := ⟨1, 1⟩
def NEEDLE_FLAGS_P_DENIED : Fld := ⟨0, 0⟩
def NEEDLE_WIN_CYC_CYCLES : Fld := ⟨16, 0⟩
def NEEDLE_CTRL_CMD : Fld := ⟨1, 0⟩
def NEEDLE_STATUS_PC : Fld := ⟨29, 16⟩
def NEEDLE_STATUS_CAUSE : Fld := ⟨7, 4⟩
def NEEDLE_STATUS_STATE : Fld := ⟨2, 0⟩
def NEEDLE_DOORBELL_BITS : Fld := ⟨31, 0⟩
def NEEDLE_TOHOST_VALUE : Fld := ⟨31, 0⟩
def NEEDLE_CYC_MAX_CYCLES : Fld := ⟨16, 0⟩
def NEEDLE_CYC_LAST_CYCLES : Fld := ⟨16, 0⟩
def NEEDLE_MEM_ADDR_SPACE : Fld := ⟨31, 30⟩
def NEEDLE_MEM_ADDR_INC : Fld := ⟨29, 29⟩
def NEEDLE_MEM_ADDR_ADDR : Fld := ⟨15, 0⟩
def NEEDLE_MEM_DATA_DATA : Fld := ⟨31, 0⟩
def NEEDLE_WQ_STAT_LEVEL : Fld := ⟨8, 0⟩
def NEEDLE_LAT_MAX_CYCLES : Fld := ⟨16, 0⟩
def BELL_CTRL_OPEN : Fld := ⟨31, 31⟩
def BELL_CTRL_OPEN_WD : Fld := ⟨23, 16⟩
def BELL_CTRL_VOTE : Fld := ⟨15, 15⟩
def BELL_CTRL_REVERT : Fld := ⟨14, 14⟩
def BELL_CTRL_POLICY : Fld := ⟨13, 13⟩
def BELL_CTRL_BW : Fld := ⟨4, 0⟩
def BELL_SEL_REVERT_WAIT : Fld := ⟨27, 16⟩
def BELL_SEL_REQ : Fld := ⟨15, 15⟩
def BELL_SEL_REF_SEL : Fld := ⟨3, 0⟩
def BELL_PHASE_LOCK_WIN : Fld := ⟨31, 16⟩
def BELL_PHASE_SLOPE : Fld := ⟨13, 0⟩
def BELL_HO_LIMIT : Fld := ⟨31, 16⟩
def BELL_HO_AVG : Fld := ⟨9, 0⟩
def BELL_FREE_TRIM_TRIM : Fld := ⟨31, 0⟩
def BELL_CROSS_CROSS : Fld := ⟨19, 0⟩
def BELL_JUMP_THR : Fld := ⟨19, 0⟩
def BELL_STATUS_DIV_PENDING : Fld := ⟨20, 20⟩
def BELL_STATUS_BW_CLAMPED : Fld := ⟨19, 19⟩
def BELL_STATUS_FREQ_CLAMP : Fld := ⟨18, 18⟩
def BELL_STATUS_HO_READY : Fld := ⟨17, 17⟩
def BELL_STATUS_NET_LOCK : Fld := ⟨16, 16⟩
def BELL_STATUS_AUDIO_LOCK : Fld := ⟨15, 15⟩
def BELL_STATUS_CORE_B_LOCK : Fld := ⟨14, 14⟩
def BELL_STATUS_CORE_A_LOCK : Fld := ⟨13, 13⟩
def BELL_STATUS_CORE_XIN : Fld := ⟨12, 12⟩
def BELL_STATUS_CORE_SEL : Fld := ⟨11, 11⟩
def BELL_STATUS_AUDIO_BYP : Fld := ⟨10, 10⟩
def BELL_STATUS_PULLING : Fld := ⟨9, 9⟩
def BELL_STATUS_REF_VALID : Fld := ⟨8, 8⟩
def BELL_STATUS_ACTIVE_REF : Fld := ⟨7, 4⟩
def BELL_STATUS_STATE : Fld := ⟨2, 0⟩
def BELL_QUAL_ACTIVE : Fld := ⟨31, 16⟩
def BELL_QUAL_QUAL : Fld := ⟨15, 0⟩
def BELL_VOTE_DISAGREE : Fld := ⟨31, 16⟩
def BELL_VOTE_OUTVOTED : Fld := ⟨15, 0⟩
def BELL_FLAGS_REF_LOSS : Fld := ⟨16, 16⟩
def BELL_FLAGS_LOST : Fld := ⟨15, 15⟩
def BELL_FLAGS_JUMP : Fld := ⟨14, 14⟩
def BELL_FLAGS_SYNC_CORR : Fld := ⟨13, 13⟩
def BELL_FLAGS_OPEN_WD : Fld := ⟨12, 12⟩
def BELL_FLAGS_APPLY_ERR : Fld := ⟨11, 11⟩
def BELL_FLAGS_FREQ_CLAMP : Fld := ⟨10, 10⟩
def BELL_FLAGS_TCXO_LOSS : Fld := ⟨9, 9⟩
def BELL_FLAGS_NET_UNLOCK : Fld := ⟨8, 8⟩
def BELL_FLAGS_AUDIO_UNLOCK : Fld := ⟨7, 7⟩
def BELL_FLAGS_CORE_B_UNLOCK : Fld := ⟨6, 6⟩
def BELL_FLAGS_CORE_A_UNLOCK : Fld := ⟨5, 5⟩
def BELL_FLAGS_FREERUN : Fld := ⟨4, 4⟩
def BELL_FLAGS_HOLDOVER : Fld := ⟨3, 3⟩
def BELL_FLAGS_SWITCH : Fld := ⟨2, 2⟩
def BELL_FLAGS_DISAGREE : Fld := ⟨1, 1⟩
def BELL_FLAGS_REF_DISQ : Fld := ⟨0, 0⟩
def BELL_PD_PD : Fld := ⟨31, 0⟩
def BELL_PD_SEQ_SEQ : Fld := ⟨31, 0⟩
def BELL_FREQ_FREQ : Fld := ⟨31, 0⟩
def BELL_PHASE_OFS_LO_OFS : Fld := ⟨31, 0⟩
def BELL_PHASE_OFS_HI_OFS : Fld := ⟨31, 0⟩
def BELL_CORE_CFG_DEPTH : Fld := ⟨8, 4⟩
def BELL_CORE_CFG_MODE : Fld := ⟨1, 0⟩
def BELL_SYNC_DELAY : Fld := ⟨31, 16⟩
def BELL_SYNC_MASK : Fld := ⟨13, 8⟩
def BELL_SYNC_EDGE : Fld := ⟨1, 1⟩
def BELL_SYNC_EN : Fld := ⟨0, 0⟩
def BELL_DIV_UPDATE_GO : Fld := ⟨0, 0⟩
def BELL_REF_APPLY_GO : Fld := ⟨31, 31⟩
def BELL_REF_APPLY_REF : Fld := ⟨3, 0⟩
def BELL_DIV_PAIR : Fld := ⟨16, 16⟩
def BELL_DIV_DIV : Fld := ⟨15, 0⟩
def BELL_REF_CFG_EN : Fld := ⟨31, 31⟩
def BELL_REF_CFG_SW_VALID : Fld := ⟨30, 30⟩
def BELL_REF_CFG_PRIO : Fld := ⟨27, 24⟩
def BELL_REF_CFG_GATE : Fld := ⟨21, 20⟩
def BELL_REF_CFG_MISS : Fld := ⟨19, 12⟩
def BELL_REF_CFG_QT : Fld := ⟨11, 0⟩
def BELL_REF_NOM_NOM : Fld := ⟨24, 0⟩
def BELL_REF_ACCEPT_LIMIT : Fld := ⟨19, 0⟩
def BELL_REF_REJECT_LIMIT : Fld := ⟨19, 0⟩
def BELL_REF_Y_Y : Fld := ⟨31, 0⟩
def BELL_REF_STAT_QT_LEFT : Fld := ⟨27, 16⟩
def BELL_REF_STAT_LAST_DISQ : Fld := ⟨5, 4⟩
def BELL_REF_STAT_MEAS_VALID : Fld := ⟨3, 3⟩
def BELL_REF_STAT_OUTVOTED : Fld := ⟨2, 2⟩
def BELL_REF_STAT_QUAL : Fld := ⟨1, 1⟩
def BELL_REF_STAT_ACTIVE : Fld := ⟨0, 0⟩
def PTP_STATUS_TICK_DEG : Fld := ⟨16, 16⟩
def PTP_STATUS_RUNNING : Fld := ⟨7, 0⟩
def PTP_FLAGS_TXTS_OVF : Fld := ⟨11, 8⟩
def PTP_FLAGS_LOST : Fld := ⟨5, 5⟩
def PTP_FLAGS_TICK_DEG : Fld := ⟨4, 4⟩
def PTP_FLAGS_APPLY_ERR : Fld := ⟨3, 3⟩
def PTP_FLAGS_STEP_BUSY : Fld := ⟨2, 2⟩
def PTP_FLAGS_STEP_ERR : Fld := ⟨1, 1⟩
def PTP_FLAGS_STEP_DONE : Fld := ⟨0, 0⟩
def PTP_DOMMAP_V : Fld := ⟨15, 15⟩
def PTP_DOMMAP_TB : Fld := ⟨10, 8⟩
def PTP_DOMMAP_DOMAIN : Fld := ⟨7, 0⟩
def PTP_TB_INC_LO_FRAC : Fld := ⟨31, 0⟩
def PTP_TB_INC_HI_NS : Fld := ⟨7, 0⟩
def PTP_TB_STEP_NS_NS : Fld := ⟨31, 0⟩
def PTP_TB_STEP_SEC_SEC : Fld := ⟨31, 0⟩
def PTP_TB_CMD_STEP : Fld := ⟨1, 1⟩
def PTP_TB_CMD_APPLY : Fld := ⟨0, 0⟩
def PTP_TB_STAT_EPOCH : Fld := ⟨7, 4⟩
def PTP_TB_STAT_STEP_PEND : Fld := ⟨1, 1⟩
def PTP_TB_STAT_RUNNING : Fld := ⟨0, 0⟩
def PTP_TB_TIME_NS_NS : Fld := ⟨29, 0⟩
def PTP_TB_TIME_SEC_LO_SEC : Fld := ⟨31, 0⟩
def PTP_TB_TIME_SEC_HI_SEC : Fld := ⟨15, 0⟩
def PTP_TB_TIME_FRAC_FRAC : Fld := ⟨15, 0⟩
def PTP_TB_MAP_NS_LO_NS : Fld := ⟨31, 0⟩
def PTP_TB_MAP_NS_HI_NS : Fld := ⟨31, 0⟩
def PTP_TB_MAP_FRAC_FRAC : Fld := ⟨15, 0⟩
def PTP_PORT_CFG_DEF_TB : Fld := ⟨2, 0⟩
def PTP_PORT_TX_ADJ_ADJ : Fld := ⟨15, 0⟩
def PTP_PORT_RX_ADJ_ADJ : Fld := ⟨15, 0⟩
def PTP_TXTS_STAT_LEVEL : Fld := ⟨6, 0⟩
def PTP_TXTS_HEAD_VALID : Fld := ⟨31, 31⟩
def PTP_TXTS_HEAD_ABORT : Fld := ⟨30, 30⟩
def PTP_TXTS_HEAD_TB : Fld := ⟨26, 24⟩
def PTP_TXTS_HEAD_EPOCH : Fld := ⟨23, 20⟩
def PTP_TXTS_HEAD_ID : Fld := ⟨15, 0⟩
def PTP_TXTS_NS_NS : Fld := ⟨29, 0⟩
def PTP_TXTS_SEC_LO_SEC : Fld := ⟨31, 0⟩
def PTP_TXTS_SEC_HI_SEC : Fld := ⟨15, 0⟩
def NET_STATUS_TX_RUN : Fld := ⟨25, 15⟩
def NET_STATUS_RX_RUN : Fld := ⟨14, 4⟩
def NET_STATUS_LINK : Fld := ⟨3, 0⟩
def NET_FLAGS_LINK_DOWN : Fld := ⟨12, 9⟩
def NET_FLAGS_LOST : Fld := ⟨8, 8⟩
def NET_FLAGS_REALIGN : Fld := ⟨7, 7⟩
def NET_FLAGS_LEG_DOWN : Fld := ⟨6, 6⟩
def NET_FLAGS_TX_LATE : Fld := ⟨5, 5⟩
def NET_FLAGS_TX_CLIP : Fld := ⟨4, 4⟩
def NET_FLAGS_FORMAT : Fld := ⟨3, 3⟩
def NET_FLAGS_OOW : Fld := ⟨2, 2⟩
def NET_FLAGS_UNDERRUN : Fld := ⟨1, 1⟩
def NET_FLAGS_APPLY_ERR : Fld := ⟨0, 0⟩
def NET_CTRL_REALIGN_THR : Fld := ⟨7, 0⟩
def NET_APPLY_GO : Fld := ⟨31, 31⟩
def NET_APPLY_DIR : Fld := ⟨30, 30⟩
def NET_APPLY_FLOW : Fld := ⟨9, 0⟩
def NET_APPLY_RESULT_CODE : Fld := ⟨31, 24⟩
def NET_APPLY_RESULT_DIR : Fld := ⟨23, 23⟩
def NET_APPLY_RESULT_FLOW : Fld := ⟨9, 0⟩
def NET_PORT_CFG_JUMBO : Fld := ⟨4, 4⟩
def NET_PORT_CFG_FEC : Fld := ⟨3, 2⟩
def NET_PORT_CFG_MODE : Fld := ⟨1, 0⟩
def NET_PORT_MAC_LO_MAC : Fld := ⟨31, 0⟩
def NET_PORT_MAC_HI_MAC : Fld := ⟨15, 0⟩
def NET_PORT_IP_ADDR : Fld := ⟨31, 0⟩
def NET_PORT_STAT_BLOCK_LOCK : Fld := ⟨1, 1⟩
def NET_PORT_STAT_LINK : Fld := ⟨0, 0⟩
def NET_PORT_LOAD_MBPS : Fld := ⟨14, 0⟩
def NET_RXF_FMT_TB : Fld := ⟨14, 12⟩
def NET_RXF_FMT_CH : Fld := ⟨11, 5⟩
def NET_RXF_FMT_PTIME : Fld := ⟨4, 2⟩
def NET_RXF_FMT_RATE : Fld := ⟨1, 1⟩
def NET_RXF_FMT_ENC : Fld := ⟨0, 0⟩
def NET_RXF_FMT_KMODE : Fld := ⟨15, 15⟩
def NET_RXF_FMT_PAIR : Fld := ⟨16, 16⟩
def NET_RXF_FMT_SSRC_CHK : Fld := ⟨17, 17⟩
def NET_RXF_FMT_PT : Fld := ⟨24, 18⟩
def NET_RXF_MAP_PORT_B : Fld := ⟨27, 26⟩
def NET_RXF_MAP_PORT_A : Fld := ⟨25, 24⟩
def NET_RXF_MAP_FLOCK : Fld := ⟨22, 16⟩
def NET_RXF_MAP_FIRST : Fld := ⟨11, 0⟩
def NET_RXF_DST_A_ADDR : Fld := ⟨31, 0⟩
def NET_RXF_UDP_UDP_B : Fld := ⟨31, 16⟩
def NET_RXF_UDP_UDP_A : Fld := ⟨15, 0⟩
def NET_RXF_DST_B_ADDR : Fld := ⟨31, 0⟩
def NET_RXF_SRC_ADDR : Fld := ⟨31, 0⟩
def NET_RXF_SSRC_SSRC : Fld := ⟨31, 0⟩
def NET_RXF_OFFSET_OFFSET : Fld := ⟨31, 0⟩
def NET_RXF_DEPTH_DEPTH : Fld := ⟨10, 0⟩
def NET_RXF_STAT_REALIGN : Fld := ⟨31, 24⟩
def NET_RXF_STAT_LEG_B_UP : Fld := ⟨5, 5⟩
def NET_RXF_STAT_LEG_A_UP : Fld := ⟨4, 4⟩
def NET_RXF_STAT_STATE : Fld := ⟨2, 0⟩
def NET_RXF_K_LO_K : Fld := ⟨31, 0⟩
def NET_RXF_K_HI_K : Fld := ⟨31, 0⟩
def NET_TXF_FMT_TB : Fld := ⟨14, 12⟩
def NET_TXF_FMT_CH : Fld := ⟨11, 5⟩
def NET_TXF_FMT_PTIME : Fld := ⟨4, 2⟩
def NET_TXF_FMT_RATE : Fld := ⟨1, 1⟩
def NET_TXF_FMT_ENC : Fld := ⟨0, 0⟩
def NET_TXF_FMT_KMODE : Fld := ⟨15, 15⟩
def NET_TXF_FMT_PAIR : Fld := ⟨16, 16⟩
def NET_TXF_FMT_DSCP : Fld := ⟨22, 17⟩
def NET_TXF_FMT_PT : Fld := ⟨29, 23⟩
def NET_TXF_MAP_PORT_B : Fld := ⟨27, 26⟩
def NET_TXF_MAP_PORT_A : Fld := ⟨25, 24⟩
def NET_TXF_MAP_FLOCK : Fld := ⟨22, 16⟩
def NET_TXF_MAP_FIRST : Fld := ⟨11, 0⟩
def NET_TXF_DST_A_ADDR : Fld := ⟨31, 0⟩
def NET_TXF_UDP_SRC_PORT : Fld := ⟨31, 16⟩
def NET_TXF_UDP_DST_PORT : Fld := ⟨15, 0⟩
def NET_TXF_DST_B_ADDR : Fld := ⟨31, 0⟩
def NET_TXF_SSRC_SSRC : Fld := ⟨31, 0⟩
def NET_TXF_OFFSET_OFFSET : Fld := ⟨31, 0⟩
def NET_TXF_IPCFG_VLAN_EN : Fld := ⟨23, 23⟩
def NET_TXF_IPCFG_PCP : Fld := ⟨22, 20⟩
def NET_TXF_IPCFG_VID : Fld := ⟨19, 8⟩
def NET_TXF_IPCFG_TTL : Fld := ⟨7, 0⟩
def NET_TXF_STAT_REALIGN : Fld := ⟨31, 24⟩
def NET_TXF_STAT_STATE : Fld := ⟨2, 0⟩
def NET_TXF_K_LO_K : Fld := ⟨31, 0⟩
def NET_TXF_K_HI_K : Fld := ⟨31, 0⟩
def NET_TXF_SEQ_SEQ : Fld := ⟨15, 0⟩
def NET_FLOCK_STAT_SKIPPED : Fld := ⟨31, 24⟩
def NET_FLOCK_STAT_DEGRADED : Fld := ⟨13, 13⟩
def NET_FLOCK_STAT_RUNNING : Fld := ⟨12, 12⟩
def NET_FLOCK_STAT_MEMBERS : Fld := ⟨11, 0⟩
def PORT_STATUS_ASRC_USED : Fld := ⟨25, 16⟩
def PORT_STATUS_TDM_CLK : Fld := ⟨15, 0⟩
def PORT_FLAGS_DIRECT_OVR : Fld := ⟨12, 12⟩
def PORT_FLAGS_LOST : Fld := ⟨11, 11⟩
def PORT_FLAGS_TIMEOUT : Fld := ⟨10, 10⟩
def PORT_FLAGS_BLKERR : Fld := ⟨9, 9⟩
def PORT_FLAGS_CLK_LOSS : Fld := ⟨8, 8⟩
def PORT_FLAGS_CLIP : Fld := ⟨7, 7⟩
def PORT_FLAGS_ASRC_UNLOCK : Fld := ⟨6, 6⟩
def PORT_FLAGS_RATE_ERR : Fld := ⟨5, 5⟩
def PORT_FLAGS_SLIP : Fld := ⟨4, 4⟩
def PORT_FLAGS_VALID : Fld := ⟨3, 3⟩
def PORT_FLAGS_CRC : Fld := ⟨2, 2⟩
def PORT_FLAGS_UNLOCK : Fld := ⟨1, 1⟩
def PORT_FLAGS_APPLY_ERR : Fld := ⟨0, 0⟩
def PORT_APPLY_GO : Fld := ⟨31, 31⟩
def PORT_APPLY_KIND : Fld := ⟨9, 8⟩
def PORT_APPLY_INDEX : Fld := ⟨4, 0⟩
def PORT_APPLY_RESULT_CODE : Fld := ⟨31, 24⟩
def PORT_APPLY_RESULT_SLOT : Fld := ⟨20, 16⟩
def PORT_APPLY_RESULT_KIND : Fld := ⟨9, 8⟩
def PORT_APPLY_RESULT_INDEX : Fld := ⟨4, 0⟩
def PORT_ARX_CFG_EN : Fld := ⟨31, 31⟩
def PORT_ARX_CFG_FLOCK : Fld := ⟨22, 16⟩
def PORT_ARX_CFG_WL20 : Fld := ⟨8, 8⟩
def PORT_ARX_CFG_CRCCHK : Fld := ⟨7, 7⟩
def PORT_ARX_CFG_NAMUTE : Fld := ⟨6, 6⟩
def PORT_ARX_CFG_VPOL : Fld := ⟨5, 5⟩
def PORT_ARX_CFG_SILENT : Fld := ⟨4, 4⟩
def PORT_ARX_CFG_RATE : Fld := ⟨2, 2⟩
def PORT_ARX_CFG_PATH : Fld := ⟨0, 0⟩
def PORT_ARX_STAT_STATE : Fld := ⟨26, 24⟩
def PORT_ARX_STAT_CONSUMER : Fld := ⟨8, 8⟩
def PORT_ARX_STAT_NONAUDIO : Fld := ⟨7, 7⟩
def PORT_ARX_STAT_CS_NEW : Fld := ⟨6, 6⟩
def PORT_ARX_STAT_RATE_ERR : Fld := ⟨5, 5⟩
def PORT_ARX_STAT_ASRC_LOCK : Fld := ⟨4, 4⟩
def PORT_ARX_STAT_LOCK : Fld := ⟨3, 3⟩
def PORT_ARX_RATE_RATE : Fld := ⟨31, 0⟩
def PORT_ARX_CS_A_BYTES : Fld := ⟨31, 0⟩
def PORT_ARX_CS_B_BYTES : Fld := ⟨31, 0⟩
def PORT_ARX_UB_A_BYTES : Fld := ⟨31, 0⟩
def PORT_ARX_UB_B_BYTES : Fld := ⟨31, 0⟩
def PORT_ATX_CFG_EN : Fld := ⟨31, 31⟩
def PORT_ATX_CFG_FLOCK : Fld := ⟨22, 16⟩
def PORT_ATX_CFG_CLKSRC : Fld := ⟨9, 8⟩
def PORT_ATX_CFG_RXSEL : Fld := ⟨7, 3⟩
def PORT_ATX_CFG_RATE : Fld := ⟨2, 2⟩
def PORT_ATX_CFG_UBEN : Fld := ⟨1, 1⟩
def PORT_ATX_CFG_SILENT : Fld := ⟨0, 0⟩
def PORT_ATX_STAT_STATE : Fld := ⟨26, 24⟩
def PORT_ATX_STAT_CLK_LOSS : Fld := ⟨5, 5⟩
def PORT_ATX_STAT_ASRC_LOCK : Fld := ⟨4, 4⟩
def PORT_ATX_STAT_SHADOW_PENDING : Fld := ⟨0, 0⟩
def PORT_ATX_CS_A_BYTES : Fld := ⟨31, 0⟩
def PORT_ATX_CS_B_BYTES : Fld := ⟨31, 0⟩
def PORT_ATX_UB_A_BYTES : Fld := ⟨31, 0⟩
def PORT_ATX_UB_B_BYTES : Fld := ⟨31, 0⟩
def PORT_TDM_CFG_EN : Fld := ⟨31, 31⟩
def PORT_TDM_CFG_FLOCK : Fld := ⟨22, 16⟩
def PORT_TDM_CFG_HIZ : Fld := ⟨15, 15⟩
def PORT_TDM_CFG_SILENT : Fld := ⟨14, 14⟩
def PORT_TDM_CFG_PATH : Fld := ⟨13, 13⟩
def PORT_TDM_CFG_MASTER : Fld := ⟨12, 12⟩
def PORT_TDM_CFG_RATE : Fld := ⟨11, 11⟩
def PORT_TDM_CFG_DELAY : Fld := ⟨10, 10⟩
def PORT_TDM_CFG_FORMAT : Fld := ⟨9, 8⟩
def PORT_TDM_CFG_WIDTH : Fld := ⟨7, 6⟩
def PORT_TDM_CFG_SLOTS : Fld := ⟨5, 0⟩
def PORT_TDM_RXMASK_MASK : Fld := ⟨31, 0⟩
def PORT_TDM_TXMASK_MASK : Fld := ⟨31, 0⟩
def PORT_TDM_STAT_STATE : Fld := ⟨26, 24⟩
def PORT_TDM_STAT_SHADOW_PENDING : Fld := ⟨5, 5⟩
def PORT_TDM_STAT_ASRC_LOCK : Fld := ⟨4, 4⟩
def PORT_TDM_STAT_RATE_ERR : Fld := ⟨3, 3⟩
def PORT_TDM_STAT_CLK : Fld := ⟨0, 0⟩
def PORT_TDM_RXMAP_TYPE : Fld := ⟨31, 28⟩
def PORT_TDM_RXMAP_INDEX : Fld := ⟨12, 0⟩
def PORT_TDM_TXMAP_TYPE : Fld := ⟨31, 28⟩
def PORT_TDM_TXMAP_OUTCH : Fld := ⟨8, 0⟩
def LINE_CTRL_K : Fld := ⟨23, 16⟩
def LINE_CTRL_REGION : Fld := ⟨8, 8⟩
def LINE_CTRL_QF : Fld := ⟨2, 0⟩
def LINE_STATUS_RUN : Fld := ⟨31, 16⟩
def LINE_STATUS_FB_CLK : Fld := ⟨3, 3⟩
def LINE_STATUS_BAT_LOW : Fld := ⟨2, 2⟩
def LINE_STATUS_OV : Fld := ⟨1, 1⟩
def LINE_STATUS_UVLO : Fld := ⟨0, 0⟩
def LINE_FLAGS_LOST : Fld := ⟨16, 16⟩
def LINE_FLAGS_CMD_IGN : Fld := ⟨15, 15⟩
def LINE_FLAGS_CAL_ERR : Fld := ⟨14, 14⟩
def LINE_FLAGS_SENSE_LOSS : Fld := ⟨13, 13⟩
def LINE_FLAGS_SUP_FAULT : Fld := ⟨12, 12⟩
def LINE_FLAGS_BAT_LOW : Fld := ⟨11, 11⟩
def LINE_FLAGS_SUPPLY : Fld := ⟨10, 10⟩
def LINE_FLAGS_LOCK : Fld := ⟨9, 9⟩
def LINE_FLAGS_TRIP : Fld := ⟨8, 8⟩
def LINE_FLAGS_OCP : Fld := ⟨7, 7⟩
def LINE_FLAGS_NTC_FAULT : Fld := ⟨6, 6⟩
def LINE_FLAGS_THERM_STOP : Fld := ⟨5, 5⟩
def LINE_FLAGS_FOLD : Fld := ⟨4, 4⟩
def LINE_FLAGS_LIMIT : Fld := ⟨3, 3⟩
def LINE_FLAGS_CLIP : Fld := ⟨2, 2⟩
def LINE_FLAGS_CFG_IGN : Fld := ⟨1, 1⟩
def LINE_FLAGS_APPLY_ERR : Fld := ⟨0, 0⟩
def LINE_APPLY_GO : Fld := ⟨31, 31⟩
def LINE_APPLY_CH : Fld := ⟨3, 0⟩
def LINE_APPLY_RESULT_CODE : Fld := ⟨31, 24⟩
def LINE_APPLY_RESULT_CH : Fld := ⟨3, 0⟩
def LINE_SADC_CFG_VBAT_IN : Fld := ⟨12, 8⟩
def LINE_SADC_CFG_VBUS_IN : Fld := ⟨4, 0⟩
def LINE_SUPPLY_SCALE_VBAT_FS : Fld := ⟨31, 16⟩
def LINE_SUPPLY_SCALE_VBUS_FS : Fld := ⟨15, 0⟩
def LINE_SUPPLY_LIM_OV : Fld := ⟨27, 16⟩
def LINE_SUPPLY_LIM_UVLO : Fld := ⟨11, 0⟩
def LINE_VBAT_LOW_LEVEL : Fld := ⟨11, 0⟩
def LINE_SUPPLY_V_VBAT : Fld := ⟨27, 16⟩
def LINE_SUPPLY_V_VBUS : Fld := ⟨11, 0⟩
def LINE_NTC_LUT_TEMP : Fld := ⟨15, 0⟩
def LINE_CH_CFG_EF_SEL : Fld := ⟨28, 24⟩
def LINE_CH_CFG_NTC_SEL : Fld := ⟨20, 16⟩
def LINE_CH_CFG_BLANK : Fld := ⟨14, 9⟩
def LINE_CH_CFG_LOOP : Fld := ⟨8, 8⟩
def LINE_CH_CFG_DT : Fld := ⟨7, 0⟩
def LINE_CH_VSCALE_VFS : Fld := ⟨24, 16⟩
def LINE_CH_VSCALE_VRATED : Fld := ⟨8, 0⟩
def LINE_CH_ISCALE_IFS : Fld := ⟨11, 0⟩
def LINE_CH_SUPWIN_ZMAX : Fld := ⟨31, 16⟩
def LINE_CH_SUPWIN_ZMIN : Fld := ⟨15, 0⟩
def LINE_CH_SUPCFG_QUAL : Fld := ⟨19, 16⟩
def LINE_CH_SUPCFG_EF_THR : Fld := ⟨11, 0⟩
def LINE_CH_THERM_TSTOP : Fld := ⟨31, 16⟩
def LINE_CH_THERM_TFOLD : Fld := ⟨15, 0⟩
def LINE_CH_CMD_CLEAR : Fld := ⟨2, 2⟩
def LINE_CH_CMD_DISABLE : Fld := ⟨1, 1⟩
def LINE_CH_CMD_ENABLE : Fld := ⟨0, 0⟩
def LINE_CH_STAT_IS_LOSS : Fld := ⟨21, 21⟩
def LINE_CH_STAT_VS_LOSS : Fld := ⟨20, 20⟩
def LINE_CH_STAT_CAL_ERR : Fld := ⟨19, 19⟩
def LINE_CH_STAT_EARTH : Fld := ⟨18, 18⟩
def LINE_CH_STAT_SUP : Fld := ⟨17, 16⟩
def LINE_CH_STAT_HOLD : Fld := ⟨11, 8⟩
def LINE_CH_STAT_STATE : Fld := ⟨2, 0⟩
def LINE_CH_GR_LIM : Fld := ⟨31, 16⟩
def LINE_CH_GR_FOLD : Fld := ⟨15, 0⟩
def LINE_CH_ZMAG_PHASE : Fld := ⟨31, 16⟩
def LINE_CH_ZMAG_MAG : Fld := ⟨15, 0⟩
def LINE_CH_EF_CODE : Fld := ⟨11, 0⟩
def LINE_CH_TEMP_TEMP : Fld := ⟨15, 0⟩
def LINE_CH_RETRY_WIN : Fld := ⟨19, 16⟩
def LINE_CH_RETRY_COUNT : Fld := ⟨15, 0⟩
def ALARM_STATUS_ACTIVE : Fld := ⟨31, 16⟩
def ALARM_STATUS_GOVERN : Fld := ⟨11, 8⟩
def ALARM_STATUS_GOV_VALID : Fld := ⟨7, 7⟩
def ALARM_STATUS_CHANGING : Fld := ⟨6, 6⟩
def ALARM_STATUS_RETIRING : Fld := ⟨5, 5⟩
def ALARM_STATUS_FB_SECTION : Fld := ⟨4, 4⟩
def ALARM_STATUS_COPY_DONE : Fld := ⟨3, 3⟩
def ALARM_STATUS_FB_VALID : Fld := ⟨2, 2⟩
def ALARM_FLAGS_LOST : Fld := ⟨8, 8⟩
def ALARM_FLAGS_REPAIR : Fld := ⟨7, 7⟩
def ALARM_FLAGS_SUPPRESS : Fld := ⟨6, 6⟩
def ALARM_FLAGS_MSG_DRAM : Fld := ⟨5, 5⟩
def ALARM_FLAGS_MSG_MISSING : Fld := ⟨4, 4⟩
def ALARM_FLAGS_MSG_CRC : Fld := ⟨3, 3⟩
def ALARM_FLAGS_PAT_INVALID : Fld := ⟨2, 2⟩
def ALARM_FLAGS_ENTRY : Fld := ⟨1, 1⟩
def ALARM_FLAGS_CFG_IGN : Fld := ⟨0, 0⟩
def ALARM_PAT_STAT_INVALID : Fld := ⟨31, 16⟩
def ALARM_PAT_STAT_CACHED : Fld := ⟨15, 0⟩
def ALARM_MSG_DRAM_BASE : Fld := ⟨21, 0⟩
def ALARM_IN_CFG_EN : Fld := ⟨31, 31⟩
def ALARM_IN_CFG_POL : Fld := ⟨30, 30⟩
def ALARM_IN_CFG_LATCH : Fld := ⟨29, 29⟩
def ALARM_IN_CFG_DB : Fld := ⟨19, 8⟩
def ALARM_IN_CFG_PATTERN : Fld := ⟨3, 0⟩
def ALARM_PLY_STAT_SLOT : Fld := ⟨24, 16⟩
def ALARM_PLY_STAT_REPS_LEFT : Fld := ⟨15, 8⟩
def ALARM_PLY_STAT_SRC_NVS : Fld := ⟨6, 6⟩
def ALARM_PLY_STAT_OWNER : Fld := ⟨5, 4⟩
def ALARM_PLY_STAT_STATE : Fld := ⟨2, 0⟩
def ALARM_PLY_POS_POS : Fld := ⟨23, 0⟩
def ALARM_MSG_STAT_DRAM_OK : Fld := ⟨2, 2⟩
def ALARM_MSG_STAT_BAD : Fld := ⟨1, 1⟩
def ALARM_MSG_STAT_VALID : Fld := ⟨0, 0⟩
def TWIN_CFG_HOLD_BACK : Fld := ⟨31, 16⟩
def TWIN_CFG_SETTLE : Fld := ⟨15, 8⟩
def TWIN_CFG_AUTO_RESYNC : Fld := ⟨3, 3⟩
def TWIN_CFG_SID_EN : Fld := ⟨2, 2⟩
def TWIN_CFG_REVERT : Fld := ⟨1, 1⟩
def TWIN_CFG_PREFER : Fld := ⟨0, 0⟩
def TWIN_STATUS_ROLE : Fld := ⟨31, 31⟩
def TWIN_STATUS_DUTY_IN : Fld := ⟨30, 30⟩
def TWIN_STATUS_DUTY_OUT : Fld := ⟨29, 29⟩
def TWIN_STATUS_LANES : Fld := ⟨25, 24⟩
def TWIN_STATUS_TSTATE : Fld := ⟨18, 16⟩
def TWIN_STATUS_READY : Fld := ⟨12, 12⟩
def TWIN_STATUS_CHECKING : Fld := ⟨11, 11⟩
def TWIN_FLAGS_LOST : Fld := ⟨8, 8⟩
def TWIN_FLAGS_WR_IGN : Fld := ⟨7, 7⟩
def TWIN_FLAGS_MSC_DIFF : Fld := ⟨6, 6⟩
def TWIN_FLAGS_DELTA_FULL : Fld := ⟨5, 5⟩
def TWIN_FLAGS_MISMATCH : Fld := ⟨4, 4⟩
def TWIN_FLAGS_DUAL_DUTY : Fld := ⟨3, 3⟩
def TWIN_FLAGS_LANE_LOSS : Fld := ⟨2, 2⟩
def TWIN_FLAGS_LINK_DOWN : Fld := ⟨1, 1⟩
def TWIN_FLAGS_SWITCH : Fld := ⟨0, 0⟩
def TWIN_CMD_SELFTEST : Fld := ⟨2, 2⟩
def TWIN_CMD_RELEASE : Fld := ⟨1, 1⟩
def TWIN_CMD_RESYNC : Fld := ⟨0, 0⟩
def TWIN_HEALTH_HEALTHY : Fld := ⟨31, 31⟩
def TWIN_HEALTH_CHECKING : Fld := ⟨30, 30⟩
def TWIN_HEALTH_TSTATE : Fld := ⟨18, 16⟩
def TWIN_HEALTH_MISMATCHES : Fld := ⟨15, 0⟩
def TWIN_HEALTH_AGE_BLOCKS : Fld := ⟨15, 0⟩
def TWIN_DELTA_MAX_BYTES : Fld := ⟨16, 0⟩
def TWIN_EXPOSE_BLOCKS : Fld := ⟨31, 0⟩
def TWIN_SID_MAC_LO_MAC : Fld := ⟨31, 0⟩
def TWIN_SID_MAC_HI_MAC : Fld := ⟨15, 0⟩
def TWIN_SID_IP_ADDR : Fld := ⟨31, 0⟩
def FAULT_CTRL_LS_GUARD : Fld := ⟨1, 1⟩
def FAULT_CTRL_PIN_FORCE : Fld := ⟨0, 0⟩
def FAULT_STATUS_SEVERE_N : Fld := ⟨31, 24⟩
def FAULT_STATUS_RAISED_N : Fld := ⟨23, 16⟩
def FAULT_STATUS_PIN_OUT : Fld := ⟨2, 2⟩
def FAULT_STATUS_PIN_IN : Fld := ⟨1, 1⟩
def FAULT_STATUS_REC_OPEN : Fld := ⟨0, 0⟩
def FAULT_FLAGS_LOST : Fld := ⟨1, 1⟩
def FAULT_FLAGS_CHIPRST_HELD : Fld := ⟨0, 0⟩
def FAULT_REC_SRC_ESC : Fld := ⟨31, 31⟩
def FAULT_REC_SRC_HELD : Fld := ⟨28, 24⟩
def FAULT_REC_SRC_REACT : Fld := ⟨20, 16⟩
def FAULT_REC_SRC_STATE : Fld := ⟨9, 8⟩
def FAULT_REC_SRC_SRC : Fld := ⟨7, 0⟩
def FAULT_REC_INFO_INFO : Fld := ⟨31, 0⟩
def FAULT_REC_MERGE_CNT_COUNT : Fld := ⟨15, 0⟩
def FAULT_REC_ACK_GO : Fld := ⟨0, 0⟩
def FAULT_SW_RAISE_UNIT : Fld := ⟨31, 16⟩
def FAULT_SW_RAISE_SRC : Fld := ⟨15, 0⟩
def FAULT_SRC_CFG_N : Fld := ⟨31, 24⟩
def FAULT_SRC_CFG_SEVERE : Fld := ⟨12, 8⟩
def FAULT_SRC_CFG_NORMAL : Fld := ⟨4, 0⟩
def FAULT_SRC_WIN_MS : Fld := ⟨21, 0⟩
def FAULT_SRC_QUIET_MS : Fld := ⟨21, 0⟩
def FAULT_SRC_STAT_RECOV : Fld := ⟨31, 16⟩
def FAULT_SRC_STAT_WCOUNT : Fld := ⟨15, 8⟩
def FAULT_SRC_STAT_PAR_ERR : Fld := ⟨4, 4⟩
def FAULT_SRC_STAT_STATE : Fld := ⟨1, 0⟩
def FOLD_CTRL_LS_LOCK : Fld := ⟨0, 0⟩
def FOLD_STATUS_LS_LEVEL : Fld := ⟨14, 8⟩
def FOLD_STATUS_LOAD : Fld := ⟨1, 0⟩
def FOLD_FLAGS_LOST : Fld := ⟨5, 5⟩
def FOLD_FLAGS_NOTICE_DROP : Fld := ⟨4, 4⟩
def FOLD_FLAGS_OVERLOAD : Fld := ⟨3, 3⟩
def FOLD_FLAGS_AUTH : Fld := ⟨2, 2⟩
def FOLD_FLAGS_RING_ERR : Fld := ⟨1, 1⟩
def FOLD_FLAGS_CFG_IGN : Fld := ⟨0, 0⟩
def FOLD_NET_PORTS : Fld := ⟨19, 16⟩
def FOLD_NET_UDP : Fld := ⟨15, 0⟩
def FOLD_BACKLOG_US : Fld := ⟨23, 0⟩
def FOLD_CFG_EN : Fld := ⟨31, 31⟩
def FOLD_CFG_TRANSPORT : Fld := ⟨30, 30⟩
def FOLD_CFG_NO_SNOOP : Fld := ⟨29, 29⟩
def FOLD_CFG_IRQ_EN : Fld := ⟨28, 28⟩
def FOLD_CFG_CLASS : Fld := ⟨25, 24⟩
def FOLD_CFG_CREDIT : Fld := ⟨15, 8⟩
def FOLD_RATE_RATE : Fld := ⟨15, 0⟩
def FOLD_RING_CFG_RSIZE : Fld := ⟨12, 8⟩
def FOLD_RING_CFG_CSIZE : Fld := ⟨4, 0⟩
def FOLD_CRING_LO_ADDR : Fld := ⟨31, 6⟩
def FOLD_CRING_HI_ADDR : Fld := ⟨31, 0⟩
def FOLD_RRING_LO_ADDR : Fld := ⟨31, 6⟩
def FOLD_RRING_HI_ADDR : Fld := ⟨31, 0⟩
def FOLD_CDB_TAIL : Fld := ⟨15, 0⟩
def FOLD_CHEAD_SLOT : Fld := ⟨15, 0⟩
def FOLD_RTAIL_SLOT : Fld := ⟨15, 0⟩
def FOLD_RHEAD_SLOT : Fld := ⟨15, 0⟩
def FOLD_STAT_RPL_FULL : Fld := ⟨18, 18⟩
def FOLD_STAT_RING_ERR : Fld := ⟨17, 17⟩
def FOLD_STAT_SEG_OPEN : Fld := ⟨16, 16⟩
def FOLD_STAT_OUTSTANDING : Fld := ⟨7, 0⟩
def FOLD_KEY_KEY : Fld := ⟨31, 0⟩
def FOLD_PEER_IP_ADDR : Fld := ⟨31, 0⟩
def FOLD_PEER_PORT_PORT : Fld := ⟨15, 0⟩
def SYS_LOCKV_ADDR_ADDR : Fld := ⟨31, 0⟩
def SYS_LOCKV_INFO_KIND : Fld := ⟨31, 28⟩
def SYS_LOCKV_INFO_MASTER : Fld := ⟨19, 16⟩
def SYS_REGFLAGS_LOST : Fld := ⟨1, 1⟩
def SYS_REGFLAGS_LOCKV : Fld := ⟨0, 0⟩
def SYS_FRESH_DONE : Fld := ⟨1, 1⟩
def SYS_FRESH_REQ : Fld := ⟨0, 0⟩
def SYS_VIEW_LOCK_BAR0_RO : Fld := ⟨0, 0⟩
def CCU_STATUS_COMMITTED : Fld := ⟨31, 31⟩
def CCU_STATUS_OVL : Fld := ⟨24, 24⟩
def CCU_STATUS_FB : Fld := ⟨16, 16⟩
def CCU_STATUS_ADOPT : Fld := ⟨10, 8⟩
def CCU_STATUS_STATE : Fld := ⟨5, 0⟩
def CCU_FLAGS_LOST : Fld := ⟨3, 3⟩
def CCU_FLAGS_ADOPTED : Fld := ⟨2, 2⟩
def CCU_FLAGS_TIMEOUT : Fld := ⟨1, 1⟩
def CCU_FLAGS_MISMATCH : Fld := ⟨0, 0⟩
def CCU_COMMIT_MODE : Fld := ⟨8, 8⟩
def CCU_COMMIT_REGION : Fld := ⟨2, 0⟩
def SYS_DRAM_STAT_FAIL : Fld := ⟨9, 9⟩
def SYS_DRAM_STAT_TRAINED : Fld := ⟨8, 8⟩
def SYS_DRAM_STAT_USABLE : Fld := ⟨4, 0⟩
def SYS_ECC_ADDR_ADDR : Fld := ⟨31, 0⟩
def SYS_ECC_INFO_UE : Fld := ⟨31, 31⟩
def SYS_ECC_INFO_SPACE : Fld := ⟨28, 28⟩
def SYS_ECC_INFO_MASTER : Fld := ⟨19, 16⟩
def SYS_ECC_INFO_MEM : Fld := ⟨3, 0⟩
def SYS_REPAIR_SPARE_LOW : Fld := ⟨16, 16⟩
def SYS_REPAIR_COLUMNS : Fld := ⟨15, 0⟩
def SYS_BUS_TO_ADDR_ADDR : Fld := ⟨31, 0⟩
def SYS_MEMFLAGS_LOST : Fld := ⟨3, 3⟩
def SYS_MEMFLAGS_TIMEOUT : Fld := ⟨2, 2⟩
def SYS_MEMFLAGS_UE : Fld := ⟨1, 1⟩
def SYS_MEMFLAGS_CE : Fld := ⟨0, 0⟩
def DROVER_STATUS_RUN : Fld := ⟨15, 0⟩
def DROVER_FLAGS_LOST : Fld := ⟨6, 6⟩
def DROVER_FLAGS_CMD_IGN : Fld := ⟨5, 5⟩
def DROVER_FLAGS_CH15_IGN : Fld := ⟨4, 4⟩
def DROVER_FLAGS_CONFLICT : Fld := ⟨3, 3⟩
def DROVER_FLAGS_DESC_ERR : Fld := ⟨2, 2⟩
def DROVER_FLAGS_BUDGET : Fld := ⟨1, 1⟩
def DROVER_FLAGS_BUS_ERR : Fld := ⟨0, 0⟩
def DROVER_DONE_DONE : Fld := ⟨15, 0⟩
def DROVER_ERR_ADDR_LO_ADDR : Fld := ⟨31, 0⟩
def DROVER_ERR_ADDR_HI_ADDR : Fld := ⟨31, 0⟩
def DROVER_ERR_INFO_KIND : Fld := ⟨9, 8⟩
def DROVER_ERR_INFO_DIR : Fld := ⟨4, 4⟩
def DROVER_ERR_INFO_SPACE : Fld := ⟨1, 0⟩
def DROVER_CH_CFG_PRIV : Fld := ⟨31, 31⟩
def DROVER_CH_CFG_BUDGET : Fld := ⟨15, 0⟩
def DROVER_CH_DESC_LO_ADDR : Fld := ⟨31, 0⟩
def DROVER_CH_DESC_HI_ADDR : Fld := ⟨31, 0⟩
def DROVER_CH_CMD_ABORT : Fld := ⟨1, 1⟩
def DROVER_CH_CMD_START : Fld := ⟨0, 0⟩
def DROVER_CH_STAT_CAUSE : Fld := ⟨10, 8⟩
def DROVER_CH_STAT_CONFLICT : Fld := ⟨4, 4⟩
def DROVER_CH_STAT_STATE : Fld := ⟨2, 0⟩
def DROVER_CH_CUR_LO_ADDR : Fld := ⟨31, 0⟩
def DROVER_CH_CUR_HI_ADDR : Fld := ⟨31, 0⟩
def SYS_RST_CAUSE_SRC : Fld := ⟨15, 8⟩
def SYS_RST_CAUSE_CAUSE : Fld := ⟨2, 0⟩
def SYS_STRAP_TWIN_ROLE : Fld := ⟨4, 4⟩
def SYS_STRAP_BOOTSEL : Fld := ⟨2, 0⟩
def SYS_BOOT_GO : Fld := ⟨31, 31⟩
def SYS_BOOT_CONFIRM : Fld := ⟨16, 16⟩
def SYS_BOOT_CFG_COPY : Fld := ⟨14, 14⟩
def SYS_BOOT_SECVER : Fld := ⟨13, 8⟩
def SYS_BOOT_CFG_ERR : Fld := ⟨7, 7⟩
def SYS_BOOT_STRAP_ERR : Fld := ⟨6, 6⟩
def SYS_BOOT_IMG_ERR : Fld := ⟨5, 5⟩
def SYS_BOOT_TRIAL : Fld := ⟨4, 4⟩
def SYS_BOOT_SLOT_RUN : Fld := ⟨3, 2⟩
def SYS_BOOT_PREF : Fld := ⟨0, 0⟩
def SYS_LC_WIPING : Fld := ⟨8, 8⟩
def SYS_LC_ROLLBACK : Fld := ⟨5, 0⟩
def SYS_LC_STATE : Fld := ⟨17, 16⟩
def SYS_BOOT_HADDR_LO_ADDR : Fld := ⟨31, 0⟩
def SYS_BOOT_HADDR_HI_ADDR : Fld := ⟨31, 0⟩
def SYS_DIE_TEMP_MAX : Fld := ⟨31, 16⟩
def SYS_DIE_TEMP_TEMP : Fld := ⟨15, 0⟩
def SYS_TEMP_LIM_HYST : Fld := ⟨23, 16⟩
def SYS_TEMP_LIM_WARN : Fld := ⟨15, 0⟩
def SYS_IOBANK_V33 : Fld := ⟨5, 0⟩
def SYS_AVS_VID : Fld := ⟨4, 0⟩
def SYS_SADC_CODE_CODE : Fld := ⟨11, 0⟩
end F

/-- The registers of the SYS window. -/
def regsSYS : List RegSpec := [
  ⟨0x40000000, 4, 1, 4, 1, .ro, 0x00000000, 0x00000000, 0x840000B0, false, false⟩,
  ⟨0x40000004, 4, 1, 4, 1, .once, 0x00000FFF, 0x00000000, 0x00000000, false, false⟩,
  ⟨0x40000010, 4, 1, 4, 1, .ro, 0x00000000, 0x00000000, 0x00000000, false, false⟩,
  ⟨0x40000014, 4, 1, 4, 1, .rw, 0x00000003, 0x00000000, 0x00000001, false, false⟩,
  ⟨0x40000018, 4, 1, 4, 1, .rw, 0x000000F1, 0x00000000, 0x00000000, false, false⟩,
  ⟨0x40000020, 4, 1, 4, 1, .lock, 0x00000001, 0x00000000, 0x00000000, false, false⟩,
  ⟨0x40000024, 4, 1, 4, 1, .rw, 0x0000000F, 0x00000000, 0x00000000, false, false⟩,
  ⟨0x40000100, 4, 1, 4, 1, .ro, 0x00000000, 0x00000000, 0x00000000, false, false⟩,
  ⟨0x40000104, 4, 1, 4, 1, .ro, 0x00000000, 0x00000000, 0x00000000, false, false⟩,
  ⟨0x40000108, 4, 1, 4, 1, .rw, 0xFFFFFFFF, 0x00000000, 0x00000000, false, true⟩,
  ⟨0x4000010C, 4, 1, 4, 1, .w1c, 0x00000000, 0x00000003, 0x00000000, false, false⟩,
  ⟨0x40000110, 4, 1, 4, 1, .rw, 0x00000000, 0x00000000, 0x00000002, false, false⟩,
  ⟨0x40000114, 4, 1, 4, 1, .lock, 0x00000001, 0x00000000, 0x00000000, true, false⟩,
  ⟨0x40000200, 4, 1, 4, 1, .ro, 0x00000000, 0x00000000, 0x00000000, false, false⟩,
  ⟨0x40000204, 4, 1, 4, 1, .rw, 0xFFFFFFFF, 0x00000000, 0x00000000, false, true⟩,
  ⟨0x40000208, 4, 1, 4, 1, .rw, 0xFFFFFFFF, 0x00000000, 0x00000000, false, true⟩,
  ⟨0x4000020C, 4, 1, 4, 1, .ro, 0x00000000, 0x00000000, 0x00000000, false, false⟩,
  ⟨0x40000210, 4, 1, 4, 1, .ro, 0x00000000, 0x00000000, 0x00000000, false, false⟩,
  ⟨0x40000214, 4, 1, 4, 1, .ro, 0x00000000, 0x00000000, 0x00000000, false, false⟩,
  ⟨0x40000218, 4, 1, 4, 1, .ro, 0x00000000, 0x00000000, 0x00000000, false, false⟩,
  ⟨0x4000021C, 4, 1, 4, 1, .w1c, 0x00000000, 0x0000000F, 0x00000000, false, false⟩,
  ⟨0x40000300, 4, 1, 4, 1, .ro, 0x00000000, 0x00000000, 0x00000000, false, false⟩,
  ⟨0x40000304, 4, 1, 4, 1, .rw, 0xFFFFFFFF, 0x00000000, 0x00000000, false, true⟩,
  ⟨0x40000308, 4, 1, 4, 1, .ro, 0x00000000, 0x00000000, 0x00000000, false, false⟩,
  ⟨0x4000030C, 4, 1, 4, 1, .rw, 0x00010000, 0x00000000, 0x00000000, false, false⟩,
  ⟨0x40000310, 4, 1, 4, 1, .ro, 0x00000000, 0x00000000, 0x00000000, false, false⟩,
  ⟨0x40000314, 4, 1, 4, 1, .rw, 0xFFFFFFFF, 0x00000000, 0x00000000, true, false⟩,
  ⟨0x40000318, 4, 1, 4, 1, .rw, 0xFFFFFFFF, 0x00000000, 0x00000000, true, false⟩,
  ⟨0x40000400, 4, 1, 4, 1, .ro, 0x00000000, 0x00000000, 0x00000000, false, false⟩,
  ⟨0x40000404, 4, 1, 4, 1, .rw, 0x00FFFFFF, 0x00000000, 0x00500690, false, false⟩,
  ⟨0x40000408, 4, 1, 4, 1, .ro, 0x00000000, 0x00000000, 0x00000000, false, false⟩,
  ⟨0x4000040C, 4, 1, 4, 1, .ro, 0x00000000, 0x00000000, 0x0000001E, false, false⟩,
  ⟨0x40000440, 4, 24, 4, 1, .ro, 0x00000000, 0x00000000, 0x00000000, false, false⟩]

/-- The registers of the SEAM window. -/
def regsSEAM : List RegSpec := [
  ⟨0x40280000, 4, 1, 4, 1, .rw, 0x00FF00FF, 0x00000000, 0x0010007B, false, false⟩,
  ⟨0x40280004, 4, 1, 4, 1, .ro, 0x00000000, 0x00000000, 0x00000000, false, false⟩,
  ⟨0x40280008, 4, 1, 4, 1, .ro, 0x00000000, 0x00000000, 0x00000000, false, false⟩,
  ⟨0x4028000C, 4, 1, 4, 1, .ro, 0x00000000, 0x00000000, 0x00000000, false, false⟩,
  ⟨0x40280010, 4, 1, 4, 1, .rw, 0x00000070, 0x00000000, 0x00000000, false, false⟩,
  ⟨0x40280014, 4, 1, 4, 1, .ro, 0x00000000, 0x00000000, 0x00000000, false, false⟩,
  ⟨0x40280018, 4, 1, 4, 1, .w1c, 0x00000000, 0x0000001F, 0x00000000, false, false⟩,
  ⟨0x4028001C, 4, 1, 4, 1, .rw, 0xFFFFFFFF, 0x00000000, 0x00000000, false, true⟩,
  ⟨0x40280020, 4, 1, 4, 1, .rw, 0xFFFFFFFF, 0x00000000, 0x00000000, false, true⟩,
  ⟨0x40280024, 4, 1, 4, 1, .rw, 0xFFFFFFFF, 0x00000000, 0x00000000, false, true⟩,
  ⟨0x40280028, 4, 1, 4, 1, .ro, 0x00000000, 0x00000000, 0xFFFFFFFF, false, false⟩,
  ⟨0x4028002C, 4, 1, 4, 1, .ro, 0x00000000, 0x00000000, 0xFFFFFFFF, false, false⟩,
  ⟨0x40200000, 4, 1, 4, 1, .rw, 0x00000001, 0x00000000, 0x00000000, false, false⟩,
  ⟨0x40200004, 4, 1, 4, 1, .ro, 0x00000000, 0x00000000, 0x00000000, false, false⟩,
  ⟨0x40200008, 4, 1, 4, 1, .w1c, 0x00000000, 0x0000007F, 0x00000000, false, false⟩,
  ⟨0x4020000C, 4, 1, 4, 1, .ro, 0x00000000, 0x00000000, 0x00000000, false, false⟩,
  ⟨0x40200010, 4, 1, 4, 1, .ro, 0x00000000, 0x00000000, 0x00000000, false, false⟩,
  ⟨0x40200014, 4, 1, 4, 1, .ro, 0x00000000, 0x00000000, 0xFFFFFFFF, false, false⟩,
  ⟨0x40200018, 4, 1, 4, 1, .ro, 0x00000000, 0x00000000, 0xFFFFFFFF, false, false⟩,
  ⟨0x4020001C, 4, 1, 4, 1, .ro, 0x00000000, 0x00000000, 0xFFFFFFFF, false, false⟩,
  ⟨0x40200020, 4, 1, 4, 1, .ro, 0x00000000, 0x00000000, 0xFFFFFFFF, false, false⟩,
  ⟨0x40200024, 4, 1, 4, 1, .ro, 0x00000000, 0x00000000, 0x00000000, false, false⟩,
  ⟨0x40200028, 4, 1, 4, 1, .ro, 0x00000000, 0x00000000, 0x00000000, false, false⟩,
  ⟨0x4020002C, 4, 1, 4, 1, .rw, 0xFFFFFFFF, 0x00000000, 0x00000000, false, true⟩,
  ⟨0x40200030, 4, 1, 4, 1, .rw, 0xFFFFFFFF, 0x00000000, 0x00000000, false, true⟩,
  ⟨0x40200034, 4, 1, 4, 1, .rw, 0xFFFFFFFF, 0x00000000, 0x00000000, false, true⟩,
  ⟨0x40200038, 4, 1, 4, 1, .wo, 0x00000000, 0x00000000, 0x00000000, true, false⟩]

/-- The registers of the QUILT window. -/
def regsQUILT : List RegSpec := [
  ⟨0x40100000, 4, 1, 4, 1, .rw, 0x0001FFFF, 0x00000000, 0x000001E0, false, false⟩,
  ⟨0x40100004, 4, 1, 4, 1, .ro, 0x00000000, 0x00000000, 0x00000000, false, false⟩,
  ⟨0x40100008, 4, 1, 4, 1, .w1c, 0x00000000, 0x000003FF, 0x00000000, false, false⟩,
  ⟨0x4010000C, 4, 1, 4, 1, .ro, 0x00000000, 0x00000000, 0x00000000, false, false⟩,
  ⟨0x40100010, 4, 1, 4, 1, .ro, 0x00000000, 0x00000000, 0xFFFFFFFF, false, false⟩,
  ⟨0x40100014, 4, 1, 4, 1, .ro, 0x00000000, 0x00000000, 0xFFFFFFFF, false, false⟩,
  ⟨0x40100018, 4, 1, 4, 1, .rw, 0xFFFFFFFF, 0x00000000, 0x00000000, false, true⟩,
  ⟨0x4010001C, 4, 1, 4, 1, .rw, 0xFFFFFFFF, 0x00000000, 0x00000000, false, true⟩,
  ⟨0x40100020, 4, 1, 4, 1, .ro, 0x00000000, 0x00000000, 0x00000000, false, false⟩,
  ⟨0x40100024, 4, 1, 4, 1, .rw, 0x00000FFF, 0x00000000, 0x00000078, false, false⟩,
  ⟨0x40100028, 4, 1, 4, 1, .wo, 0x00000000, 0x00000000, 0x00000000, false, false⟩,
  ⟨0x40100100, 16, 16, 4, 1, .ro, 0x00000000, 0x00000000, 0x00000000, false, false⟩,
  ⟨0x40100104, 16, 16, 4, 1, .ro, 0x00000000, 0x00000000, 0x00000000, false, false⟩,
  ⟨0x40100108, 16, 16, 4, 1, .ro, 0x00000000, 0x00000000, 0x00000000, false, false⟩,
  ⟨0x4010010C, 16, 16, 4, 1, .rw, 0xFFFFFFFF, 0x00000000, 0x00000000, false, true⟩,
  ⟨0x40110000, 4, 8192, 4, 1, .rw, 0x3FFFFF80, 0x00000000, 0x0781F400, false, false⟩,
  ⟨0x40120000, 8, 4096, 4, 1, .rw, 0xFFFFFFFF, 0x00000000, 0x00000000, false, true⟩,
  ⟨0x40120004, 8, 4096, 4, 1, .rw, 0xFFFFFFFF, 0x00000000, 0x00000000, false, true⟩,
  ⟨0x40130000, 8, 1024, 4, 1, .rc, 0x00000000, 0x00000000, 0x00000000, false, false⟩,
  ⟨0x40130004, 8, 1024, 4, 1, .ro, 0x00000000, 0x00000000, 0x00008000, false, false⟩,
  ⟨0x40140000, 32, 4096, 4, 8, .ro, 0x00000000, 0x00000000, 0x00000000, false, false⟩,
  ⟨0x40160000, 32, 4096, 4, 8, .rw, 0xFFFFFFFF, 0x00000000, 0x00000000, false, false⟩,
  ⟨0x40180000, 4, 8192, 4, 1, .ro, 0x00000000, 0x00000000, 0x00000000, false, false⟩,
  ⟨0x40188000, 4, 8192, 4, 1, .rw, 0xFFFFFFFF, 0x00000000, 0x00000000, false, false⟩,
  ⟨0x40190000, 16, 4096, 4, 1, .stg, 0xFFFFFFFF, 0x00000000, 0x00000000, false, false⟩,
  ⟨0x40190004, 16, 4096, 4, 1, .stg, 0x0003FFFF, 0x00000000, 0x00000000, false, false⟩,
  ⟨0x40190008, 16, 4096, 4, 1, .rw, 0x0003FFFF, 0x00000000, 0x00000000, false, false⟩,
  ⟨0x4019000C, 16, 4096, 4, 1, .rw, 0x0001FFFF, 0x00000000, 0x000001E0, false, false⟩,
  ⟨0x401A0000, 16, 128, 4, 1, .rw, 0x8001FFFF, 0x00000000, 0x00000000, false, false⟩,
  ⟨0x401A0004, 16, 128, 4, 1, .rw, 0xFFFFFFFF, 0x00000000, 0x02AAAAAB, false, false⟩,
  ⟨0x401A0008, 16, 128, 4, 1, .rw, 0x00000FFF, 0x00000000, 0x00000140, false, false⟩,
  ⟨0x401A000C, 16, 128, 4, 1, .rw, 0xFFFFFFFF, 0x00000000, 0x00000000, false, false⟩]

/-- The registers of the NEEDLE window. -/
def regsNEEDLE : List RegSpec := [
  ⟨0x40300000, 4, 1, 4, 1, .ro, 0x00000000, 0x00000000, 0x00000000, false, false⟩,
  ⟨0x40300004, 4, 1, 4, 1, .ro, 0x00000000, 0x00000000, 0x00000000, false, false⟩,
  ⟨0x40300008, 4, 1, 4, 1, .w1c, 0x00000000, 0xFFFFFFFF, 0x00000000, false, false⟩,
  ⟨0x4030000C, 4, 1, 4, 1, .w1c, 0x00000000, 0xFFFFFFFF, 0x00000000, false, false⟩,
  ⟨0x40300010, 4, 1, 4, 1, .w1c, 0x00000000, 0xFFFFFFFF, 0x00000000, false, false⟩,
  ⟨0x40300014, 4, 1, 4, 1, .w1c, 0x00000000, 0xFFFFFFFF, 0x00000000, false, false⟩,
  ⟨0x40300018, 4, 1, 4, 1, .w1c, 0x00000000, 0x0000003F, 0x00000000, false, false⟩,
  ⟨0x4030001C, 4, 1, 4, 1, .ro, 0x00000000, 0x00000000, 0x00014585, false, false⟩,
  ⟨0x40310000, 64, 64, 4, 1, .wo, 0x00000000, 0x00000000, 0x00000000, true, false⟩,
  ⟨0x40310004, 64, 64, 4, 1, .ro, 0x00000000, 0x00000000, 0x00000000, false, false⟩,
  ⟨0x40310008, 64, 64, 4, 1, .w1s, 0xFFFFFFFF, 0x00000000, 0x00000000, false, false⟩,
  ⟨0x4031000C, 64, 64, 4, 1, .rc, 0x00000000, 0x00000000, 0x00000000, false, false⟩,
  ⟨0x40310010, 64, 64, 4, 1, .rw, 0xFFFFFFFF, 0x00000000, 0x00000000, false, true⟩,
  ⟨0x40310014, 64, 64, 4, 1, .rw, 0xFFFFFFFF, 0x00000000, 0x00000000, false, true⟩,
  ⟨0x40310018, 64, 64, 4, 1, .rw, 0x0001FFFF, 0x00000000, 0x00000000, false, false⟩,
  ⟨0x4031001C, 64, 64, 4, 1, .ro, 0x00000000, 0x00000000, 0x00000000, false, false⟩,
  ⟨0x40310020, 64, 64, 4, 1, .rw, 0xE000FFFF, 0x00000000, 0x00000000, false, false⟩,
  ⟨0x40310024, 64, 64, 4, 1, .rw, 0xFFFFFFFF, 0x00000000, 0x00000000, true, false⟩,
  ⟨0x40310028, 64, 64, 4, 1, .ro, 0x00000000, 0x00000000, 0x00000000, false, false⟩,
  ⟨0x4031002C, 64, 64, 4, 1, .rw, 0x0001FFFF, 0x00000000, 0x00000000, false, false⟩]

/-- The registers of the BELL window. -/
def regsBELL : List RegSpec := [
  ⟨0x40400000, 4, 1, 4, 1, .rw, 0x80FFE01F, 0x00000000, 0x000A200C, false, false⟩,
  ⟨0x40400004, 4, 1, 4, 1, .rw, 0x0FFF000F, 0x00000000, 0x012C0000, false, false⟩,
  ⟨0x40400008, 4, 1, 4, 1, .rw, 0xFFFF3FFF, 0x00000000, 0x03E803E8, false, false⟩,
  ⟨0x4040000C, 4, 1, 4, 1, .rw, 0xFFFF03FF, 0x00000000, 0x00000100, false, false⟩,
  ⟨0x40400010, 4, 1, 4, 1, .rw, 0xFFFFFFFF, 0x00000000, 0x00000000, false, false⟩,
  ⟨0x40400014, 4, 1, 4, 1, .rw, 0x000FFFFF, 0x00000000, 0x000003E8, false, false⟩,
  ⟨0x40400018, 4, 1, 4, 1, .rw, 0x000FFFFF, 0x00000000, 0x000003E8, false, false⟩,
  ⟨0x40400020, 4, 1, 4, 1, .ro, 0x00000000, 0x00000000, 0x00000000, false, false⟩,
  ⟨0x40400024, 4, 1, 4, 1, .ro, 0x00000000, 0x00000000, 0x00000000, false, false⟩,
  ⟨0x40400028, 4, 1, 4, 1, .ro, 0x00000000, 0x00000000, 0x00000000, false, false⟩,
  ⟨0x4040002C, 4, 1, 4, 1, .w1c, 0x00000000, 0x0001FFFF, 0x00000000, false, false⟩,
  ⟨0x40400030, 4, 1, 4, 1, .ro, 0x00000000, 0x00000000, 0x00000000, false, false⟩,
  ⟨0x40400034, 4, 1, 4, 1, .ro, 0x00000000, 0x00000000, 0x00000000, false, false⟩,
  ⟨0x40400038, 4, 1, 4, 1, .rw, 0xFFFFFFFF, 0x00000000, 0x00000000, false, false⟩,
  ⟨0x4040003C, 4, 1, 4, 1, .ro, 0x00000000, 0x00000000, 0x00000000, false, false⟩,
  ⟨0x40400040, 4, 1, 4, 1, .ro, 0x00000000, 0x00000000, 0x00000000, false, false⟩,
  ⟨0x40400044, 4, 1, 4, 1, .rw, 0xFFFFFFFF, 0x00000000, 0x00000000, false, true⟩,
  ⟨0x40400048, 4, 1, 4, 1, .rw, 0xFFFFFFFF, 0x00000000, 0x00000000, false, true⟩,
  ⟨0x4040004C, 4, 1, 4, 1, .rw, 0x000001F3, 0x00000000, 0x00000000, true, false⟩,
  ⟨0x40400050, 4, 1, 4, 1, .rw, 0xFFFF3F03, 0x00000000, 0x00000000, true, false⟩,
  ⟨0x40400054, 4, 1, 4, 1, .wo, 0x00000000, 0x00000000, 0x00000000, true, false⟩,
  ⟨0x40400058, 4, 1, 4, 1, .wo, 0x00000000, 0x00000000, 0x00000000, false, false⟩,
  ⟨0x40400060, 4, 6, 4, 1, .stg, 0x0001FFFF, 0x00000000, 0x00000000, true, false⟩,
  ⟨0x40410000, 32, 16, 4, 1, .rw, 0xCF3FFFFF, 0x00000000, 0x0F00400A, false, false⟩,
  ⟨0x40410004, 32, 16, 4, 1, .rw, 0x01FFFFFF, 0x00000000, 0x00000000, false, false⟩,
  ⟨0x40410008, 32, 16, 4, 1, .stg, 0x000FFFFF, 0x00000000, 0x00002710, false, false⟩,
  ⟨0x4041000C, 32, 16, 4, 1, .stg, 0x000FFFFF, 0x00000000, 0x00004E20, false, false⟩,
  ⟨0x40410010, 32, 16, 4, 1, .ro, 0x00000000, 0x00000000, 0x00000000, false, false⟩,
  ⟨0x40410014, 32, 16, 4, 1, .ro, 0x00000000, 0x00000000, 0x00000000, false, false⟩]

/-- The registers of the PTP window. -/
def regsPTP : List RegSpec := [
  ⟨0x40500000, 4, 1, 4, 1, .ro, 0x00000000, 0x00000000, 0x00000000, false, false⟩,
  ⟨0x40500004, 4, 1, 4, 1, .w1c, 0x00000000, 0x00000F3F, 0x00000000, false, false⟩,
  ⟨0x40500040, 4, 8, 4, 1, .rw, 0x000087FF, 0x00000000, 0x00000000, false, false⟩,
  ⟨0x40510000, 64, 8, 4, 1, .stg, 0xFFFFFFFF, 0x00000000, 0x00000000, true, false⟩,
  ⟨0x40510004, 64, 8, 4, 1, .stg, 0x000000FF, 0x00000000, 0x00000000, true, false⟩,
  ⟨0x40510008, 64, 8, 4, 1, .rw, 0xFFFFFFFF, 0x00000000, 0x00000000, true, false⟩,
  ⟨0x4051000C, 64, 8, 4, 1, .rw, 0xFFFFFFFF, 0x00000000, 0x00000000, true, false⟩,
  ⟨0x40510010, 64, 8, 4, 1, .wo, 0x00000000, 0x00000000, 0x00000000, true, false⟩,
  ⟨0x40510014, 64, 8, 4, 1, .ro, 0x00000000, 0x00000000, 0x00000000, false, false⟩,
  ⟨0x40510018, 64, 8, 4, 1, .ro, 0x00000000, 0x00000000, 0x00000000, false, false⟩,
  ⟨0x4051001C, 64, 8, 4, 1, .ro, 0x00000000, 0x00000000, 0x00000000, false, false⟩,
  ⟨0x40510020, 64, 8, 4, 1, .ro, 0x00000000, 0x00000000, 0x00000000, false, false⟩,
  ⟨0x40510024, 64, 8, 4, 1, .ro, 0x00000000, 0x00000000, 0x00000000, false, false⟩,
  ⟨0x40510028, 64, 8, 4, 1, .ro, 0x00000000, 0x00000000, 0x00000000, false, false⟩,
  ⟨0x4051002C, 64, 8, 4, 1, .ro, 0x00000000, 0x00000000, 0x00000000, false, false⟩,
  ⟨0x40510030, 64, 8, 4, 1, .ro, 0x00000000, 0x00000000, 0x00000000, false, false⟩,
  ⟨0x40510034, 64, 8, 4, 1, .rw, 0xFFFFFFFF, 0x00000000, 0x00000000, false, true⟩,
  ⟨0x40520000, 64, 4, 4, 1, .rw, 0x00000007, 0x00000000, 0x00000000, false, false⟩,
  ⟨0x40520004, 64, 4, 4, 1, .rw, 0x0000FFFF, 0x00000000, 0x00000000, false, false⟩,
  ⟨0x40520008, 64, 4, 4, 1, .rw, 0x0000FFFF, 0x00000000, 0x00000000, false, false⟩,
  ⟨0x4052000C, 64, 4, 4, 1, .ro, 0x00000000, 0x00000000, 0x00000000, false, false⟩,
  ⟨0x40520010, 64, 4, 4, 1, .rc, 0x00000000, 0x00000000, 0x00000000, false, false⟩,
  ⟨0x40520014, 64, 4, 4, 1, .ro, 0x00000000, 0x00000000, 0x00000000, false, false⟩,
  ⟨0x40520018, 64, 4, 4, 1, .ro, 0x00000000, 0x00000000, 0x00000000, false, false⟩,
  ⟨0x4052001C, 64, 4, 4, 1, .ro, 0x00000000, 0x00000000, 0x00000000, false, false⟩,
  ⟨0x40520020, 64, 4, 4, 1, .rw, 0xFFFFFFFF, 0x00000000, 0x00000000, false, true⟩]

/-- The registers of the NET window. -/
def regsNET : List RegSpec := [
  ⟨0x40600000, 4, 1, 4, 1, .ro, 0x00000000, 0x00000000, 0x00000000, false, false⟩,
  ⟨0x40600004, 4, 1, 4, 1, .w1c, 0x00000000, 0x00001FFF, 0x00000000, false, false⟩,
  ⟨0x40600008, 4, 1, 4, 1, .rw, 0x000000FF, 0x00000000, 0x00000002, false, false⟩,
  ⟨0x4060000C, 4, 1, 4, 1, .wo, 0x00000000, 0x00000000, 0x00000000, false, false⟩,
  ⟨0x40600010, 4, 1, 4, 1, .ro, 0x00000000, 0x00000000, 0x00000000, false, false⟩,
  ⟨0x40600100, 64, 4, 4, 1, .rw, 0x0000001F, 0x00000000, 0x00000000, true, false⟩,
  ⟨0x40600104, 64, 4, 4, 1, .rw, 0xFFFFFFFF, 0x00000000, 0x00000000, true, false⟩,
  ⟨0x40600108, 64, 4, 4, 1, .rw, 0x0000FFFF, 0x00000000, 0x00000000, true, false⟩,
  ⟨0x4060010C, 64, 4, 4, 1, .rw, 0xFFFFFFFF, 0x00000000, 0x00000000, true, false⟩,
  ⟨0x40600110, 64, 4, 4, 1, .ro, 0x00000000, 0x00000000, 0x00000000, false, false⟩,
  ⟨0x40600114, 64, 4, 4, 1, .ro, 0x00000000, 0x00000000, 0x00000000, false, false⟩,
  ⟨0x40600118, 64, 4, 4, 1, .rw, 0xFFFFFFFF, 0x00000000, 0x00000000, false, true⟩,
  ⟨0x4060011C, 64, 4, 4, 1, .rw, 0xFFFFFFFF, 0x00000000, 0x00000000, false, true⟩,
  ⟨0x40600120, 64, 4, 4, 1, .rw, 0xFFFFFFFF, 0x00000000, 0x00000000, false, true⟩,
  ⟨0x40610000, 64, 1024, 4, 1, .stg, 0x01FFFFFF, 0x00000000, 0x00000000, false, false⟩,
  ⟨0x40610004, 64, 1024, 4, 1, .stg, 0x0F7F0FFF, 0x00000000, 0x007F0000, false, false⟩,
  ⟨0x40610008, 64, 1024, 4, 1, .stg, 0xFFFFFFFF, 0x00000000, 0x00000000, false, false⟩,
  ⟨0x4061000C, 64, 1024, 4, 1, .stg, 0xFFFFFFFF, 0x00000000, 0x00000000, false, false⟩,
  ⟨0x40610010, 64, 1024, 4, 1, .stg, 0xFFFFFFFF, 0x00000000, 0x00000000, false, false⟩,
  ⟨0x40610014, 64, 1024, 4, 1, .stg, 0xFFFFFFFF, 0x00000000, 0x00000000, false, false⟩,
  ⟨0x40610018, 64, 1024, 4, 1, .stg, 0xFFFFFFFF, 0x00000000, 0x00000000, false, false⟩,
  ⟨0x4061001C, 64, 1024, 4, 1, .stg, 0xFFFFFFFF, 0x00000000, 0x00000000, false, false⟩,
  ⟨0x40610020, 64, 1024, 4, 1, .stg, 0x000007FF, 0x00000000, 0x00000000, false, false⟩,
  ⟨0x40610024, 64, 1024, 4, 1, .ro, 0x00000000, 0x00000000, 0x00000000, false, false⟩,
  ⟨0x40610028, 64, 1024, 4, 1, .ro, 0x00000000, 0x00000000, 0x00000000, false, false⟩,
  ⟨0x4061002C, 64, 1024, 4, 1, .ro, 0x00000000, 0x00000000, 0x00000000, false, false⟩,
  ⟨0x40610030, 64, 1024, 4, 1, .rw, 0xFFFFFFFF, 0x00000000, 0x00000000, false, true⟩,
  ⟨0x40610034, 64, 1024, 4, 1, .rw, 0xFFFFFFFF, 0x00000000, 0x00000000, false, true⟩,
  ⟨0x40610038, 64, 1024, 4, 1, .rw, 0xFFFFFFFF, 0x00000000, 0x00000000, false, true⟩,
  ⟨0x4061003C, 64, 1024, 4, 1, .rw, 0xFFFFFFFF, 0x00000000, 0x00000000, false, true⟩,
  ⟨0x40620000, 64, 1024, 4, 1, .stg, 0x3FFFFFFF, 0x00000000, 0x00000000, false, false⟩,
  ⟨0x40620004, 64, 1024, 4, 1, .stg, 0x0F7F0FFF, 0x00000000, 0x007F0000, false, false⟩,
  ⟨0x40620008, 64, 1024, 4, 1, .stg, 0xFFFFFFFF, 0x00000000, 0x00000000, false, false⟩,
  ⟨0x4062000C, 64, 1024, 4, 1, .stg, 0xFFFFFFFF, 0x00000000, 0x00000000, false, false⟩,
  ⟨0x40620010, 64, 1024, 4, 1, .stg, 0xFFFFFFFF, 0x00000000, 0x00000000, false, false⟩,
  ⟨0x40620014, 64, 1024, 4, 1, .stg, 0xFFFFFFFF, 0x00000000, 0x00000000, false, false⟩,
  ⟨0x40620018, 64, 1024, 4, 1, .stg, 0xFFFFFFFF, 0x00000000, 0x00000000, false, false⟩,
  ⟨0x4062001C, 64, 1024, 4, 1, .stg, 0x00FFFFFF, 0x00000000, 0x00000040, false, false⟩,
  ⟨0x40620020, 64, 1024, 4, 1, .ro, 0x00000000, 0x00000000, 0x00000000, false, false⟩,
  ⟨0x40620024, 64, 1024, 4, 1, .ro, 0x00000000, 0x00000000, 0x00000000, false, false⟩,
  ⟨0x40620028, 64, 1024, 4, 1, .ro, 0x00000000, 0x00000000, 0x00000000, false, false⟩,
  ⟨0x4062002C, 64, 1024, 4, 1, .ro, 0x00000000, 0x00000000, 0x00000000, false, false⟩,
  ⟨0x40620030, 64, 1024, 4, 1, .rw, 0xFFFFFFFF, 0x00000000, 0x00000000, false, true⟩,
  ⟨0x40620034, 64, 1024, 4, 1, .rw, 0xFFFFFFFF, 0x00000000, 0x00000000, false, true⟩,
  ⟨0x40620038, 64, 1024, 4, 1, .rw, 0xFFFFFFFF, 0x00000000, 0x00000000, false, true⟩,
  ⟨0x40630000, 16, 64, 4, 1, .ro, 0x00000000, 0x00000000, 0x00000000, false, false⟩,
  ⟨0x40630004, 16, 64, 4, 1, .ro, 0x00000000, 0x00000000, 0xFFFFFFFF, false, false⟩,
  ⟨0x40630008, 16, 64, 4, 1, .ro, 0x00000000, 0x00000000, 0xFFFFFFFF, false, false⟩]

/-- The registers of the PORT window. -/
def regsPORT : List RegSpec := [
  ⟨0x40700000, 4, 1, 4, 1, .ro, 0x00000000, 0x00000000, 0x00000000, false, false⟩,
  ⟨0x40700004, 4, 1, 4, 1, .w1c, 0x00000000, 0x00001FFF, 0x00000000, false, false⟩,
  ⟨0x40700008, 4, 1, 4, 1, .wo, 0x00000000, 0x00000000, 0x00000000, false, false⟩,
  ⟨0x4070000C, 4, 1, 4, 1, .ro, 0x00000000, 0x00000000, 0x00000000, false, false⟩,
  ⟨0x40700010, 4, 1, 4, 1, .ro, 0x00000000, 0x00000000, 0x00000000, false, false⟩,
  ⟨0x40710000, 256, 32, 4, 1, .stg, 0x807F01F5, 0x00000000, 0x007F00C0, true, false⟩,
  ⟨0x40710004, 256, 32, 4, 1, .ro, 0x00000000, 0x00000000, 0x00000000, false, false⟩,
  ⟨0x40710008, 256, 32, 4, 1, .ro, 0x00000000, 0x00000000, 0x00000000, false, false⟩,
  ⟨0x4071000C, 256, 32, 4, 1, .rw, 0xFFFFFFFF, 0x00000000, 0x00000000, false, true⟩,
  ⟨0x40710010, 256, 32, 4, 1, .rw, 0xFFFFFFFF, 0x00000000, 0x00000000, false, true⟩,
  ⟨0x40710014, 256, 32, 4, 1, .rw, 0xFFFFFFFF, 0x00000000, 0x00000000, false, true⟩,
  ⟨0x40710018, 256, 32, 4, 1, .rw, 0xFFFFFFFF, 0x00000000, 0x00000000, false, true⟩,
  ⟨0x4071001C, 256, 32, 4, 1, .rw, 0xFFFFFFFF, 0x00000000, 0x00000000, false, true⟩,
  ⟨0x40710020, 256, 32, 4, 1, .rw, 0xFFFFFFFF, 0x00000000, 0x00000000, false, true⟩,
  ⟨0x40710040, 256, 32, 4, 6, .ro, 0x00000000, 0x00000000, 0x00000000, false, false⟩,
  ⟨0x40710060, 256, 32, 4, 6, .ro, 0x00000000, 0x00000000, 0x00000000, false, false⟩,
  ⟨0x40710080, 256, 32, 4, 6, .ro, 0x00000000, 0x00000000, 0x00000000, false, false⟩,
  ⟨0x407100A0, 256, 32, 4, 6, .ro, 0x00000000, 0x00000000, 0x00000000, false, false⟩,
  ⟨0x40720000, 256, 32, 4, 1, .stg, 0x807F03FF, 0x00000000, 0x007F0000, true, false⟩,
  ⟨0x40720004, 256, 32, 4, 1, .ro, 0x00000000, 0x00000000, 0x00000000, false, false⟩,
  ⟨0x40720008, 256, 32, 4, 1, .rw, 0xFFFFFFFF, 0x00000000, 0x00000000, false, true⟩,
  ⟨0x40720040, 256, 32, 4, 6, .stg, 0xFFFFFFFF, 0x00000000, 0x00000000, false, false⟩,
  ⟨0x40720060, 256, 32, 4, 6, .stg, 0xFFFFFFFF, 0x00000000, 0x00000000, false, false⟩,
  ⟨0x40720080, 256, 32, 4, 6, .stg, 0xFFFFFFFF, 0x00000000, 0x00000000, false, false⟩,
  ⟨0x407200A0, 256, 32, 4, 6, .stg, 0xFFFFFFFF, 0x00000000, 0x00000000, false, false⟩,
  ⟨0x40730000, 512, 16, 4, 1, .stg, 0x807FFFFF, 0x00000000, 0x007F0002, true, false⟩,
  ⟨0x40730004, 512, 16, 4, 1, .stg, 0xFFFFFFFF, 0x00000000, 0x00000000, false, false⟩,
  ⟨0x40730008, 512, 16, 4, 1, .stg, 0xFFFFFFFF, 0x00000000, 0x00000000, false, false⟩,
  ⟨0x4073000C, 512, 16, 4, 1, .ro, 0x00000000, 0x00000000, 0x00000000, false, false⟩,
  ⟨0x40730010, 512, 16, 4, 1, .rw, 0xFFFFFFFF, 0x00000000, 0x00000000, false, true⟩,
  ⟨0x40730014, 512, 16, 4, 1, .rw, 0xFFFFFFFF, 0x00000000, 0x00000000, false, true⟩,
  ⟨0x40730018, 512, 16, 4, 1, .rw, 0xFFFFFFFF, 0x00000000, 0x00000000, false, true⟩,
  ⟨0x40730100, 512, 16, 4, 32, .stg, 0xF0001FFF, 0x00000000, 0x00000000, false, false⟩,
  ⟨0x40730180, 512, 16, 4, 32, .stg, 0xF00001FF, 0x00000000, 0x00000000, false, false⟩]

/-- The registers of the LINE window. -/
def regsLINE : List RegSpec := [
  ⟨0x40800000, 4, 1, 4, 1, .rw, 0x00FF0107, 0x00000000, 0x00E60000, true, false⟩,
  ⟨0x40800004, 4, 1, 4, 1, .ro, 0x00000000, 0x00000000, 0x00000001, false, false⟩,
  ⟨0x40800008, 4, 1, 4, 1, .w1c, 0x00000000, 0x0001FFFF, 0x00000000, false, false⟩,
  ⟨0x4080000C, 4, 1, 4, 1, .wo, 0x00000000, 0x00000000, 0x00000000, true, false⟩,
  ⟨0x40800010, 4, 1, 4, 1, .ro, 0x00000000, 0x00000000, 0x00000000, false, false⟩,
  ⟨0x40800014, 4, 1, 4, 1, .rw, 0x00001F1F, 0x00000000, 0x00001F1F, false, false⟩,
  ⟨0x40800018, 4, 1, 4, 1, .rw, 0xFFFFFFFF, 0x00000000, 0x00000000, false, false⟩,
  ⟨0x4080001C, 4, 1, 4, 1, .rw, 0x0FFF0FFF, 0x00000000, 0x07D00190, false, false⟩,
  ⟨0x40800020, 4, 1, 4, 1, .rw, 0x00000FFF, 0x00000000, 0x00000000, false, false⟩,
  ⟨0x40800024, 4, 1, 4, 1, .ro, 0x00000000, 0x00000000, 0x00000000, false, false⟩,
  ⟨0x40800100, 4, 17, 4, 1, .rw, 0x0000FFFF, 0x00000000, 0x00000000, false, false⟩,
  ⟨0x40810000, 256, 16, 4, 1, .stg, 0x1F1F7FFF, 0x00000000, 0x1F1F11FA, true, false⟩,
  ⟨0x40810004, 256, 16, 4, 1, .stg, 0x01FF01FF, 0x00000000, 0x00C80064, true, false⟩,
  ⟨0x40810008, 256, 16, 4, 1, .stg, 0x00000FFF, 0x00000000, 0x00000280, true, false⟩,
  ⟨0x4081000C, 256, 16, 4, 1, .stg, 0xFFFFFFFF, 0x00000000, 0xFFFF0000, false, false⟩,
  ⟨0x40810010, 256, 16, 4, 1, .stg, 0x000F0FFF, 0x00000000, 0x00020FFF, false, false⟩,
  ⟨0x40810014, 256, 16, 4, 1, .stg, 0xFFFFFFFF, 0x00000000, 0x06400550, false, false⟩,
  ⟨0x40810018, 256, 16, 4, 1, .wo, 0x00000000, 0x00000000, 0x00000000, true, false⟩,
  ⟨0x4081001C, 256, 16, 4, 1, .ro, 0x00000000, 0x00000000, 0x00000000, false, false⟩,
  ⟨0x40810020, 256, 16, 4, 1, .ro, 0x00000000, 0x00000000, 0x00000000, false, false⟩,
  ⟨0x40810024, 256, 16, 4, 1, .ro, 0x00000000, 0x00000000, 0x00000000, false, false⟩,
  ⟨0x40810028, 256, 16, 4, 1, .ro, 0x00000000, 0x00000000, 0x00000000, false, false⟩,
  ⟨0x4081002C, 256, 16, 4, 1, .ro, 0x00000000, 0x00000000, 0x00000000, false, false⟩,
  ⟨0x40810030, 256, 16, 4, 1, .rw, 0xFFFFFFFF, 0x00000000, 0x00000000, false, true⟩,
  ⟨0x40810034, 256, 16, 4, 1, .rw, 0xFFFFFFFF, 0x00000000, 0x00000000, false, true⟩,
  ⟨0x40810038, 256, 16, 4, 1, .rw, 0x0000FFFF, 0x00000000, 0x00000000, false, false⟩,
  ⟨0x4081003C, 256, 16, 4, 1, .rw, 0xFFFFFFFF, 0x00000000, 0x00000000, false, true⟩,
  ⟨0x40810040, 256, 16, 4, 1, .rw, 0xFFFFFFFF, 0x00000000, 0x00000000, false, true⟩]

/-- The registers of the ALARM window. -/
def regsALARM : List RegSpec := [
  ⟨0x40900000, 4, 1, 4, 1, .ro, 0x00000000, 0x00000000, 0x00000000, false, false⟩,
  ⟨0x40900004, 4, 1, 4, 1, .w1c, 0x00000000, 0x000001FF, 0x00000000, false, false⟩,
  ⟨0x40900008, 4, 1, 4, 1, .ro, 0x00000000, 0x00000000, 0x00000000, false, false⟩,
  ⟨0x4090000C, 4, 1, 4, 1, .ro, 0x00000000, 0x00000000, 0x00000000, false, false⟩,
  ⟨0x40900010, 4, 1, 4, 1, .ro, 0x00000000, 0x00000000, 0x00000000, false, false⟩,
  ⟨0x40900014, 4, 1, 4, 1, .ro, 0x00000000, 0x00000000, 0x00000000, false, false⟩,
  ⟨0x40900018, 4, 1, 4, 1, .ro, 0x00000000, 0x00000000, 0xFFFFFFFF, false, false⟩,
  ⟨0x4090001C, 4, 1, 4, 1, .ro, 0x00000000, 0x00000000, 0xFFFFFFFF, false, false⟩,
  ⟨0x40900020, 4, 1, 4, 1, .rw, 0xFFFFFFFF, 0x00000000, 0x00000000, false, true⟩,
  ⟨0x40900024, 4, 1, 4, 1, .once, 0x003FFFFF, 0x00000000, 0x00000000, true, false⟩,
  ⟨0x40900028, 4, 1, 4, 1, .rw, 0xFFFFFFFF, 0x00000000, 0x00000000, false, true⟩,
  ⟨0x4090002C, 4, 1, 4, 1, .rw, 0xFFFFFFFF, 0x00000000, 0x00000000, false, true⟩,
  ⟨0x40900100, 4, 32, 4, 1, .rw, 0xE00FFF0F, 0x00000000, 0x20006000, true, false⟩,
  ⟨0x40901000, 16, 64, 4, 1, .ro, 0x00000000, 0x00000000, 0x00000000, false, false⟩,
  ⟨0x40901004, 16, 64, 4, 1, .ro, 0x00000000, 0x00000000, 0x00000000, false, false⟩,
  ⟨0x40902000, 4, 512, 4, 1, .ro, 0x00000000, 0x00000000, 0x00000000, false, false⟩]

/-- The registers of the TWIN window. -/
def regsTWIN : List RegSpec := [
  ⟨0x40A00000, 4, 1, 4, 1, .rw, 0xFFFFFF0F, 0x00000000, 0x000A0C0A, false, false⟩,
  ⟨0x40A00004, 4, 1, 4, 1, .ro, 0x00000000, 0x00000000, 0x00000000, false, false⟩,
  ⟨0x40A00008, 4, 1, 4, 1, .w1c, 0x00000000, 0x000001FF, 0x00000000, false, false⟩,
  ⟨0x40A0000C, 4, 1, 4, 1, .wo, 0x00000000, 0x00000000, 0x00000000, true, false⟩,
  ⟨0x40A00010, 4, 1, 4, 1, .ro, 0x00000000, 0x00000000, 0x00000000, false, false⟩,
  ⟨0x40A00014, 4, 1, 4, 1, .ro, 0x00000000, 0x00000000, 0x0000FFFF, false, false⟩,
  ⟨0x40A00018, 4, 1, 4, 1, .rw, 0xFFFFFFFF, 0x00000000, 0x00000000, false, true⟩,
  ⟨0x40A0001C, 4, 1, 4, 1, .rw, 0xFFFFFFFF, 0x00000000, 0x00000000, false, true⟩,
  ⟨0x40A00020, 4, 1, 4, 1, .rw, 0xFFFFFFFF, 0x00000000, 0x00000000, false, true⟩,
  ⟨0x40A00024, 4, 1, 4, 1, .rw, 0x0001FFFF, 0x00000000, 0x00000000, false, false⟩,
  ⟨0x40A00028, 4, 1, 4, 1, .ro, 0x00000000, 0x00000000, 0xFFFFFFFF, false, false⟩,
  ⟨0x40A0002C, 4, 1, 4, 1, .ro, 0x00000000, 0x00000000, 0xFFFFFFFF, false, false⟩,
  ⟨0x40A00030, 4, 1, 4, 1, .ro, 0x00000000, 0x00000000, 0x00000000, false, false⟩,
  ⟨0x40A00100, 16, 4, 4, 1, .rw, 0xFFFFFFFF, 0x00000000, 0x00000000, true, false⟩,
  ⟨0x40A00104, 16, 4, 4, 1, .rw, 0x0000FFFF, 0x00000000, 0x00000000, true, false⟩,
  ⟨0x40A00108, 16, 4, 4, 1, .rw, 0xFFFFFFFF, 0x00000000, 0x00000000, true, false⟩]

/-- The registers of the FAULT window. -/
def regsFAULT : List RegSpec := [
  ⟨0x40B00000, 4, 1, 4, 1, .rw, 0x00000003, 0x00000000, 0x00000002, true, false⟩,
  ⟨0x40B00004, 4, 1, 4, 1, .ro, 0x00000000, 0x00000000, 0x00000000, false, false⟩,
  ⟨0x40B00008, 4, 1, 4, 1, .w1c, 0x00000000, 0x00000003, 0x00000000, false, false⟩,
  ⟨0x40B00010, 4, 1, 4, 1, .ro, 0x00000000, 0x00000000, 0x00000000, false, false⟩,
  ⟨0x40B00014, 4, 1, 4, 1, .ro, 0x00000000, 0x00000000, 0x00000000, false, false⟩,
  ⟨0x40B00018, 4, 1, 4, 1, .ro, 0x00000000, 0x00000000, 0xFFFFFFFF, false, false⟩,
  ⟨0x40B0001C, 4, 1, 4, 1, .ro, 0x00000000, 0x00000000, 0xFFFFFFFF, false, false⟩,
  ⟨0x40B00020, 4, 1, 4, 1, .ro, 0x00000000, 0x00000000, 0x00000000, false, false⟩,
  ⟨0x40B00024, 4, 1, 4, 1, .wo, 0x00000000, 0x00000000, 0x00000000, false, false⟩,
  ⟨0x40B00028, 4, 1, 4, 1, .wo, 0x00000000, 0x00000000, 0x00000000, false, false⟩,
  ⟨0x40B00040, 4, 8, 4, 1, .ro, 0x00000000, 0x00000000, 0x00000000, false, false⟩,
  ⟨0x40B00080, 4, 8, 4, 1, .w1c, 0x00000000, 0xFFFFFFFF, 0x00000000, false, false⟩,
  ⟨0x40B000A0, 4, 8, 4, 1, .ro, 0x00000000, 0x00000000, 0x00000000, false, false⟩,
  ⟨0x40B000C0, 4, 8, 4, 1, .ro, 0x00000000, 0x00000000, 0x00000000, false, false⟩,
  ⟨0x40B10000, 32, 256, 4, 1, .rw, 0xFF001F1F, 0x00000000, 0x00000000, true, false⟩,
  ⟨0x40B10004, 32, 256, 4, 1, .rw, 0x003FFFFF, 0x00000000, 0x000003E8, false, false⟩,
  ⟨0x40B10008, 32, 256, 4, 1, .rw, 0x003FFFFF, 0x00000000, 0x0000EA60, false, false⟩,
  ⟨0x40B1000C, 32, 256, 4, 1, .ro, 0x00000000, 0x00000000, 0x00000000, false, false⟩,
  ⟨0x40B10010, 32, 256, 4, 1, .rw, 0xFFFFFFFF, 0x00000000, 0x00000000, false, true⟩]

/-- The registers of the FOLD window. -/
def regsFOLD : List RegSpec := [
  ⟨0x40C00000, 4, 1, 4, 1, .rw, 0x00000001, 0x00000000, 0x00000000, true, false⟩,
  ⟨0x40C00004, 4, 1, 4, 1, .ro, 0x00000000, 0x00000000, 0x00000000, false, false⟩,
  ⟨0x40C00008, 4, 1, 4, 1, .w1c, 0x00000000, 0x0000003F, 0x00000000, false, false⟩,
  ⟨0x40C0000C, 4, 1, 4, 1, .rw, 0x000FFFFF, 0x00000000, 0x0000C0F8, true, false⟩,
  ⟨0x40C00010, 4, 1, 4, 1, .ro, 0x00000000, 0x00000000, 0x00000000, false, false⟩,
  ⟨0x40C10000, 128, 128, 4, 1, .rw, 0xF300FF00, 0x00000000, 0x00001000, true, false⟩,
  ⟨0x40C10004, 128, 128, 4, 1, .rw, 0x0000FFFF, 0x00000000, 0x00000000, false, false⟩,
  ⟨0x40C10008, 128, 128, 4, 1, .rw, 0x00001F1F, 0x00000000, 0x00000606, false, false⟩,
  ⟨0x40C1000C, 128, 128, 4, 1, .rw, 0xFFFFFFC0, 0x00000000, 0x00000000, false, false⟩,
  ⟨0x40C10010, 128, 128, 4, 1, .rw, 0xFFFFFFFF, 0x00000000, 0x00000000, false, false⟩,
  ⟨0x40C10014, 128, 128, 4, 1, .rw, 0xFFFFFFC0, 0x00000000, 0x00000000, false, false⟩,
  ⟨0x40C10018, 128, 128, 4, 1, .rw, 0xFFFFFFFF, 0x00000000, 0x00000000, false, false⟩,
  ⟨0x40C1001C, 128, 128, 4, 1, .wo, 0x00000000, 0x00000000, 0x00000000, false, false⟩,
  ⟨0x40C10020, 128, 128, 4, 1, .ro, 0x00000000, 0x00000000, 0x00000000, false, false⟩,
  ⟨0x40C10024, 128, 128, 4, 1, .ro, 0x00000000, 0x00000000, 0x00000000, false, false⟩,
  ⟨0x40C10028, 128, 128, 4, 1, .rw, 0x0000FFFF, 0x00000000, 0x00000000, false, false⟩,
  ⟨0x40C1002C, 128, 128, 4, 1, .ro, 0x00000000, 0x00000000, 0x00000000, false, false⟩,
  ⟨0x40C10030, 128, 128, 4, 8, .wo, 0x00000000, 0x00000000, 0x00000000, true, false⟩,
  ⟨0x40C10050, 128, 128, 4, 1, .rw, 0xFFFFFFFF, 0x00000000, 0x00000000, false, true⟩,
  ⟨0x40C10054, 128, 128, 4, 1, .rw, 0xFFFFFFFF, 0x00000000, 0x00000000, false, true⟩,
  ⟨0x40C10058, 128, 128, 4, 1, .rw, 0xFFFFFFFF, 0x00000000, 0x00000000, false, true⟩,
  ⟨0x40C1005C, 128, 128, 4, 1, .rw, 0xFFFFFFFF, 0x00000000, 0x00000000, false, true⟩,
  ⟨0x40C10060, 128, 128, 4, 1, .rw, 0xFFFFFFFF, 0x00000000, 0x00000000, false, true⟩,
  ⟨0x40C10064, 128, 128, 4, 1, .ro, 0x00000000, 0x00000000, 0x00000000, false, false⟩,
  ⟨0x40C10068, 128, 128, 4, 1, .ro, 0x00000000, 0x00000000, 0x00000000, false, false⟩]

/-- The registers of the CCU window. -/
def regsCCU : List RegSpec := [
  ⟨0x40E00000, 4, 1, 4, 1, .ro, 0x00000000, 0x00000000, 0x00000000, false, false⟩,
  ⟨0x40E00004, 4, 1, 4, 1, .w1c, 0x00000000, 0x0000000F, 0x00000000, false, false⟩,
  ⟨0x40E00008, 4, 1, 4, 1, .wo, 0x00000000, 0x00000000, 0x00000000, true, false⟩,
  ⟨0x40E00010, 4, 3, 4, 1, .rw, 0xFFFFFFFF, 0x00000000, 0x00000000, true, false⟩,
  ⟨0x40E00020, 4, 3, 4, 1, .ro, 0x00000000, 0x00000000, 0x00000000, false, false⟩,
  ⟨0x40E00030, 4, 3, 4, 1, .ro, 0x00000000, 0x00000000, 0x00000000, false, false⟩,
  ⟨0x40E00040, 8, 3, 4, 1, .ro, 0x00000000, 0x00000000, 0xFFFFFFFF, false, false⟩,
  ⟨0x40E00044, 8, 3, 4, 1, .ro, 0x00000000, 0x00000000, 0xFFFFFFFF, false, false⟩,
  ⟨0x40E00060, 4, 1, 4, 1, .rw, 0xFFFFFFFF, 0x00000000, 0x00000000, false, true⟩,
  ⟨0x40E00064, 4, 1, 4, 1, .rw, 0xFFFFFFFF, 0x00000000, 0x00000000, false, true⟩]

/-- The registers of the DROVER window. -/
def regsDROVER : List RegSpec := [
  ⟨0x40D00000, 4, 1, 4, 1, .ro, 0x00000000, 0x00000000, 0x00000000, false, false⟩,
  ⟨0x40D00004, 4, 1, 4, 1, .w1c, 0x00000000, 0x0000007F, 0x00000000, false, false⟩,
  ⟨0x40D00008, 4, 1, 4, 1, .w1c, 0x00000000, 0x0000FFFF, 0x00000000, false, false⟩,
  ⟨0x40D0000C, 4, 1, 4, 1, .ro, 0x00000000, 0x00000000, 0x00000000, false, false⟩,
  ⟨0x40D00010, 4, 1, 4, 1, .ro, 0x00000000, 0x00000000, 0x00000000, false, false⟩,
  ⟨0x40D00014, 4, 1, 4, 1, .ro, 0x00000000, 0x00000000, 0x00000000, false, false⟩,
  ⟨0x40D00100, 64, 16, 4, 1, .rw, 0x8000FFFF, 0x00000000, 0x00000100, true, false⟩,
  ⟨0x40D00104, 64, 16, 4, 1, .rw, 0xFFFFFFFF, 0x00000000, 0x00000000, false, false⟩,
  ⟨0x40D00108, 64, 16, 4, 1, .rw, 0xFFFFFFFF, 0x00000000, 0x00000000, false, false⟩,
  ⟨0x40D0010C, 64, 16, 4, 1, .wo, 0x00000000, 0x00000000, 0x00000000, false, false⟩,
  ⟨0x40D00110, 64, 16, 4, 1, .ro, 0x00000000, 0x00000000, 0x00000000, false, false⟩,
  ⟨0x40D00114, 64, 16, 4, 1, .ro, 0x00000000, 0x00000000, 0x00000000, false, false⟩,
  ⟨0x40D00118, 64, 16, 4, 1, .ro, 0x00000000, 0x00000000, 0x00000000, false, false⟩,
  ⟨0x40D0011C, 64, 16, 4, 1, .rw, 0xFFFFFFFF, 0x00000000, 0x00000000, false, true⟩,
  ⟨0x40D00120, 64, 16, 4, 1, .rw, 0xFFFFFFFF, 0x00000000, 0x00000000, false, true⟩]

/-- The rows of the window that holds an address of the privileged view (R41). -/
def windowRegs (a : Nat) : List RegSpec :=
  match (a - 0x40000000) / 0x100000 with
  | 0 => regsSYS
  | 1 => regsQUILT
  | 2 => regsSEAM
  | 3 => regsNEEDLE
  | 4 => regsBELL
  | 5 => regsPTP
  | 6 => regsNET
  | 7 => regsPORT
  | 8 => regsLINE
  | 9 => regsALARM
  | 10 => regsTWIN
  | 11 => regsFAULT
  | 12 => regsFOLD
  | 13 => regsDROVER
  | 14 => regsCCU
  | _ => []

/-- Whether a row holds the register at privileged address `a`. -/
def RegSpec.holds (r : RegSpec) (a : Nat) : Bool :=
  r.addr ≤ a &&
    (let o := a - r.addr
     let o2 := o % r.stride
     if r.count2 = 1 then o2 = 0 && o / r.stride < r.count
     else o / r.stride < r.count && o2 % r.stride2 = 0 && o2 / r.stride2 < r.count2)

/-- The row of the register at privileged address `a`, none at an unused offset. -/
def regSpec? (a : Nat) : Option RegSpec :=
  if a < 0x40000000 then none else (windowRegs a).find? (fun r => r.holds a)

end Sys2Proof.Machine
end

