-- ==== Sys2Proof/Machine/Sparse.lean ====
section
/-!
DEFINITION. Sparse maps: a list of (key, value) pairs in one canonical form (keys strictly rising, no entry equal to
what an unlisted key reads as). Registers, memories and per-index records of the engine are held this way; what an
unlisted key reads as is a function of the key, given at each use.
-/

namespace Sys2Proof.Machine

abbrev Sparse (α : Type) := List (Nat × α)

/-- The value at a key; an unlisted key reads as `d k`. -/
def Sparse.get {α : Type} (d : Nat → α) : Sparse α → Nat → α
  | [], k => d k
  | (j, v) :: m, k => if j = k then v else Sparse.get d m k

/-- The map without its entry at `k`. -/
def Sparse.erase {α : Type} : Sparse α → Nat → Sparse α
  | [], _ => []
  | (j, v) :: m, k => if j = k then Sparse.erase m k else (j, v) :: Sparse.erase m k

/-- Puts an entry in its place among rising keys. -/
def Sparse.insert {α : Type} : Sparse α → Nat → α → Sparse α
  | [], k, v => [(k, v)]
  | (j, w) :: m, k, v => if k < j then (k, v) :: (j, w) :: m else (j, w) :: Sparse.insert m k v

/-- The map with the value at `k` replaced; writing what an unlisted key reads as removes the entry. -/
def Sparse.set {α : Type} [DecidableEq α] (d : Nat → α) (m : Sparse α) (k : Nat) (v : α) : Sparse α :=
  if v = d k then Sparse.erase m k else Sparse.insert (Sparse.erase m k) k v

/-- Keys strictly rising from a lower bound. -/
def Sparse.rising {α : Type} : Nat → Sparse α → Bool
  | _, [] => true
  | lo, (j, _) :: m => decide (lo ≤ j) && Sparse.rising (j + 1) m

/-- No entry equals what an unlisted key reads as. -/
def Sparse.lean {α : Type} [DecidableEq α] (d : Nat → α) : Sparse α → Bool
  | [] => true
  | (j, v) :: m => decide (v ≠ d j) && Sparse.lean d m

/-- The canonical form of a sparse map. -/
def Sparse.wf {α : Type} [DecidableEq α] (d : Nat → α) (m : Sparse α) : Bool :=
  Sparse.rising 0 m && Sparse.lean d m

end Sys2Proof.Machine
end

