-- ==== Sys2Proof/Machine/State.lean ====
section
/-!
DEFINITION. The state of the engine as plain data: every register (sparse, by privileged address), the shadows of
the staged registers, and the hidden state of each unit in a structure of its own; the queue of waiting commands;
what the engine has sent out. State.reset is the engine right after a chip reset with no history before it.
-/

namespace Sys2Proof.Machine

/-- Why a step can stop with a fault. No command of the spec stops the engine without an effect, so this type has the
one constructor that names an access to no address at all; no meaning raises it (safe). -/
inductive Fault where
  /-- An address outside every address space. Raised by no meaning; safe. -/
  | badAddress
  deriving DecidableEq, Repr

/-- Why a step can be refused. -/
inductive Refusal where
  /-- A command without a meaning yet, by its mnemonic. Raised by an arm of exec only; safe. -/
  | notModelled (mnemonic : String)
  deriving DecidableEq, Repr

/-! ### Memories (R541, R553, R584, R591) -/

/-- One-time fuses (R591). -/
structure Otp where
  /-- life-cycle state: 0 BLANK, 1 PROVISIONED, 2 FIELD, 3 RETURNED -/
  lc : Nat := 0
  /-- key slots programmed, bit per slot -/
  keys : Nat := 0
  revoked : Nat := 0
  rollback : Nat := 0
  /-- the NVS wipe marker (R593) -/
  wiped : Bool := false
  serial : DWord := 0
  /-- the die's fused VID code (R605) -/
  avs : Nat := 30
  /-- columns repaired, and a memory without a spare column (R546) -/
  repaired : Nat := 0
  spareLow : Bool := false
  deriving DecidableEq, Repr

/-- The boot record of NVS (R584, R585). -/
structure BootRec where
  pref : Nat := 0
  trial : Bool := false
  trialCnt : Nat := 0
  deriving DecidableEq, Repr

structure Mem where
  /-- the 32 MB NVS by byte offset -/
  nvs : Sparse Byte := []
  /-- working SRAM, 1 MB -/
  sram : Sparse Byte := []
  /-- Shepherd SRAM, 4 MB, bank 15 the mailbox -/
  shep : Sparse Byte := []
  /-- DRAM bytes written since the key was made -/
  dram : Sparse Byte := []
  /-- number of the DRAM key (R554) -/
  dramKey : Nat := 0
  /-- fitted DRAM capacity in units of 512 MB of usable capacity (R553): 7, 14 or 28 -/
  dramFit : Nat := 28
  /-- poisoned words (R544): memory code of SYS_ECC_INFO.MEM and word index -/
  poison : List (Nat × Nat) := []
  /-- MSC of the latest uncorrectable DRAM words, newest first (R556) -/
  dramUe : List Nat := []
  otp : Otp := {}
  boot : BootRec := {}
  deriving DecidableEq, Repr

/-! ### Pins, reset and boot (R578 to R587, R600, R604, R611) -/

structure Pins where
  /-- RESET_N held low -/
  resetLow : Bool := false
  xinOk : Bool := true
  tcxoOk : Bool := true
  railsOk : Bool := true
  /-- straps BOOTSEL[2:0] and TWIN_ROLE (1 = role B) -/
  bootsel : Nat := 0
  roleB : Bool := false
  /-- qualified level of DUTY_IN (R429) -/
  dutyIn : Bool := false
  /-- level read at the FAULT_N ball -/
  faultIn : Bool := false
  /-- VDDIO bank classes sampled at POR (R602) -/
  v33 : Nat := 0
  /-- JTAG instruction register (R611), IDCODE at Test-Logic-Reset -/
  jtagIr : Nat := 2
  /-- PCIe endpoint out of reset with its link up -/
  pcieUp : Bool := true
  deriving DecidableEq, Repr

/-- Where the boot sequence of R581 stands. -/
inductive BootStage where
  /-- reset has ended or runs; RESET_END has not been taken -/
  | reset
  /-- no valid image: PCIe boot waits for GO (R586) -/
  | waitPcie
  /-- a role-B engine's extra 96 samples (R444) -/
  | waitRoleB
  /-- BOOT has been left -/
  | done
  deriving DecidableEq, Repr

structure Boot where
  stage : BootStage := .reset
  /-- no firmware image is valid (R587) -/
  noImage : Bool := false
  /-- a FALLBACK condition during BOOT of a role-B engine that waits (R444): its CAUSE and its source -/
  cond : Option (Nat × Nat) := none
  cfgValid : Bool := false
  fbValid : Bool := false
  /-- firmware version of the running image -/
  fwver : Nat := 0
  /-- firmware runs (TRAP is delivered, commands are served) -/
  fwRuns : Bool := false
  /-- a ONCE register that has been written since reset (R519): its address -/
  onceUsed : List Nat := []
  /-- slow-clock edges from a REQ to SYS_FRESH.DONE; 0 when none runs (R527) -/
  freshLeft : Nat := 0
  /-- die temperature WARN has been raised and not re-armed (R614) -/
  warnRaised : Bool := false
  /-- the die sensors have been read since reset (R614) -/
  tempRead : Bool := false
  deriving DecidableEq, Repr

/-! ### Media time and scheduler (R52 to R74) -/

structure Sched where
  /-- the media clock delivers edges (R55) -/
  running : Bool := false
  /-- GO of SCHED_ANCHOR waits for the next media clock edge -/
  anchorReq : Bool := false
  events : List Event := []
  nextHandle : Nat := 1
  /-- SYS_BGCFG value that waits for its block (R39), and the value in force -/
  bgPending : Bool := false
  bgActive : Nat := 0
  deriving DecidableEq, Repr

/-! ### Fault Collector (R457 to R475) -/

structure Fc where
  /-- FAULT_N is inside its 10 ms minimum low time (R467) -/
  pinMin : Bool := true
  /-- FAULTN_READBACK has been raised and not re-armed (R468) -/
  rbRaised : Bool := false
  /-- a TRAP of the open record that Shepherd has not taken (R469) -/
  trapPend : Bool := false
  /-- TRAPs delivered to Shepherd: source and info word, newest first -/
  traps : List (Nat × Nat) := []
  deriving DecidableEq, Repr

/-! ### Configuration Check Unit (R528 to R539) -/

structure Ccu where
  /-- per region: a change occurred during the pass that is under way -/
  changed : List Bool := [false, false, false]
  /-- per region: the region has been CHECKED since the pass under way began -/
  whole : List Bool := [false, false, false]
  /-- per region: ADOPT was set before the pass under way began -/
  adopting : List Bool := [false, false, false]
  /-- the timeout of the running deadline has been reported, per region -/
  timedOut : List Bool := [false, false, false]
  /-- CCU_STATUS.OVL was 1 at some time in the region-0 pass under way -/
  ovlSeen : Bool := false
  deriving DecidableEq, Repr

/-! ### Twin operation (R426 to R456) -/

/-- A duty release under way (R446): its kind, and the edge at which the outgoing engine finishes. -/
inductive Release where
  | none
  /-- fault release with the chip reset cause and source that follow -/
  | reset (cause src : Nat)
  /-- TWIN_CMD.RELEASE: STANDBY follows -/
  | standby
  deriving DecidableEq, Repr

structure Twin where
  release : Release := .none
  /-- MSC of the edge F from which outputs hold during a fault release -/
  releaseAt : Nat := 0
  /-- DUTY_IN deassertion has qualified and the takeover edge is awaited (R445) -/
  dutyLost : Bool := false
  /-- the qualified loss follows a HANDOVER event -/
  byHandover : Bool := false
  /-- bytes of the current block's delta (R438) -/
  delta : Nat := 0
  /-- MSC at which the exposure window began (R436) -/
  exposeFrom : Option Nat := none
  /-- this block is unchecked in the standby (R441) -/
  unchecked : Bool := false
  /-- this engine's own HEALTHY (R442) -/
  healthy : Bool := false
  /-- HANDOVER requested from the duty engine (R451) -/
  asked : Bool := false
  /-- MSC refused under R433: stays in CLOCK until chip reset -/
  mscRefused : Bool := false
  /-- the report-stale fault of the current age has been raised (R443) -/
  staleRaised : Bool := false
  /-- the standby's media clock has locked to the duty engine's (R432) -/
  locked : Bool := false
  /-- the latest self-test has failed (R456) -/
  bistFail : Bool := false
  /-- destination CRCs of the latest blocks, newest first: block index and CRC (R441) -/
  destCrcs : List (Nat × Nat) := []
  /-- copied writes held on the bus until the next block begins, oldest first (R438) -/
  held : List BusWrite := []
  deriving DecidableEq, Repr

/-! ### Drover (R561 to R576) -/

structure DroverCh where
  /-- the descriptor in progress, as its CTRL, COUNT, SRC, DST and NEXT words; none between descriptors -/
  desc : Option (Nat × Nat × Nat × Nat × Nat) := none
  /-- descriptors fetched since START (R567) -/
  fetched : Nat := 0
  /-- address of the next descriptor to fetch -/
  next : Nat := 0
  abort : Bool := false
  deriving DecidableEq, Repr

/-! ### Folds and Shepherd (R476 to R507) -/

/-- A command the fold has taken and Shepherd has not answered: its header, the port a datagram came through, whether it
waits for its bulk block, and whether that fetch failed (R491). -/
structure Taken where
  hdr : Hdr
  port : Nat
  needFetch : Bool
  fetchErr : Bool
  deriving DecidableEq, Repr

/-- A segment stream of R491: opcode, fixed parameters, BULK_LEN and the data so far. -/
structure SegStream where
  opcode : Nat
  params : List Nat
  total : Nat
  data : List Byte
  deriving DecidableEq, Repr

/-- A telemetry subscription (R503): selector, PERIOD, refreshes counted, and SEQ and GROUP of its command. -/
structure Sub where
  sel : Nat
  period : Nat
  count : Nat
  seq : Nat
  group : Nat
  deriving DecidableEq, Repr

structure Fold where
  taken : List Taken := []
  /-- tokens in units of 1/96,000 token as they stood at an edge count (R494), and the edge of the latest FOLD_RATE -/
  tokens : Nat := 1536000
  tokAt : Nat := 0
  rateAt : Option Nat := none
  /-- tail of the latest doorbell (R481) -/
  ctail : Nat := 0
  /-- highest SEQ accepted over UDP, and bit i set when H − i has been accepted (R485) -/
  high : Nat := 0
  seen : Nat := 0
  /-- the latest 4 replies, newest first -/
  last : List Reply := []
  seg : Option SegStream := none
  /-- replies, and notices, that wait for room in the reply ring, oldest first -/
  waiting : List Reply := []
  notices : List Reply := []
  subs : List Sub := []
  /-- EN was cleared while commands were outstanding (R479) -/
  closing : Bool := false
  deriving DecidableEq, Repr

structure Shep where
  folds : Sparse Fold := []
  /-- folds whose commands wait, oldest first: the LS queue and the general queue (R495) -/
  lsq : List Nat := []
  genq : List Nat := []
  /-- firmware is restarting its command service (R504) -/
  restarting : Bool := false
  /-- edge counts of the SHEP_WDOG events of the last 10 s -/
  wdogs : List Nat := []
  /-- latest telemetry set per selector: MSC and words -/
  telem : Sparse (Nat × List Word) := []
  /-- meter peaks since the latest telemetry refresh (R502) -/
  telemPeak : Sparse Nat := []
  deriving DecidableEq, Repr

/-! ### What the engine has sent out -/

/-- A stream packet as it left a port (R299, R301, R314, R317). -/
structure SentPacket where
  port : Nat
  flow : Nat
  srcIp : Nat
  srcMac : Nat
  dstIp : Nat
  dstMac : Nat
  srcPort : Nat
  dstPort : Nat
  dscp : Nat
  ttl : Nat
  /-- PCP and VID of the 802.1Q tag -/
  tag : Option (Nat × Nat)
  pt : Nat
  ssrc : Nat
  seq : Nat
  ts : Nat
  payload : List Byte
  deriving DecidableEq, Repr

structure Out where
  /-- stream packets that have left, newest first -/
  packets : List SentPacket := []
  /-- replies and notices written to rings or sent, oldest first -/
  replies : List Reply := []
  /-- MSI-X vectors sent, oldest first -/
  msix : List Nat := []
  /-- words returned by the latest bus read, and whether that access had a bus error (the model's own output) -/
  busData : Word := 0
  busErr : Bool := false
  /-- bytes written to host memory by Drover, newest first: address and byte -/
  host : List (Nat × Byte) := []
  /-- images written to slots of the QSPI flash by FW_UPDATE, oldest first: slot and bytes (R582, R585) -/
  flash : List (Nat × List Byte) := []
  deriving DecidableEq, Repr

/-! ### Quilt and Seam (R75 to R159) -/

/-- A ramp of R128: start word, target word, SHAPE, length and first sample. -/
structure Ramp where
  c0 : Int
  g : Int
  shape : Nat
  len : Nat
  t0 : Nat
  deriving DecidableEq, Repr

/-- One bank: stitch records and current gain words by 65,536·tile + slot, descriptor words by 4·bus + word, map
entries by entry (R79, R83, R85, R86). -/
structure Bank where
  slots : Sparse DWord := []
  gains : Sparse Word := []
  desc : Sparse DWord := []
  dmap : Sparse Word := []
  deriving DecidableEq, Repr

/-- A factor between 0 and 1 that moves by a raised cosine (R97) or the ramp of R408: the factor at sample s − 1 and
its target in units of 2^-60, the first sample s and the length. -/
structure Factor where
  f0 : Nat := 1152921504606846976
  f1 : Nat := 1152921504606846976
  t0 : Nat := 0
  len : Nat := 0
  deriving DecidableEq, Repr

/-- Output-stage state of a bus: scale word Q1.31 and trim word Q4.28 with their ramps (R95, R103). -/
structure BusSt where
  scale : Int := 2147483648
  sramp : Option Ramp := none
  trim : Int := 0
  tramp : Option Ramp := none
  used : Bool := false
  deriving DecidableEq, Repr

/-- A delay tap (R111 to R114). -/
structure Tap where
  /-- samples before this MSC read as zero (R114) -/
  since : Nat := 0
  /-- the delay in force, and the one that fades out -/
  cur : Nat := 0
  old : Nat := 0
  /-- block start of the crossfade in progress and its length; none in progress at length 0 -/
  xfAt : Nat := 0
  xfLen : Nat := 0
  /-- an accepted DELAY that waits for the next block start -/
  next : Option Nat := none
  /-- a DELAY held until the crossfade ends -/
  held : Option Nat := none
  /-- an accepted APPLY that waits for the next block start: BASE and RLEN -/
  apply : Option (Word × Word) := none
  /-- the tap's read did not return from DRAM in this block (R115) -/
  late : Bool := false
  deriving DecidableEq, Repr

/-- An internal generator (R106 to R110): the settings in force, the gain code and its ramp. -/
structure Gen where
  en : Bool := false
  level : Nat := 320
  inc : Nat := 44739243
  /-- PH of a tone, SEED of a noise generator -/
  ph : Nat := 0
  h : Int := 0
  ramp : Option Ramp := none
  deriving DecidableEq, Repr

/-- A generator write that waits: generator, register (0 CFG, 1 FREQ, 2 LEVEL, 3 PHSEED), value, block-start MSC. -/
structure GenWrite where
  g : Nat
  reg : Nat
  val : Nat
  due : Nat
  deriving DecidableEq, Repr

/-- The crossfade of one destination channel (R103): the bus it comes from and the SEW sample. -/
structure DestXf where
  old : Option Nat
  now : Option Nat
  t0 : Nat
  deriving DecidableEq, Repr

/-- An outgoing stitch of an unravel (R142, R146): its slot in the former LIVE bank, its record, its ramp, its
current gain and its solo and duck factors. -/
structure OutStitch where
  key : Nat
  word : DWord
  ramp : Ramp
  c : Int
  solo : Factor
  duck : Factor := {}
  deriving DecidableEq, Repr

/-- A direct write that waits for the second block start in a paired engine (R119). -/
structure DirectWrite where
  key : Nat
  word : DWord
  due : Nat
  deriving DecidableEq, Repr

structure Quilt where
  live : Bank := {}
  baste : Bank := {}
  ue : List QWord := []
  /-- holding registers of direct writes by tile (R116) -/
  hold : List (Nat × Word) := []
  paired : List DirectWrite := []
  /-- overlay records in LIVE: slots, in the order in which they were placed (R405, R406) -/
  overlay : List Nat := []
  /-- QUILT_SRC_ATTR words in force (R96) and sources with a write that waits -/
  attr : Sparse Word := []
  attrPend : List Nat := []
  /-- per source: 1 + the latest MSC whose sample was at or above threshold (R93) -/
  hot : Sparse Nat := []
  solo : Sparse Factor := []
  bus : Sparse BusSt := []
  taps : Sparse Tap := []
  gens : Sparse Gen := []
  genPend : List GenWrite := []
  /-- the source frame: per source its samples, newest first, at most 8 -/
  frame : Sparse (List Int) := []
  /-- per bus the last 8 words that entered stage 4, newest first (R104) -/
  ret : Sparse (List Int) := []
  /-- per destination channel 8,192·TYPE + INDEX its last 8 words, newest first (R101) -/
  dest : Sparse (List Int) := []
  destXf : Sparse (Option DestXf) := []
  /-- per meter point: sum of squares of the window under way; and the window's first block and WIN (R102) -/
  meterSum : Sparse Nat := []
  meterWin : Nat := 120
  meterFrom : Option Nat := none
  deriving DecidableEq, Repr

/-- A SEW that waits for the CHECK it started (R139): who asked, and with what. -/
structure SewAsk where
  hdr : Hdr
  cls : Nat
  target : Nat
  crc : Option Nat
  deriving DecidableEq, Repr

structure Seam where
  /-- ramps of LIVE stitches, by slot -/
  ramps : List (Nat × Ramp) := []
  outs : List OutStitch := []
  /-- the CHECK in progress: fold class, the command to answer if a command asked, the SEW behind it -/
  checking : Option (Nat × Option Hdr × Option SewAsk) := none
  /-- the SEW event pending or in progress -/
  sew : Option Event := none
  /-- the arming re-evaluation has not completed (R140) -/
  arming : Bool := false
  /-- SEAM_CTRL.REBASTE as sampled at T -/
  keep : Bool := false
  /-- FORCE retires every outgoing stitch at the next sample (R146) -/
  force : Bool := false
  /-- the CRC that SEAM_LIVE_CRC will show (R153) -/
  liveCrc : Option Word := none
  /-- partner's SEAM_CHK_CRC, when it has reported one (R152) -/
  partnerCrc : Option Word := none
  deriving DecidableEq, Repr
/-! ### Needle cores (R160 to R226) -/

/-- A place that a Needle instruction writes (R164, R182): a D register, an accumulator or one of its parts, an
address register, the flags, a special register, or an NX register. -/
inductive NLoc where
  | d (k : Nat) | acc (n : Nat) | part (n p : Nat)
  | p (n : Nat) | b (n : Nat) | l (n : Nat) | m (n : Nat)
  | flags | sr | lr | ipc | istat
  | nx (a : Nat)
  deriving DecidableEq, Repr

/-- A result still to become visible (R182): place, value, cycles left, whether a MAC wrote it, and NX_CYCLE at issue. -/
structure NPend where
  loc : NLoc
  val : Nat
  left : Nat
  mac : Bool
  stamp : Nat
  deriving DecidableEq, Repr

/-- States of R195. -/
inductive CoreState where
  | halted | starting | running | waiting | trapped
  deriving DecidableEq, Repr

/-- What a stalled core waits for (R181, R191). -/
inductive NWait where
  | none | wait | waits (port : Nat)
  deriving DecidableEq, Repr

/-- The flow instruction whose delay slots are running (R184): its target, or the return of RTI. -/
inductive NFlow where
  | none | to (a : Nat) | rti
  deriving DecidableEq, Repr

/-- A stream port transfer as its GO took it (R178): DIR, length, byte address, ring base and length. -/
structure SpJob where
  dir : Bool
  len : Nat
  addr : Nat
  rbase : Nat
  rlen : Nat
  deriving DecidableEq, Repr

/-- A stream port (R177 to R180). -/
structure SpPort where
  own : Bool := false
  dir : Bool := false
  len : Nat := 0
  addr : Nat := 0
  rbase : Nat := 0
  rlen : Nat := 0
  /-- the transfer in progress (BUSY), as GO took it -/
  job : Option SpJob := none
  done : Bool := false
  err : Bool := false
  ovr : Bool := false
  unbound : Bool := false
  /-- transfers started in this window -/
  started : Nat := 0
  /-- the two halves: word i of half h at key 1,024·h + i -/
  buf : Sparse Word := []
  deriving DecidableEq, Repr

/-- A queued host write to X (1) or Y (2), and the window openings until it acts (R203). -/
structure HostWrite where
  space : Nat
  addr : Nat
  val : Word
  left : Nat
  deriving DecidableEq, Repr

structure Core where
  st : CoreState := .halted
  cause : Nat := 0
  haltPc : Nat := 0
  d : Vector Word 32 := Vector.replicate 32 0#32
  acc : Vector (BitVec 72) 4 := Vector.replicate 4 0#72
  p : Vector (BitVec 16) 8 := Vector.replicate 8 0#16
  b : Vector (BitVec 16) 8 := Vector.replicate 8 0#16
  l : Vector (BitVec 16) 8 := Vector.replicate 8 0#16
  m : Vector (BitVec 16) 8 := Vector.replicate 8 0#16
  sr : Word := 0x20#32
  pc : Nat := 0
  lr : BitVec 14 := 0#14
  ipc : BitVec 14 := 0#14
  istat : Word := 0#32
  pend : List NPend := []
  flow : NFlow := .none
  /-- delay slots still to issue -/
  slots : Nat := 0
  /-- iterations left of the instruction at the PC (R185) -/
  rep : Nat := 0
  wait : NWait := .none
  /-- cycles since the window opened (NX_CYCLE before saturation) -/
  cyc : Nat := 0
  /-- cycles the oldest BLOCK request has waited (R190) -/
  blockAge : Nat := 0
  pmem : Sparse Word := []
  xmem : Sparse Word := []
  ymem : Sparse Word := []
  /-- input frame by 8·i + n, the core's output buffer and the other one by 8·j + n -/
  inF : Sparse Word := []
  outA : Sparse Word := []
  outB : Sparse Word := []
  /-- the samples the core's sources deliver in the block, by 8·j + n -/
  deliver : Sparse Word := []
  sp0 : SpPort := {}
  sp1 : SpPort := {}
  irqEn : Nat := 0
  irqPend : Nat := 0
  dbell : Word := 0#32
  /-- NX_DONE has matched in this window (R173) -/
  ready : Bool := false
  /-- a frame has been ready since the last start (R175) -/
  readyOnce : Bool := false
  /-- the latest window was missed -/
  missed : Bool := false
  /-- HALT has issued: no further instruction issues -/
  halting : Bool := false
  /-- the core halts at the next close (HALT or CMD = HALT) -/
  haltAtClose : Bool := false
  /-- the outputs fade out at the next close though the core has stopped (R196) -/
  fadeOut : Bool := false
  /-- window openings until RUN takes effect (R198) -/
  startIn : Nat := 0
  queue : List HostWrite := []
  /-- doorbell bits that wait, with the openings left -/
  bells : List (Word × Nat) := []
  /-- words with an uncorrectable error: space (0 P, 1 X, 2 Y) and word address -/
  poison : List (Nat × Nat) := []
  deriving DecidableEq, Repr

structure Needle where
  cores : Sparse Core := []
  /-- tag of the latest window -/
  tag : Nat := 0
  deriving DecidableEq, Repr

/-! ### Bellwether (R227 to R267) -/

/-- The monitors of a reference input (R232 to R236): consecutive clean gates, whether the gate under way began before
the input became active, the latest result y = num / den in ppb, and accepted limits that wait for a gate end. -/
structure RefIn where
  clean : Nat := 0
  skip : Bool := false
  num : Int := 0
  den : Nat := 1
  limits : Option (Word × Word) := none
  deriving DecidableEq, Repr

structure Bell where
  refs : Sparse RefIn := []
  /-- pairs that disagree at the latest gate (R236), lower input first -/
  pairs : List (Nat × Nat) := []
  /-- evaluations for which a better-ranked candidate has ranked strictly better without a break (R238) -/
  better : Nat := 0
  /-- updates for which the tracking error has stayed within LOCK_WIN (R242) -/
  lockFor : Nat := 0
  /-- O of R247 in units of 1/16,000 ns -/
  ofs : Int := 0
  /-- phase of the latest update and the input it belongs to (R248) -/
  lastPd : Option (Nat × Int) := none
  /-- a step of the selected, anchored time base in ns, which the next update passes to O (R277) -/
  stepOfs : Int := 0
  /-- a word that takes effect at the next media clock edge (R246) -/
  next : Option Int := none
  /-- the glide of R242 from the holdover value: start word and updates done -/
  glide : Option (Int × Nat) := none
  /-- seconds since chip reset, the history ring (second, word) newest first, and the running second (R250) -/
  secs : Nat := 0
  ring : List (Nat × Int) := []
  sum : Int := 0
  count : Nat := 0
  clean : Bool := true
  /-- the spread in force (R229) -/
  spread : Nat := 0
  /-- a captured divider group (R262), and a rising edge of each divider in 98.304 MHz periods (R262, R263) -/
  divs : Option (List Word) := none
  rise : List Nat := [0, 0, 0, 0, 0, 0]
  deriving DecidableEq, Repr

/-! ### Time bases and timestamps (R268 to R294) -/

/-- A time base (R268): its time in units of 2^-32 ns, an accepted increment that waits for a tick (R269), a captured
step in seconds and nanoseconds and whether its tick has come (R271), the map offset in units of 2^-16 ns (R276), and
what the reads of R274 and R276 have latched. -/
structure TimeBase where
  time : Nat := 0
  inc : Option (Word × Word) := none
  step : Option (Int × Int) := none
  ticked : Bool := false
  map : Int := 0
  timeLatch : Option Nat := none
  mapLatch : Option Int := none
  deriving DecidableEq, Repr

/-- An entry of a transmit timestamp queue (R284). -/
structure TxStamp where
  id : Nat
  tb : Nat
  epoch : Nat
  abort : Bool
  sec : Nat
  ns : Nat
  deriving DecidableEq, Repr

/-- A PTP instance that firmware runs on a time base (R287, R288), as PTP_SET gives it. -/
structure PtpInst where
  profile : Nat
  domain : Nat
  /-- mask of the ports that carry it -/
  ports : Nat
  logSync : Int
  logAnnounce : Int
  role : Nat
  deriving DecidableEq, Repr

structure Ptp where
  tbs : Sparse TimeBase := []
  /-- queues by port, oldest entry first -/
  queues : Sparse (List TxStamp) := []
  insts : Sparse (Option PtpInst) := []
  /-- step threshold of the servo by time base, in ns (R289) -/
  servo : Sparse Nat := []
  /-- Delay_Req and Pdelay_Req answered in the running second, the second, and those dropped (R288) -/
  reqs : Nat := 0
  reqSec : Nat := 0
  reqDropped : Nat := 0
  deriving DecidableEq, Repr

/-! ### Stream Engine (R295 to R327) -/

/-- Flow states of R323: 0 OFF, 1 STOPPED, 2 PENDING, 3 RUNNING, 4 STARVED, 5 STOPPING. -/
structure RxFlow where
  st : Nat := 0
  /-- link offset K (R305); while PENDING, the offset with which the Bobbin is filled -/
  k : Int := 0
  /-- target of the START that fired -/
  from_ : Nat := 0
  /-- samples of all channels by position (R309) -/
  bobbin : Sparse (List Int) := []
  /-- missing samples of the gap under way (R315) -/
  gap : Option Nat := none
  /-- delivered samples since the start or the last gap, at most 8 -/
  since : Nat := 0
  /-- last delivered sample of each channel -/
  last : List Int := []
  /-- sample at which a STOP fired (R321) -/
  stopAt : Option Nat := none
  /-- block start from which a realigned flow takes data (R308) -/
  hold : Option Nat := none
  /-- highest sequence number, sequence numbers taken, and those missing with the MSC by which they count as lost -/
  hiSeq : Option Nat := none
  seqs : List Nat := []
  missing : List (Nat × Nat) := []
  /-- MSC of the latest packet of each leg (R316) -/
  legA : Nat := 0
  legB : Nat := 0
  deriving DecidableEq, Repr

/-- A packet formed by a transmit flow: sequence number, RTP timestamp, payload, its ready edge, and the legs on which
it has still to leave (R312, R317). -/
structure TxPacket where
  seq : Nat
  ts : Nat
  payload : List Byte
  readyAt : Nat
  legA : Bool
  legB : Bool
  sent : Bool
  deriving DecidableEq, Repr

structure TxFlow where
  st : Nat := 0
  k : Int := 0
  /-- target of the START that fired: no earlier sample is sent -/
  from_ : Nat := 0
  /-- first sample of the packet being formed, and its bytes and sample count so far -/
  first : Option Nat := none
  bytes : List Byte := []
  count : Nat := 0
  seq : Nat := 0
  /-- a new K for the next packet (R308) -/
  nextK : Option Int := none
  stopAt : Option Nat := none
  /-- packets formed and not ready yet, and packets ready to leave, oldest first -/
  formed : List TxPacket := []
  ready : List TxPacket := []
  deriving DecidableEq, Repr

/-- A frame that waits for Shepherd, with its stamp (R283, R298). -/
structure HostFrame where
  port : Nat
  tb : Nat
  epoch : Nat
  sec : Nat
  ns : Nat
  deriving DecidableEq, Repr

structure Net where
  rx : Sparse RxFlow := []
  tx : Sparse TxFlow := []
  host : List HostFrame := []
  /-- the neighbour table: IPv4 address and MAC address (R299) -/
  neigh : List (Nat × Nat) := []
  /-- samples that the receive channels deliver at the MSC being computed, by channel -/
  chan : Sparse Int := []
  deriving DecidableEq, Repr


/-! ### Port Engine (R328 to R360) -/

/-- A channel of a local port. Receive channels hold their samples by position (R330) and, on the ASRC path, the
positions that a bad word makes missing; transmit channels hold the gated destination samples, newest first. -/
structure PortCh where
  buf : Sparse Int := []
  bad : List Nat := []
  /-- the position from which a slip or a new anchor begins (R331) -/
  cut : Option Nat := none
  /-- missing samples of the gap under way, samples delivered since a start or a gap (at most 8), last delivered (R336) -/
  gap : Option Nat := none
  since : Nat := 8
  last : Int := 0
  /-- x(n − 1) of R353 and R354 -/
  prev : Int := 0
  /-- target of a silent START whose gate is not fully open -/
  gate : Option Nat := none
  stopAt : Option Nat := none
  ended : Bool := true
  line : List Int := []
  deriving DecidableEq, Repr

/-- A local port: its state of R351, the accepted group that waits (R346), the anchor and frame count of R331, the MSC of
its latest ASRC lock (R349), the block start at which it resumes (R338), and the words of the latest SYNC frame on its
pins; a word is none where the pin is high impedance. -/
structure LPort where
  st : Nat := 0
  pend : List (Nat × Word) := []
  csPend : List (Nat × Word) := []
  anchor : Option (Nat × Nat) := none
  lockAt : Nat := 0
  resume : Option Nat := none
  rx : Sparse PortCh := []
  tx : Sparse PortCh := []
  sent : List (Option Int) := []
  deriving DecidableEq, Repr

structure Ports where
  /-- by 64·KIND + index: KIND 0 AES3 receiver, 1 AES3 transmitter, 2 TDM port -/
  ports : Sparse LPort := []
  /-- samples that local ports deliver at the MSC being computed: by source index, and by 8,192·TYPE + INDEX of a
  destination that a direct route names (R342) -/
  src : Sparse Int := []
  direct : Sparse Int := []
  deriving DecidableEq, Repr

/-! ### Line drive (R361 to R394) -/

/-- An ENABLE or DISABLE that waits (R385): whether it enables, and the MSC of the block start at which it acts. -/
structure LineCmd where
  enable : Bool
  due : Nat
  deriving DecidableEq, Repr

/-- A line channel. Times are counts of media clock edges. -/
structure LineCh where
  /-- 0 DISABLED, 1 RUNNING, 2 TRIPPED, 3 LOCKED (R383) -/
  st : Nat := 0
  cmds : List LineCmd := []
  /-- an accepted group that waits for the block start (R390) -/
  pend : List (Nat × Word) := []
  /-- edge at which a STOP or DISABLE acted (R383), and at which a SUPPLY or THERMAL hold began (R384) -/
  stopAt : Option Nat := none
  holdAt : Option Nat := none
  /-- samples since the last fade-in began, at most 8 -/
  since : Nat := 8
  /-- T has reached TSTOP and not fallen 10 °C below it (R379); the sensor is at fault (R378) -/
  hot : Bool := false
  ntcBad : Bool := false
  /-- foldback in units of 1/32 dB in the preceding and the present block -/
  foldOld : Nat := 0
  fold : Nat := 0
  /-- the latest samples after step 1 with their thermal gains in units of 2^-60, newest first (R377) -/
  hist : List (Int × Nat) := []
  /-- limiter gain in units of 2^-60, and samples since the last one that needed it -/
  gain : Nat := 1152921504606846976
  held : Nat := 960
  /-- commanded values u after step 4, newest first (R366, R367) -/
  cmd : List Int := []
  /-- edges of the limited periods of the last 96 samples and of the retries of the last 600 s (R381, R382) -/
  limited : List Nat := []
  retries : List Nat := []
  /-- edge of the trip or of the latest assertion of OCP_N -/
  waitFrom : Nat := 0
  /-- class of the latest measured results and how many agree (R388): 1 OK, 2 SHORT, 3 OPEN; and EARTH -/
  cls : Nat := 0
  agree : Nat := 0
  earth : Bool := false
  earthAgree : Nat := 0
  /-- corrections in force, in ppm (R375) -/
  calOfs : Int := 0
  calGain : Int := 0
  deriving DecidableEq, Repr

structure LineDrive where
  chs : Sparse LineCh := []
  /-- k × 256 in force (R394) and VBUS of the preceding block: SADC code × VBUS_FS, unit 10 mV / 4,096 (R376) -/
  k : Nat := 230
  vbus : Nat := 0
  deriving DecidableEq, Repr

/-! ### Alarm operation and messages (R395 to R425) -/

/-- A player entry of an alarm pattern (R398); ALT_SLOT 0xFFFF is none. -/
structure PlyEntry where
  player : Nat
  reps : Nat
  slot : Nat
  gap : Nat
  alt : Nat
  deriving DecidableEq, Repr

/-- A valid alarm pattern, as cached (R398, R400). -/
structure AlarmPat where
  prio : Nat
  duckAll : Bool
  prog : Nat
  page : Nat
  ramp : Nat
  players : List PlyEntry
  overlay : List DWord
  deriving DecidableEq, Repr

/-- What a release command changed (R411): the latches, command activations and suppressed inputs before it. -/
structure Released where
  latch : Word
  supp : Word
  commanded : Nat
  deriving DecidableEq, Repr

/-- An alarm action that waits for its sample (R404): the patterns active after its trigger, the trigger (input number,
32 for a command, 33 for a pattern load; and whether it activates), and what a release command changed. -/
structure AlarmAct where
  /-- action sample E -/
  due : Nat
  active : Nat
  trigger : Nat
  on : Bool
  undo : Option Released
  deriving DecidableEq, Repr

/-- A message in the store (R412): data offset, samples, 96 kHz, 24 bits. -/
structure Msg where
  off : Nat
  len : Nat
  hi : Bool
  wide : Bool
  deriving DecidableEq, Repr

/-- One message that a player sounds: its start sample, whether it may only read NVS, the sample at which it was cross-faded over
what played before (R416), and the sample at which it was stopped (R415). -/
structure Voice where
  slot : Nat
  msg : Msg
  start : Nat
  nvs : Bool
  xfAt : Option Nat
  stopAt : Option Nat
  deriving DecidableEq, Repr

/-- A message player (R415): state, owner (1 fold, 2 alarm pattern, 3 fallback image), plays left (0: without end), GAP in
ms, end of the gap, and its voices, newest first. -/
structure Player where
  st : Nat := 0
  owner : Nat := 0
  reps : Nat := 0
  gap : Nat := 0
  gapEnd : Nat := 0
  voices : List Voice := []
  deriving DecidableEq, Repr

structure Alarm where
  /-- the cached patterns, by index (R400), and accepted loads with the block start that takes them (R401) -/
  pats : Sparse (Option AlarmPat) := []
  loads : List (Nat × Nat × AlarmPat) := []
  /-- the ALARM_SECTION of the fallback image in force (R422) -/
  section_ : Option AlarmPat := none
  /-- patterns that alarm commands have activated -/
  commanded : Nat := 0
  /-- patterns active at the latest action -/
  acted : Nat := 0
  acts : List AlarmAct := []
  /-- the governing pattern; 16 is the ALARM_SECTION -/
  govern : Option Nat := none
  /-- the pattern whose overlay lies in LIVE (its stitches may be retiring) and whether they retire (R410) -/
  placed : Option AlarmPat := none
  retiring : Bool := false
  /-- the pattern whose duck settings are in force (R407) -/
  ducking : Option AlarmPat := none
  /-- a changeover under way: E + 8 and the index of the incoming pattern (R409) -/
  change : Option (Nat × Option Nat) := none
  /-- duck factors of LIVE and overlay stitches by slot, and DUCK_RAMP of the pattern that governed last (R408) -/
  duck : Sparse Factor := []
  ramp : Nat := 8
  players : Sparse Player := []
  /-- players' samples at the MSC being computed -/
  out : Sparse Int := []
  /-- the DRAM copy of R414 has been started; slots whose copy is due -/
  copying : Bool := false
  toCopy : List Nat := []
  /-- the edge count from which the outputs fade under R257 until the fallback image is applied, and the FALLBACK
  condition (cause and source) that acts when the fade is over -/
  fade : Option Nat := none
  fallen : Option (Nat × Nat) := none
  deriving DecidableEq, Repr


/-! ### The whole engine -/

structure State where
  /-- the commands that wait, first in, first out -/
  pending : List Instr
  /-- every register, by privileged address (R40, R41); an unlisted register holds its reset value -/
  regs : Sparse Word
  /-- shadows of staged registers that differ from what an unlisted shadow reads as: the active value (R513) -/
  shadow : List (Nat × Word)
  /-- Media Sample Count (R54) -/
  msc : Nat
  /-- media clock edges since reset: the measure of durations, which an anchor of MSC does not move -/
  edge : Nat
  /-- holding registers of 64-bit pairs, by the address of the _LO word (R61) -/
  latch : List (Nat × Word)
  sched : Sched
  fc : Fc
  ccu : Ccu
  mem : Mem
  pins : Pins
  boot : Boot
  twin : Twin
  drover : Sparse DroverCh
  shep : Shep
  quilt : Quilt
  seam : Seam
  needle : Needle
  bell : Bell
  ptp : Ptp
  net : Net
  port : Ports
  line : LineDrive
  alarm : Alarm
  out : Out
  /-- the model's own counter: the argument of the free values (Config.free) -/
  freeCtr : Nat
  deriving DecidableEq, Repr

/-- The engine right after a chip reset (R55, R580, R581, R594): registers at their reset values, memories zero, the
scheduler empty; NVS and fuses as a part that nothing has written (DESIGN CHOICE, notes/assumptions). -/
def State.reset : State where
  pending := []
  regs := []
  shadow := []
  msc := 0
  edge := 0
  latch := []
  sched := {}
  fc := {}
  ccu := {}
  mem := {}
  pins := {}
  boot := {}
  twin := {}
  drover := []
  shep := {}
  quilt := {}
  seam := {}
  needle := {}
  bell := {}
  ptp := {}
  net := {}
  port := {}
  line := {}
  alarm := {}
  out := {}
  freeCtr := 0

end Sys2Proof.Machine
end

