-- ==== Sys2Proof/Machine/Ops.lean ====
section
/-!
DEFINITION. The named operations over registers, flags, counters and time that every meaning uses.
-/

namespace Sys2Proof.Machine

/-- The answer of every command that has an effect the spec gives: a next state. -/
abbrev Res := Host.Outcome State Fault Refusal

/-! ### Registers -/

/-- Nominal frequencies of the reference inputs at reset, in Hz (R230). -/
def refNomReset (n : Nat) : Nat :=
  if n < 8 then 1000 else if n = 12 then 10000000 else if n = 13 then 1 else 48000

/-- Whether R457 names a fault source of this number; the other numbers are reserved. -/
def faultNamed (f : Nat) : Bool :=
  [(0, 11), (16, 25), (32, 35), (48, 53), (64, 84), (96, 104), (112, 120), (128, 140), (144, 148), (160, 168),
    (176, 177), (192, 198), (208, 210), (224, 225), (240, 255)].any (fun r => r.1 ≤ f && f ≤ r.2)

/-- FAULT_SRC_CFG of a source after reset: N and the reaction sets of its class (R473). -/
def faultCfgReset (f : Nat) : Nat :=
  if !faultNamed f then 0
  else if f ∈ [3, 5, 8, 18, 20, 76, 79, 132, 135, 137, 138, 139, 140, 145, 146, 147, 162, 165, 166, 168, 176, 177,
      194, 224, 225] then 0x01001111
  else if f ∈ [9, 33, 67, 80, 99, 144, 160, 161] then 0x10000101
  else if f = 193 then 0x02001303
  else if 240 ≤ f then 0x01000000
  else 0x10001101

/-- Reset value of the register at privileged address `a`: the value of its table row, and the values that the
spec gives index by index (R126 for the generators, R230 for reference inputs, R473 for fault sources). -/
def resetAt (a : Nat) : Word :=
  if 0x401A0000 ≤ a && a < 0x401A0800 then
    let g := (a - 0x401A0000) / 16
    match (a - 0x401A0000) % 16 with
    | 0 => if g < 64 then 0x000001E0#32 else if g < 96 then 0x100001E0#32 else 0x200001E0#32
    | 4 => 0x02AAAAAB#32
    | 8 => 0x00000140#32
    | 12 => if g < 64 then 0#32 else BitVec.ofNat 32 g
    | _ => 0#32
  else if 0x40410000 ≤ a && a < 0x40410200 && (a - 0x40410000) % 32 = 4 then
    BitVec.ofNat 32 (refNomReset ((a - 0x40410000) / 32))
  else if 0x40B10000 ≤ a && a < 0x40B12000 then
    let f := (a - 0x40B10000) / 32
    match (a - 0x40B10000) % 32 with
    | 0 => BitVec.ofNat 32 (faultCfgReset f)
    | 4 => if faultNamed f then 1000#32 else 0#32
    | 8 => if faultNamed f then 60000#32 else 0#32
    | _ => 0#32
  else match regSpec? a with
    | some r => BitVec.ofNat 32 r.reset
    | none => 0#32

/-- The word of a register. -/
def State.reg (s : State) (a : Nat) : Word := Sparse.get resetAt s.regs a

/-- The word of a register as a number. -/
def State.rd (s : State) (a : Nat) : Nat := (s.reg a).toNat

/-- A register replaced. -/
def State.wr (s : State) (a : Nat) (v : Word) : State := { s with regs := Sparse.set resetAt s.regs a v }

/-- A register replaced by a number, modulo 2^32. -/
def State.wrN (s : State) (a v : Nat) : State := s.wr a (BitVec.ofNat 32 v)

/-- The width of a field. -/
def Fld.width (f : Fld) : Nat := f.hi + 1 - f.lo

/-- The bits of a field, in place. -/
def Fld.mask (f : Fld) : Nat := (2 ^ f.width - 1) * 2 ^ f.lo

/-- A field taken from a word. -/
def Fld.of (f : Fld) (w : Nat) : Nat := w / 2 ^ f.lo % 2 ^ f.width

/-- A word with a field replaced; the value is taken modulo the field's width. -/
def Fld.put (f : Fld) (w v : Nat) : Nat :=
  w - f.of w * 2 ^ f.lo + v % 2 ^ f.width * 2 ^ f.lo

/-- A field of a register. -/
def State.fld (s : State) (a : Nat) (f : Fld) : Nat := f.of (s.rd a)

/-- A one-bit field as a truth value. -/
def State.bit (s : State) (a : Nat) (f : Fld) : Bool := s.fld a f ≠ 0

/-- A field of a register replaced. -/
def State.setFld (s : State) (a : Nat) (f : Fld) (v : Nat) : State := s.wrN a (f.put (s.rd a) v)

/-- A one-bit field set or cleared. -/
def State.setBit (s : State) (a : Nat) (f : Fld) (b : Bool) : State := s.setFld a f (if b then 1 else 0)

/-- A sticky flag set by hardware (R511, W1C). -/
def State.flag (s : State) (a : Nat) (f : Fld) : State := s.setFld a f 1

/-- One bit of a register's word, by number. -/
def State.bitAt (s : State) (a k : Nat) : Bool := s.rd a / 2 ^ k % 2 = 1

def State.setBitAt (s : State) (a k : Nat) (b : Bool) : State :=
  s.setFld a ⟨k, k⟩ (if b then 1 else 0)

/-- A counter that saturates at 0xFFFF_FFFF, advanced by `n`. -/
def State.countBy (s : State) (a n : Nat) : State := s.wrN a (min 0xFFFFFFFF (s.rd a + n))

/-- A counter that saturates at 0xFFFF_FFFF, advanced by one. -/
def State.count (s : State) (a : Nat) : State := s.countBy a 1

/-- A counting field that saturates at its largest value. -/
def State.countFld (s : State) (a : Nat) (f : Fld) : State :=
  s.setFld a f (min (2 ^ f.width - 1) (s.fld a f + 1))

/-- A 64-bit value in an _LO and _HI pair of registers. -/
def State.wr64 (s : State) (lo hi v : Nat) : State :=
  (s.wrN lo (v % 2 ^ 32)).wrN hi (v / 2 ^ 32 % 2 ^ 32)

def State.rd64 (s : State) (lo hi : Nat) : Nat := s.rd lo + s.rd hi * 2 ^ 32

/-- A number read as a two's-complement field of `w` bits. -/
def sext (w v : Nat) : Int := if v % 2 ^ w < 2 ^ (w - 1) then (v % 2 ^ w : Nat) else (v % 2 ^ w : Nat) - (2 ^ w : Nat)

/-- A whole number as the two's-complement pattern of `w` bits. -/
def wrapN (w : Nat) (x : Int) : Nat := (x % (2 ^ w : Nat)).toNat

/-! ### Staged registers (R513) -/

/-- The shadow of a staged register: an unlisted shadow equals the active value. -/
def State.shadowOf (s : State) (a : Nat) : Word :=
  match s.shadow.find? (fun e => e.1 = a) with
  | some e => e.2
  | none => s.reg a

/-- A software write to a staged register changes only its shadow. -/
def State.setShadow (s : State) (a : Nat) (v : Word) : State :=
  { s with shadow := (a, v) :: s.shadow.filter (fun e => e.1 ≠ a) }

/-- The shadows of a group are the active values again. -/
def State.dropShadows (s : State) (g : List Nat) : State :=
  { s with shadow := s.shadow.filter (fun e => !g.contains e.1) }

/-- A rejected group (R516): its shadows take the values that will be active once a captured group has taken effect. -/
def State.reloadShadows (s : State) (g : List Nat) (captured : List (Nat × Word)) : State :=
  captured.foldl (fun t e => t.setShadow e.1 e.2) (s.dropShadows g)

/-- A captured group becomes active (R515); shadows written since the capture stay, the others equal the active
values again. -/
def State.activate (s : State) (captured : List (Nat × Word)) : State :=
  let s := captured.foldl (fun t e => t.wr e.1 e.2) s
  { s with shadow := s.shadow.filter (fun e => !(captured.contains e)) }

/-! ### Time, modes and the model's counter -/

def State.block (s : State) : Nat := s.msc / 8

/-- A value the spec leaves open: nothing is known of it; the counter moves on so that each use has its own. -/
def State.freeVal (s : State) : Nat := Config.free s.freeCtr

def State.bump (s : State) : State := { s with freeCtr := s.freeCtr + 1 }

def State.mode (s : State) : Mode := Mode.ofCode (s.fld R.SYS_MODE F.SYS_MODE_MODE)

def State.retMode (s : State) : Mode := Mode.ofCode (s.fld R.SYS_MODE F.SYS_MODE_RET_MODE)

/-- The engine asserts DUTY_OUT (R47, R620). -/
def State.duty (s : State) : Bool := s.bit R.SYS_MODE F.SYS_MODE_DUTY

def State.tstate (s : State) : Nat := s.fld R.TWIN_STATUS F.TWIN_STATUS_TSTATE

/-- Paired, in the sense of R430: TSTATE is COPY, SETTLE or PAIRED. -/
def State.paired (s : State) : Bool := s.tstate = 3 || s.tstate = 4 || s.tstate = 5

/-- The partner is ready (R443): its report is at most 16 blocks old and says HEALTHY. -/
def State.partnerReady (s : State) : Bool :=
  s.fld R.TWIN_HEALTH_AGE F.TWIN_HEALTH_AGE_BLOCKS ≤ 16 && s.bit R.TWIN_HEALTH F.TWIN_HEALTH_HEALTHY

/-- The mode that governs the engine's role: RET_MODE while in ALARM, the mode otherwise. -/
def State.baseMode (s : State) : Mode := if s.mode = .alarm then s.retMode else s.mode

/-- A 64-bit pair's latch (R61): set by a read of _LO, taken by the next read of _HI. -/
def State.latchHi (s : State) (lo : Nat) (v : Word) : State :=
  { s with latch := (lo, v) :: s.latch.filter (fun e => e.1 ≠ lo) }

def State.dropLatch (s : State) (lo : Nat) : State :=
  { s with latch := s.latch.filter (fun e => e.1 ≠ lo) }

def State.latchOf (s : State) (lo : Nat) : Option Word := (s.latch.find? (fun e => e.1 = lo)).map (·.2)

/-! ### CRC-32C (R122) -/

/-- One bit step of the reflected CRC-32C. -/
def crcBit (c : Nat) : Nat := if c % 2 = 1 then (c / 2) ^^^ 0x82F63B78 else c / 2

def crcByte (c b : Nat) : Nat :=
  crcBit (crcBit (crcBit (crcBit (crcBit (crcBit (crcBit (crcBit (c ^^^ b))))))))

/-- CRC-32C of a list of bytes: initial value and final exclusive-or all ones. -/
def crc32c (bs : List Nat) : Nat := (bs.foldl crcByte 0xFFFFFFFF) ^^^ 0xFFFFFFFF

/-- The little-endian bytes of a number (R11). -/
def leBytes : Nat → Nat → List Nat
  | 0, _ => []
  | n + 1, v => v % 256 :: leBytes n (v / 256)

def ofLe : List Nat → Nat
  | [] => 0
  | b :: bs => b % 256 + 256 * ofLe bs

end Sys2Proof.Machine
end

