-- ==== Sys2Proof/Machine/Fixed.lean ====
section
/-!
DEFINITION. The arithmetic of the engine's formulas: rounding and saturation (R49, R81), integer roots for the level
codes (R93, R98, R106), and fixed-point logarithm, exponential, sine and cosine in units of 2^-100 for the ramp
formulas of R130. The fixed-point values differ from the real ones by far less than one code.
-/

namespace Sys2Proof.Machine

/-- Saturation to the signed range of `w` bits. -/
def satS (w : Nat) (x : Int) : Int :=
  let m : Int := (2 ^ (w - 1) : Nat)
  if x < -m then -m else if m - 1 < x then m - 1 else x

/-- The Q5.27 range (R48). -/
def sat32 (x : Int) : Int := satS 32 x

/-- `x / 2^k` to nearest, ties toward +∞ (R49). -/
def rsh (x : Int) (k : Nat) : Int := if k = 0 then x else (x + (2 ^ (k - 1) : Nat)) / (2 ^ k : Nat)

/-- `a / b` to nearest, ties toward +∞, for positive `b`. -/
def rdiv (a : Int) (b : Nat) : Int := (2 * a + b) / (2 * b : Nat)

/-- The greatest number below `2^n` that satisfies a test that holds up to some bound and not beyond it. -/
def greatest (test : Nat → Bool) : Nat → Nat → Nat
  | 0, m => m
  | n + 1, m => greatest test n (if test (m + 2 ^ n) then m + 2 ^ n else m)

/-- Integer square root of a number below 2^256. -/
def isqrt (x : Nat) : Nat := greatest (fun m => m * m ≤ x) 128 0

/-- round(2^27 × 10^(p/q)) for an exponent `p/q` of either sign: 2·2^27·10^(p/q) is found exactly by comparing q-th
powers, then halved with rounding. -/
def levelCode (p : Int) (q : Nat) : Nat :=
  let pos := p.toNat
  let neg := (-p).toNat
  (greatest (fun m => m ^ q * 10 ^ neg ≤ (2 ^ 28) ^ q * 10 ^ pos) 33 0 + 1) / 2

/-! ### Fixed point, unit 2^-100 -/

def fxOne : Int := (2 ^ 100 : Nat)

def fxMul (a b : Int) : Int := a * b / fxOne

def fxPi : Int := 3982441812995697363688351113952

/-- Odd-power series of atanh: t + t³/3 + … with `n` terms. -/
def fxAtanhGo (t2 : Int) : Nat → Nat → Int → Int → Int
  | 0, _, _, acc => acc
  | n + 1, k, p, acc => fxAtanhGo t2 n (k + 2) (fxMul p t2) (acc + p / (k : Int))

def fxAtanh (t : Int) : Int := fxAtanhGo (fxMul t t) 40 1 t 0

def fxLn2 : Int := 2 * fxAtanh (fxOne / 3)

/-- Natural logarithm of the ratio of two positive numbers. -/
def fxLn (a b : Nat) : Int :=
  let e : Int := (Nat.log2 a : Int) - (Nat.log2 b : Int)
  let x : Int := if 0 ≤ e then (a : Int) * fxOne / ((b * 2 ^ e.toNat : Nat) : Int)
    else (a * 2 ^ (-e).toNat : Nat) * fxOne / (b : Int)
  2 * fxAtanh ((x - fxOne) * fxOne / (x + fxOne)) + e * fxLn2

/-- Power series of exp. -/
def fxExpGo (x : Int) : Nat → Nat → Int → Int → Int
  | 0, _, _, acc => acc
  | n + 1, k, p, acc => fxExpGo x n (k + 1) (fxMul p x / (k : Int)) (acc + p)

/-- exp(x), for x between −80 and 80. -/
def fxExp (x : Int) : Int :=
  let k := x / fxLn2
  let r := fxExpGo (x - k * fxLn2) 34 1 fxOne 0
  if 0 ≤ k then r * (2 ^ k.toNat : Nat) else r / (2 ^ (-k).toNat : Nat)

/-- Series of cosine and sine: each term is the one before times −x²/((k+1)(k+2)). -/
def fxTrigGo (x2 : Int) : Nat → Nat → Int → Int → Int
  | 0, _, _, acc => acc
  | n + 1, k, p, acc => fxTrigGo x2 n (k + 2) (-(fxMul p x2) / (((k + 1) * (k + 2) : Nat) : Int)) (acc + p)

def fxCos (x : Int) : Int := fxTrigGo (fxMul x x) 30 0 fxOne 0

def fxSin (x : Int) : Int := fxTrigGo (fxMul x x) 30 1 x 0

/-- A fixed-point value to the nearest whole number, ties toward +∞. -/
def fxRound (x : Int) : Int := rsh x 100

/-! ### Ramps (R128 to R132) -/

/-- F of R130: 2^-20 in Q4.28. -/
def rampF : Nat := 256

def sgn (x : Int) : Int := if 0 < x then 1 else if x < 0 then -1 else 0

/-- `b·(a/b)^(k/L)` for positive `a`, `b`, in units of 2^-100. -/
def fxGeo (b a k L : Nat) : Int :=
  (b : Int) * fxExp (fxLn a b * (k : Int) / (L : Int))

/-- The value of the formula of R130 at k, to the nearest word. -/
def rampFormula (c0 g : Int) (shape k L : Nat) : Int :=
  let lin := rdiv (c0 * L + (g - c0) * k) L
  match shape with
  | 0 => g
  | 2 =>
    if 0 < c0 * g then sgn g * fxRound (fxGeo c0.natAbs g.natAbs k L)
    else if c0 = 0 && g ≠ 0 then sgn g * fxRound (fxGeo rampF g.natAbs k L)
    else if c0 ≠ 0 && g = 0 then (if k < L then sgn c0 * fxRound (fxGeo c0.natAbs rampF k L) else 0)
    else lin
  | 3 => c0 + fxRound ((g - c0) * (fxOne - fxCos (fxPi * k / L)) / 2)
  | 4 =>
    if 0 ≤ c0 * g then
      let co := fxCos (fxPi * k / (2 * L))
      let si := fxSin (fxPi * k / (2 * L))
      let sum := (c0 * c0 * fxMul co co + g * g * fxMul si si).toNat
      (if g ≠ 0 then sgn g else sgn c0) * fxRound (isqrt sum * (2 ^ 50 : Nat))
    else lin
  | _ => lin

/-- The word of a ramp at k from the word before it: within 16 codes of the formula (the deviation is free within
that bound), never away from the target and never past it, and the target itself at the end (R132). -/
def rampWord (r : Ramp) (prev : Int) (k : Nat) : Int :=
  if r.len ≤ k then r.g
  else
    let d := Config.rampDither (wrapN 64 r.c0) (wrapN 64 r.g) r.shape r.len k
    let d := if d < -16 then -16 else if 16 < d then 16 else d
    let v := rampFormula r.c0 r.g r.shape k r.len + d
    if prev ≤ r.g then max prev (min v r.g) else min prev (max v r.g)

/-- Ramp lengths of R133. -/
def rampLen (code : Nat) : Nat :=
  [0, 8, 10, 12, 14, 17, 21, 25, 30, 36, 44, 53, 64, 77, 96, 112, 136, 164, 198, 240, 288, 348, 420, 508, 613, 740, 894,
    1080, 1300, 1580, 1900, 2300, 2770, 3350, 4050, 4800, 5900, 7120, 8600, 10400, 12500, 15200, 18300, 22100, 26700,
    32200, 38900, 47000, 56800, 68500, 82800, 96000, 121000, 146000, 176000, 213000, 257000, 310000, 374000, 452000,
    546000, 659000, 796000, 960000].getD code 0

/-- The ramp of a new target at sample `t0` (R129, R131): none when the start equals the target; a step has length 1. -/
def newRamp (c0 g : Int) (shape lenCode t0 : Nat) : Option Ramp :=
  if c0 = g then none
  else some ⟨c0, g, shape, if shape = 0 || rampLen lenCode = 0 then 1 else rampLen lenCode, t0⟩

/-! ### Factors of R97 and R408, in units of 2^-60 -/

def factorOne : Nat := 1152921504606846976

/-- The factor at sample n of a raised-cosine move that starts at t0: from f0 to f1 over len samples. -/
def Factor.at (f : Factor) (n : Nat) : Nat :=
  if f.len = 0 || f.t0 + f.len ≤ n + 1 then f.f1
  else if n < f.t0 then f.f0
  else
    let k := n - f.t0 + 1
    let c := fxCos (fxPi * k / f.len)
    ((f.f0 : Int) + fxRound (((f.f1 : Int) - f.f0) * (fxOne - c) / 2)).toNat

/-- A new move to `f1` from sample `s0` on, from where the factor stood at the sample before. -/
def Factor.move (f : Factor) (f1 len s0 : Nat) : Factor :=
  ⟨if s0 = 0 then f.f1 else f.at (s0 - 1), f1, s0, len⟩

end Sys2Proof.Machine
end

