-- ==== Sys2Proof/Machine/Units.lean ====
section
/-!
DEFINITION. Reading and replacing the hidden state of one unit by its index: the named operations over the per-index
records of State.
-/

namespace Sys2Proof.Machine

/-! ### Needle cores -/

def coreDefault : Nat → Core := fun _ => {}

def State.core (s : State) (c : Nat) : Core := Sparse.get coreDefault s.needle.cores c

def State.setCore (s : State) (c : Nat) (k : Core) : State :=
  { s with needle := { s.needle with cores := Sparse.set coreDefault s.needle.cores c k } }

/-! ### What pending events name -/

/-- A START that has been accepted for an object is pending (R319). -/
def State.startNamed (s : State) (o : Obj) : Bool :=
  s.sched.events.any (fun e => match e.act with | .start _ => e.members.contains o | _ => false)

/-- The state of a flow or port that comes to rest: STOPPED, or PENDING under a START that waits. -/
def State.restState (s : State) (o : Obj) : Nat := if s.startNamed o then 2 else 1

end Sys2Proof.Machine
end

