-- ==== Sys2Proof/Machine/Hooks.lean ====
section
/-!
DEFINITION. What each unit does when the engine falls back on its fallback resources, and what a BLKRST reaction
resets (R461).
-/

namespace Sys2Proof.Machine

/-! ### Entry to FALLBACK -/

/-- A Needle core halted with its registers at reset and its memories kept (R196). -/
def Core.halted (k : Core) : Core :=
  { pmem := k.pmem, xmem := k.xmem, ymem := k.ymem, poison := k.poison, sp0 := { buf := k.sp0.buf },
    sp1 := { buf := k.sp1.buf } }

/-- Flows leave every state but OFF for STOPPED (R323). -/
def State.netEnterFallback (s : State) : State :=
  let rx := s.net.rx.map (fun e => (e.1, if e.2.st = 0 then e.2 else ({ st := 1 } : RxFlow)))
  let tx := s.net.tx.map (fun e => (e.1, if e.2.st = 0 then e.2 else ({ st := 1 } : TxFlow)))
  let s := { s with net := { s.net with rx := rx, tx := tx, chan := [] } }
  let s := rx.foldl (fun (t : State) e => if e.2.st = 0 then t else t.setFld (R.NET_RXF_STAT e.1) F.NET_RXF_STAT_STATE 1) s
  tx.foldl (fun (t : State) e => if e.2.st = 0 then t
    else (t.setFld (R.NET_TXF_STAT e.1) F.NET_TXF_STAT_STATE 1).wrN (R.NET_TXF_SEQ e.1) 0) s

/-- The status register of the local port with key 64·KIND + index. -/
def portStat (key : Nat) : Nat :=
  if key < 64 then R.PORT_ARX_STAT key else if key < 128 then R.PORT_ATX_STAT (key - 64) else R.PORT_TDM_STAT (key - 128)

/-- A port in PENDING returns to STOPPED (R351). -/
def State.portsEnterFallback (s : State) : State :=
  let ps := s.port.ports.map (fun e => (e.1, if e.2.st = 2 then { e.2 with st := 1 } else e.2))
  let s := { s with port := { s.port with ports := ps } }
  ps.foldl (fun (t : State) e => t.setFld (portStat e.1) F.PORT_ATX_STAT_STATE e.2.st) s

/-- Pattern work is abandoned (R136, R151). -/
def State.seamEnterFallback (s : State) : State :=
  let s := { s with seam := { s.seam with ramps := [], outs := [], checking := none, sew := none, arming := false } }
  (s.setFld R.SEAM_STATUS F.SEAM_STATUS_BSTATE 0).setBit R.SEAM_STATUS F.SEAM_STATUS_GROUP false

/-- Each unit's action on entry to FALLBACK (R72, R151, R196, R323, R351, R415, R421): Shepherd is held in reset, the core
domain moves to XIN, and the outputs fade from the next media clock edge if they have not faded before (R257). -/
def enterFallback (s : State) : State :=
  let s := { s with sched := { s.sched with events := [] } }
  let s := s.seamEnterFallback.netEnterFallback.portsEnterFallback
  let s := { s with needle := { s.needle with cores := s.needle.cores.map (fun (e : Nat × Core) => (e.1, e.2.halted)) } }
  let a := s.alarm
  let s := { s with alarm := { a with players := [], out := [], change := none, fallen := none,
                                      fade := match a.fade with | some e => some e | none => some s.edge } }
  let s := { s with boot := { s.boot with fwRuns := false }, shep := {}, fc := { s.fc with trapPend := false } }
  s.setBit R.BELL_STATUS F.BELL_STATUS_CORE_XIN true

/-! ### BLKRST (R461) -/

/-- A core stops as at a trap, with CAUSE 0, and restarts as for RUN. -/
def State.resetCore (s : State) (c : Nat) : State :=
  let k := s.core c
  let stopped : Core :=
    { k with cause := 0, haltPc := k.pc, pend := [], flow := .none, slots := 0, rep := 0, wait := .none, halting := false,
             haltAtClose := false, fadeOut := k.fadeOut || k.st = .running || k.st = .waiting }
  let s := s.setCore c { stopped with st := .starting, startIn := if s.paired then 2 else 1 }
  s.setBitAt (if c < 32 then R.NEEDLE_TRAP_LO else R.NEEDLE_TRAP_HI) (c % 32) true

/-- SerDes and PCS of a port are reset: a link that was up is down. -/
def State.resetNetPort (s : State) (p : Nat) : State × List (Nat × Nat) :=
  let was := s.bit (R.NET_PORT_STAT p) F.NET_PORT_STAT_LINK
  let s := (s.setBit (R.NET_PORT_STAT p) F.NET_PORT_STAT_BLOCK_LOCK false).setBit (R.NET_PORT_STAT p)
    F.NET_PORT_STAT_LINK false
  if was then (s.setBitAt R.NET_FLAGS (9 + p) true, [(96, p)]) else (s, [])

/-- Framing, lock and ASRC estimate of a local port restart; it keeps its state. -/
def State.resetLocalPort (s : State) (key : Nat) : State :=
  let ps := s.port.ports.map (fun e =>
    (e.1, if e.1 = key then { e.2 with anchor := none, lockAt := 0, resume := none } else e.2))
  let s := { s with port := { s.port with ports := ps } }
  if key < 64 then
    (s.setBitAt R.PORT_AES_LOCK key false).setBit (R.PORT_ARX_STAT key) F.PORT_ARX_STAT_ASRC_LOCK false
  else if key < 128 then s.setBit (R.PORT_ATX_STAT (key - 64)) F.PORT_ATX_STAT_ASRC_LOCK false
  else s.setBit (R.PORT_TDM_STAT (key - 128)) F.PORT_TDM_STAT_ASRC_LOCK false

/-- The effect of BLKRST for the source and unit of an event (R461), and the events that follow from it. Units of local
ports carry 65,536·KIND; those of transmit flows carry 65,536. -/
def blkReset (f unit : Nat) (s : State) : State × List (Nat × Nat) :=
  if 48 ≤ f && f ≤ 53 then (s.resetCore (unit % 64), [])
  else if f = 96 then s.resetNetPort (unit % 4)
  else if 97 ≤ f && f ≤ 104 then
    let i := unit % 1024
    let map := s.rd (if f = 101 || f = 102 || 65536 ≤ unit then R.NET_TXF_MAP i else R.NET_RXF_MAP i)
    s.resetNetPort (map / 2 ^ 24 % 4)
  else if 112 ≤ f && f ≤ 120 then (s.resetLocalPort (64 * (unit / 65536) + unit % 64), [])
  else if f = 83 then
    let p := unit % 4
    let s := { s with ptp := { s.ptp with queues := Sparse.set (fun _ => []) s.ptp.queues p [] } }
    (s.setFld (R.PTP_TXTS_STAT p) F.PTP_TXTS_STAT_LEVEL 0, [])
  else if 208 ≤ f && f ≤ 210 then
    -- every channel is IDLE and the error registers are clear (R568)
    let s := (List.range 16).foldl (fun t c => t.wrN (R.DROVER_CH_STAT c) 0) { s with drover := [] }
    ((s.wr64 R.DROVER_ERR_ADDR_LO R.DROVER_ERR_ADDR_HI 0).wrN R.DROVER_ERR_INFO 0, [])
  else (s, [])

end Sys2Proof.Machine
end

