-- ==== Sys2Proof/Machine/Faults.lean ====
section
/-!
DEFINITION. Modes, duty, chip reset and the Fault Collector (R26 to R35, R446, R457 to R475, R578 to R580, R594,
R620): the one operation by which every rule raises a fault source, with the counting, escalation, record, pin and
reactions that follow it.
-/

namespace Sys2Proof.Machine

/-! ### Fault source numbers (R457) -/
namespace FS
def ADDR_UNMAPPED := 0
def LOCK_VIOL := 1
def SRAM_ECC_CE := 2
def SRAM_ECC_UE := 3
def NVS_ECC_CE := 4
def NVS_UE := 5
def DRAM_ECC_CE := 6
def DRAM_ECC_UE := 7
def DRAM_FAIL := 8
def BOOT_IMAGE_B := 9
def DIE_TEMP := 10
def BUS_TIMEOUT := 11
def QUILT_BUS_CLIP := 16
def QUILT_DWR_REJECT := 17
def LIFESAFE_VIOL := 18
def QUILT_ECC_CE := 19
def QUILT_LIVE_UE := 20
def QUILT_BASTE_UE := 21
def QUILT_GAIN_UE := 22
def QUILT_FRAME_UE := 23
def DLY_CFG_ERR := 24
def DLY_UNDERRUN := 25
def SEAM_SEW_FAIL := 32
def SEAM_FORCED := 33
def MSC_ANCHOR_ERR := 34
def SCHED_FULL := 35
def NEEDLE_OVERRUN := 48
def NEEDLE_TRAP := 49
def NEEDLE_WQ_FULL := 50
def NEEDLE_STREAM_ERR := 51
def NEEDLE_ECC_CE := 52
def NEEDLE_ECC_UE := 53
def BELL_REF_LOSS := 64
def BELL_REF_DISQ := 65
def BELL_REF_DISAGREE := 66
def BELL_SWITCH := 67
def BELL_HOLDOVER := 68
def BELL_FREERUN := 69
def BELL_JUMP := 70
def BELL_OPEN_WD := 71
def BELL_FREQ_CLAMP := 72
def BELL_APPLY_ERR := 73
def CORE_A_UNLOCK := 74
def CORE_B_UNLOCK := 75
def CORE_BOTH_UNLOCK := 76
def AUDIO_UNLOCK := 77
def NET_UNLOCK := 78
def TCXO_LOSS := 79
def PTP_STEP := 80
def PTP_STEP_ERR := 81
def PTP_APPLY_ERR := 82
def PTP_TXTS_OVF := 83
def PTP_TICK_DEG := 84
def NET_LINK_DOWN := 96
def NET_RX_FORMAT := 97
def NET_APPLY_ERR := 98
def NET_REALIGN := 99
def NET_RX_OOW := 100
def NET_TX_LATE := 101
def NET_TX_CLIP := 102
def NET_RX_UNDERRUN := 103
def NET_LEG_DOWN := 104
def PORT_APPLY_ERR := 112
def PORT_AES_UNLOCK := 113
def PORT_AES_CRC := 114
def PORT_AES_BLOCK := 115
def PORT_SLIP := 116
def PORT_RATE_ERR := 117
def PORT_ASRC_UNLOCK := 118
def PORT_CLIP := 119
def PORT_CLK_LOSS := 120
def LINE_CLIP := 128
def LINE_APPLY_ERR := 129
def LINE_SENSE_LOSS := 130
def LINE_CAL_ERR := 131
def LINE_SUPPLY := 132
def LINE_BAT_LOW := 133
def LINE_NTC_FAULT := 134
def LINE_THERM_STOP := 135
def LINE_OCP_TRIP := 136
def LINE_OCP_LOCK := 137
def LINE_SUP_SHORT := 138
def LINE_SUP_OPEN := 139
def LINE_SUP_EARTH := 140
def ALARM_ENTRY := 144
def ALARM_PAT_INVALID := 145
def ALARM_MSG_CRC := 146
def ALARM_MSG_MISSING := 147
def ALARM_MSG_DRAM := 148
def TWIN_SWITCHOVER := 160
def TWIN_HANDOVER := 161
def TWIN_DUAL_DUTY := 162
def TWIN_SYNC_FAIL := 163
def TWIN_DELTA_FULL := 164
def TWIN_MISMATCH := 165
def TWIN_REPORT_STALE := 166
def TWIN_LANE_LOSS := 167
def TWIN_LINK_DOWN := 168
def FAULTN_READBACK := 176
def FC_PARITY := 177
def SHEP_TRAP := 192
def SHEP_WDOG := 193
def SHEP_FATAL := 194
def FOLD_AUTH_FAIL := 195
def FOLD_OVERLOAD := 196
def FOLD_RATE := 197
def FOLD_RING_ERR := 198
def DROVER_BUS_ERR := 208
def DROVER_BUDGET := 209
def DROVER_DESC_ERR := 210
def CCU_MISMATCH := 224
def CCU_COMMIT_TIMEOUT := 225
def SW0 := 240
end FS

/-! ### SYS_MODE (R47) -/

-- Causes of SYS_MODE.CAUSE (R47).
namespace Cause
def reset := 0
def firmware := 1
def setMode := 2
def alarmInput := 3
def alarmCommand := 4
def switchOver := 5
def handover := 6
def coreApll := 7
def dram := 8
def liveUe := 9
def fwTrap := 10
def alarmRelease := 11
def noImage := 12
end Cause

/-- A change of MODE, RET_MODE, DUTY or FB_RES (R47): CAUSE is written at every change of one of them, TRANS_CNT counts
changes of MODE; a trigger that changes none of the four leaves the register as it was. -/
def State.setSys (s : State) (m ret : Mode) (duty fb : Bool) (cause : Nat) : State :=
  if m = s.mode && ret = s.retMode && duty = s.duty && fb = s.bit R.SYS_MODE F.SYS_MODE_FB_RES then s
  else
    let t := if m = s.mode then s else s.countFld R.SYS_MODE F.SYS_MODE_TRANS_CNT
    ((((t.setFld R.SYS_MODE F.SYS_MODE_MODE m.code).setFld R.SYS_MODE F.SYS_MODE_RET_MODE ret.code).setBit
        R.SYS_MODE F.SYS_MODE_DUTY duty).setBit R.SYS_MODE F.SYS_MODE_FB_RES fb).setFld
      R.SYS_MODE F.SYS_MODE_CAUSE cause

/-- The engine drives its outputs (R428). -/
def State.drives (s : State) : Bool := s.duty && !s.pins.dutyIn

/-- A fault release holds the outputs: its edge F has come (R446, R448). -/
def State.releasing (s : State) : Bool := decide (s.twin.release ≠ .none) && decide (s.twin.releaseAt ≤ s.msc)

/-- The sample of the fade of R257 that the next edge delivers. -/
def State.fading (s : State) : Option Nat :=
  match s.alarm.fade with
  | some f => if f ≤ s.edge then some (s.edge - f) else none
  | none => none

/-- The engine runs on fallback resources (R47). -/
def State.fbRes (s : State) : Bool := s.bit R.SYS_MODE F.SYS_MODE_FB_RES

/-- A change of MODE alone. -/
def State.setMode (s : State) (m : Mode) (cause : Nat) : State := s.setSys m s.retMode s.duty s.fbRes cause

/-! ### The FAULT_N pin (R467) -/

/-- The sources of one 32-bit word of FAULT_RAISED that are RAISED or SEVERE with PIN in their current set. -/
def pinWord (s : State) (w : Nat) : Bool :=
  (List.range 32).any (fun k =>
    s.bitAt (R.FAULT_RAISED w) k &&
      (let f := 32 * w + k
       let c := s.rd (R.FAULT_SRC_CFG f)
       if s.fld (R.FAULT_SRC_STAT f) F.FAULT_SRC_STAT_STATE = 2 then c / 2 ^ 12 % 2 = 1 else c / 2 ^ 4 % 2 = 1))

/-- The conditions that hold FAULT_N low. -/
def State.pinWants (s : State) : Bool :=
  s.mode = .boot || s.mode = .fallback || s.bit R.FAULT_CTRL F.FAULT_CTRL_PIN_FORCE ||
    (List.range 8).any (fun w => s.rd (R.FAULT_RAISED w) ≠ 0 && pinWord s w)

/-- The engine drives FAULT_N low: a condition holds, or the 10 ms of the pin's minimum low time have not passed. -/
def State.pinLow (s : State) : Bool := s.pinWants || s.fc.pinMin

/-- Once driven low the pin starts its minimum low time. -/
def State.pinSync (s : State) : State :=
  if s.pinWants then { s with fc := { s.fc with pinMin := true } } else s

/-- A pin that is released arms the check of R468 anew. -/
def State.pinReleased (s : State) : State :=
  if s.pinLow then s else { s with fc := { s.fc with rbRaised := false } }

/-! ### Chip reset (R578 to R580, R594) -/

/-- What a chip reset keeps and what it clears: registers take their reset values but for the reset cause and count;
every memory is zero but NVS and fuses; DRAM takes a new key; the queue of commands, the pins and what has been sent
are outside the reset. -/
def State.cleared (s : State) : State :=
  { State.reset with
    pending := s.pending
    out := s.out
    freeCtr := s.freeCtr
    pins := s.pins
    mem := { nvs := s.mem.nvs, otp := s.mem.otp, boot := s.mem.boot, dramFit := s.mem.dramFit,
             dramKey := s.mem.dramKey + 1 } }

/-- A chip reset with its cause and, for causes 3 and 4, the fault source (R578). A cause that arrives while a reset
is in progress restarts the sequence and leaves the recorded cause. -/
def State.chipReset (s : State) (cause src : Nat) : State :=
  let inProgress := s.boot.stage = .reset && s.mode = .boot
  let c := if inProgress then s.rd R.SYS_RST_CAUSE else (cause + src % 256 * 256)
  let n := s.rd R.SYS_RST_CNT
  ((s.cleared.wrN R.SYS_RST_CAUSE c).wrN R.SYS_RST_CNT (min 0xFFFFFFFF (n + 1)))

/-- The power-on reset clears cause and count before it records code 0 (R580); whether it counts itself is not stated:
the count is 0 after it (R580, DEDUCED). -/
def State.powerOnReset (s : State) : State := s.cleared

/-! ### Giving up duty (R446) -/

/-- A fault release: outputs hold from the next edge F, duty and outputs go 48 ns before edge F + 1. -/
def State.startRelease (s : State) (r : Release) : State :=
  { s with twin := { s.twin with release := r, releaseAt := s.msc + 1 } }

/-- A CHIPRST reaction (R471): a fault release first when the engine holds duty and its partner is ready. -/
def State.chipRstReaction (s : State) (cause src : Nat) : State :=
  if s.duty && s.partnerReady then s.startRelease (.reset cause src) else s.chipReset cause src

/-! ### The Fault Collector (R460 to R472) -/

/-- CAUSE code of a source that is a FALLBACK condition (R459); none for the others. -/
def fallbackCause (f : Nat) : Option Nat :=
  if f = FS.DRAM_FAIL then some Cause.dram else if f = FS.QUILT_LIVE_UE then some Cause.liveUe
  else if f = FS.CORE_BOTH_UNLOCK then some Cause.coreApll else if f = FS.SHEP_FATAL then some Cause.fwTrap else none

/-- Whether the BLKRST bit of a source acts (R461). -/
def blkRstActs (f : Nat) : Bool :=
  (48 ≤ f && f ≤ 53) || (96 ≤ f && f ≤ 104) || (112 ≤ f && f ≤ 120) || f = 83 || (208 ≤ f && f ≤ 210)

/-- The configuration word an event reads: the source's own, or its reset value while PAR_ERR stands (R464). -/
def State.srcCfg (s : State) (f : Nat) : Nat :=
  if s.bit (R.FAULT_SRC_STAT f) F.FAULT_SRC_STAT_PAR_ERR then faultCfgReset f else s.rd (R.FAULT_SRC_CFG f)

/-- The record of R465: an event opens it, or merges into the open one. -/
def State.recordEvent (s : State) (f info st react held : Nat) (severeNow : Bool) : State :=
  if !s.bit R.FAULT_STATUS F.FAULT_STATUS_REC_OPEN then
    let t := s.setBit R.FAULT_STATUS F.FAULT_STATUS_REC_OPEN true
    let t := t.wrN R.FAULT_REC_SRC (f + st * 2 ^ 8 + react * 2 ^ 16 + held * 2 ^ 24)
    let t := (t.wrN R.FAULT_REC_INFO info).wr64 R.FAULT_REC_MSC_LO R.FAULT_REC_MSC_HI s.msc
    let t := t.wrN R.FAULT_REC_MERGE_CNT 0
    let t := (List.range 8).foldl (fun u w => u.wrN (R.FAULT_REC_MAP w) 0) t
    { t with fc := { t.fc with trapPend := false } }
  else
    let t := s.wrN R.FAULT_REC_MERGE_CNT (min 65535 (s.rd R.FAULT_REC_MERGE_CNT + 1))
    let t := if f = s.fld R.FAULT_REC_SRC F.FAULT_REC_SRC_SRC then t
      else t.setBitAt (R.FAULT_REC_MAP (f / 32)) (f % 32) true
    if severeNow then t.setBit R.FAULT_REC_SRC F.FAULT_REC_SRC_ESC true else t

/-- A TRAP is delivered to Shepherd unless firmware does not run or one of the open record waits (R469). -/
def State.deliverTrap (s : State) (f info : Nat) : State :=
  if s.fc.trapPend || !s.boot.fwRuns || s.mode = .fallback || s.fbRes then s
  else { s with fc := { s.fc with trapPend := true, traps := (f, info) :: s.fc.traps } }

/-- One event of a source in the Fault Collector, up to and without its mode, reset and BLKRST effects; answers the
state and the set of reactions to take. -/
def State.collect (s : State) (f unit detail : Nat) : State × Nat :=
  let info := unit % 65536 + detail % 65536 * 65536
  let cfg := s.srcCfg f
  let n := cfg / 2 ^ 24 % 256
  let stat := R.FAULT_SRC_STAT f
  let st := s.fld stat F.FAULT_SRC_STAT_STATE
  let wc := min 255 (s.fld stat F.FAULT_SRC_STAT_WCOUNT + 1)
  let st' := if st = 2 || n ≤ wc then 2 else 1
  let set := if st' = 2 then cfg / 2 ^ 8 % 32 else cfg % 32
  -- PIN is a level: it is a reaction of the event that enters the state
  let set := if st' = st then set % 16 else set
  let set := if blkRstActs f then set else set - set / 4 % 2 * 4
  let hold := set / 8 % 2 = 1 && s.bit R.FAULT_CTRL F.FAULT_CTRL_LS_GUARD && s.mode = .alarm && s.duty &&
    !s.partnerReady
  let held := if hold then 8 else 0
  let set := set - held
  let t := s.count (R.FAULT_SRC_CNT f)
  let t := (t.setFld stat F.FAULT_SRC_STAT_WCOUNT wc).setFld stat F.FAULT_SRC_STAT_STATE st'
  let t := t.setBitAt (R.FAULT_RAISED (f / 32)) (f % 32) true
  let t := if st' = 2 then t.setBitAt (R.FAULT_SEVERE (f / 32)) (f % 32) true else t
  let t := if set % 2 = 1 then t.setBitAt (R.FAULT_PEND (f / 32)) (f % 32) true else t
  let t := if hold then t.flag R.FAULT_FLAGS F.FAULT_FLAGS_CHIPRST_HELD else t
  let t := t.recordEvent f info st' set held (st' = 2 && st ≠ 2)
  let t := if set / 2 % 2 = 1 then t.deliverTrap f info else t
  (t.pinSync, set)

/-- Inputs that are active (R396, R403): enabled, not suppressed, and latched, or non-latching and asserted. -/
def State.activeInputs (s : State) : List Nat :=
  (List.range 32).filter (fun a =>
    s.bit (R.ALARM_IN_CFG a) F.ALARM_IN_CFG_EN && !s.bitAt R.ALARM_IN_SUPP a &&
      (s.bitAt R.ALARM_IN_LATCH a ||
        (!s.bit (R.ALARM_IN_CFG a) F.ALARM_IN_CFG_LATCH && s.bitAt R.ALARM_IN_STATE a)))

/-- BOOT is left to FALLBACK, or in the same sample to ALARM when an alarm input is latched (R27, R31); with duty while
DUTY_IN is deasserted (R444, R620). -/
def State.bootFallback (s : State) (cause : Nat) : State :=
  let s := { s with boot := { s.boot with stage := .done } }
  let duty := !s.pins.dutyIn
  if s.activeInputs.isEmpty then enterFallback (s.setSys .fallback s.retMode duty true cause)
  else
    let s := enterFallback (s.setSys .alarm .fallback duty true Cause.alarmInput)
    let s := (s.wr64 R.ALARM_ENTRY_MSC_LO R.ALARM_ENTRY_MSC_HI s.msc).count R.ALARM_ENTRY_CNT
    ((s.flag R.ALARM_FLAGS F.ALARM_FLAGS_ENTRY).collect FS.ALARM_ENTRY 0 0).1

/-- The mode effect of a FALLBACK condition (R27), with its code of SYS_MODE.CAUSE and its source. -/
def State.fallbackNow (s : State) (cause src : Nat) : State :=
  match s.mode with
  | .boot =>
    if s.pins.dutyIn then s.chipReset 4 src
    else if s.pins.roleB then
      -- a role-B engine waits 96 samples before it leaves BOOT (R444)
      { s with boot := { s.boot with stage := .waitRoleB, cond := some (cause, src) } }
    else s.bootFallback cause
  | .service =>
    if s.partnerReady then s.startRelease (.reset 4 src)
    else enterFallback (s.setSys .fallback s.retMode false true cause)
  | .commission =>
    if !s.partnerReady then enterFallback (s.setSys .fallback s.retMode false true cause)
    else if s.duty then s.startRelease (.reset 4 src)
    else s.chipReset 4 src
  | .standby => s.chipReset 4 src
  | .alarm =>
    if s.duty && s.partnerReady then s.startRelease (.reset 4 src)
    else if s.retMode = .fallback then s
    else enterFallback (s.setSys .alarm .fallback false true cause)
  | .fallback => s
  | .reserved => s

/-- A FALLBACK condition acts under R27; after the loss of both CORE APLLs it acts when the outputs have faded, unless the
partner takes duty (R257). -/
def State.fallbackCond (s : State) (cause src : Nat) : State :=
  if cause = Cause.coreApll && (s.mode = .service || s.mode = .commission || s.mode = .alarm) && !s.partnerReady &&
      !s.fbRes && s.alarm.fade.isNone then
    { s with alarm := { s.alarm with fade := some s.edge, fallen := some (cause, src) } }
  else s.fallbackNow cause src

/-- An event that follows from a BLKRST: collected, with its CHIPRST reaction. -/
def State.raiseAfter (s : State) (f unit : Nat) : State :=
  let r := s.collect f unit 0
  if r.2 / 8 % 2 = 1 then r.1.chipRstReaction 3 f else r.1

/-- A rule raises a source (R457, R458): the event is collected, then BLKRST, the mode effect of a FALLBACK condition
(R459) and CHIPRST act. A reserved source never raises an event. -/
def State.raise (s : State) (f unit detail : Nat) : State :=
  if !faultNamed f then s
  else
    let r := s.collect f unit detail
    let t :=
      if r.2 / 4 % 2 = 1 then
        let b := blkReset f unit r.1
        b.2.foldl (fun (u : State) e => u.raiseAfter e.1 e.2) b.1
      else r.1
    let t := match fallbackCause f with
      | some c => t.fallbackCond c f
      | none => t
    if r.2 / 8 % 2 = 1 then t.chipRstReaction 3 f else t.pinSync

/-- Number of sources in a state word set. -/
def countBits (w : Nat) : Nat := (List.range 32).foldl (fun n k => n + w / 2 ^ k % 2) 0

end Sys2Proof.Machine
end

