-- ==== Sys2Proof/Machine/Ecc.lean ====
section
/-!
DEFINITION. What the engine records at an ECC result (R544): the counters, the address and the information register,
the flags, and the fault source of the memory.
-/

namespace Sys2Proof.Machine

/-- Memory codes of SYS_ECC_INFO.MEM (R573). -/
def memFault (mem : Nat) (ue : Bool) : Nat :=
  if mem = 10 then (if ue then FS.NVS_UE else FS.NVS_ECC_CE)
  else if mem = 11 then (if ue then FS.DRAM_ECC_UE else FS.DRAM_ECC_CE)
  else (if ue then FS.SRAM_ECC_UE else FS.SRAM_ECC_CE)

/-- One ECC result: memory and master codes, whether the address is a DRAM one, the address, whether it is
uncorrectable, and the fault source that the rule names (none: the caller raises its own). -/
def State.eccResult (s : State) (mem master : Nat) (dram : Bool) (addr : Word) (ue : Bool) (src : Option Nat)
    (unit : Nat) : State :=
  let s := s.count (if ue then R.SYS_ECC_UE_CNT else R.SYS_ECC_CE_CNT)
  let s := s.wr R.SYS_ECC_ADDR addr
  let s := s.wrN R.SYS_ECC_INFO ((if ue then 2 ^ 31 else 0) + (if dram then 2 ^ 28 else 0) + master % 16 * 2 ^ 16 +
    mem % 16)
  let s := s.flag R.SYS_MEMFLAGS (if ue then F.SYS_MEMFLAGS_UE else F.SYS_MEMFLAGS_CE)
  match src with
  | some f => s.raise f unit 0
  | none => s

/-- The controller has failed (R553, R556): USABLE reads 0 from then on. -/
def State.dramFail (s : State) : State :=
  let s := (s.setBit R.SYS_DRAM_STAT F.SYS_DRAM_STAT_FAIL true).setFld R.SYS_DRAM_STAT F.SYS_DRAM_STAT_USABLE 0
  s.raise FS.DRAM_FAIL 0 0

/-- One uncorrectable DRAM word (R544, R556): the fourth within 96 samples is a failure of the controller. -/
def State.dramUe (s : State) (master a : Nat) (src : Option Nat) : State :=
  let s := s.eccResult 11 master true (BitVec.ofNat 32 (a / 4)) true src 0
  let recent := s.msc :: s.mem.dramUe.filter (fun m => s.msc < m + 96)
  let s := { s with mem := { s.mem with dramUe := recent.take 4 } }
  if 4 ≤ recent.length && !s.bit R.SYS_DRAM_STAT F.SYS_DRAM_STAT_FAIL then s.dramFail else s

/-- Memory code of a word of the Quilt memories. -/
def QWord.mem : QWord → Nat
  | .gain _ => 5
  | .frame _ _ => 6
  | _ => 4

/-- The address recorded for a word of the Quilt memories. -/
def QWord.addr : QWord → Word
  | .slot true key => BitVec.ofNat 32 (0xC0000000 + 8 * key)
  | .slot false key => BitVec.ofNat 32 (0xC1000000 + 8 * key)
  | .desc true k => BitVec.ofNat 32 (0x40140000 + 8 * k)
  | .desc false k => BitVec.ofNat 32 (0x40160000 + 8 * k)
  | .dmap true e => BitVec.ofNat 32 (0x40180000 + 4 * e)
  | .dmap false e => BitVec.ofNat 32 (0x40188000 + 4 * e)
  | .gain key => Config.eccAddr 5 key
  | .frame tile src => Config.eccAddr 6 (8192 * tile + src)

/-- What is recorded at an ECC result of a Quilt word; its fault source is that of R120. -/
def State.quiltEcc (s : State) (w : QWord) (master : Nat) (ue : Bool) : State :=
  s.eccResult w.mem master false w.addr ue none 0

end Sys2Proof.Machine
end

