-- ==== Sys2Proof/Machine/Dram.lean ====
section
/-!
DEFINITION. The bytes of DRAM and of the other memories that software addresses by bytes (R541, R553, R554): reads and
writes of one byte and of little-endian words (R11).
-/

namespace Sys2Proof.Machine

/-- A key's value replaced, without regard to what an unlisted key reads as: DRAM has no known content to remove. -/
def Sparse.put {α : Type} (m : Sparse α) (k : Nat) (v : α) : Sparse α := Sparse.insert (Sparse.erase m k) k v

/-- One DRAM byte; a byte not written under the current key is noise (R554). -/
def Mem.dramByte (m : Mem) (a : Nat) : Byte := Sparse.get (Config.dramNoise m.dramKey) m.dram a

def Mem.dramPut (m : Mem) (a : Nat) (v : Byte) : Mem := { m with dram := Sparse.put m.dram a v }

/-- A 32-bit word of DRAM, low byte first. -/
def Mem.dramWord (m : Mem) (a : Nat) : Word :=
  BitVec.ofNat 32 (ofLe ((List.range 4).map (fun j => (m.dramByte (a + j)).toNat)))

def Mem.dramPutWord (m : Mem) (a : Nat) (v : Word) : Mem :=
  (List.range 4).foldl (fun n j => n.dramPut (a + j) (BitVec.ofNat 8 (v.toNat / 2 ^ (8 * j)))) m

/-- Usable DRAM in bytes: zero until the controller has trained and after DRAM_FAIL (R553). -/
def State.dramUsable (s : State) : Nat := s.fld R.SYS_DRAM_STAT F.SYS_DRAM_STAT_USABLE * 2 ^ 29

def zeroByte : Nat → Byte := fun _ => 0#8

end Sys2Proof.Machine
end

