-- ==== Sys2Proof/Machine/Crc.lean ====
section
/-!
DEFINITION. CRC-32C over memories (R122, R138, R528): a run of zero bytes is taken in one multiplication, so that the CRC
of a sparse memory follows its listed words.
-/

namespace Sys2Proof.Machine

/-- The CRC register after one zero bit, as multiplication by x. -/
def crcMulX (c : Nat) : Nat := crcBit c

/-- Product of two CRC registers as polynomials, bit 31 the constant term. -/
def crcMulGo (a : Nat) : Nat → Nat → Nat → Nat
  | 0, _, acc => acc
  | n + 1, b, acc => crcMulGo a n (crcMulX b) (if a / 2 ^ n % 2 = 1 then acc ^^^ b else acc)

def crcMul (a b : Nat) : Nat := crcMulGo a 32 b 0

/-- x^(8·2^k). -/
def crcPow : Nat → Nat
  | 0 => 0x00800000
  | k + 1 => crcMul (crcPow k) (crcPow k)

/-- The register after `n` zero bytes; `bits` bounds the binary length of n. -/
def crcZerosGo (n : Nat) : Nat → Nat → Nat → Nat
  | 0, _, c => c
  | k + 1, p, c => crcZerosGo (n / 2) k (crcMul p p) (if n % 2 = 1 then crcMul c p else c)

def crcZeros (n c : Nat) : Nat := crcZerosGo n 40 0x00800000 c

/-- The register after the words `from … upto−1` of a sparse memory of `w`-byte words whose unlisted words are zero. -/
def crcWords (w : Nat) (upto : Nat) : Nat → List (Nat × Nat) → Nat → Nat
  | pos, [], c => crcZeros (w * (upto - pos)) c
  | pos, (k, v) :: m, c => crcWords w upto (k + 1) m ((leBytes w v).foldl crcByte (crcZeros (w * (k - pos)) c))

/-- CRC-32C of a bank in the order of R138: stitch store, descriptor table, destination map. -/
def Bank.crc (b : Bank) : Nat :=
  let c := crcWords 8 (16 * 65536) 0 (b.slots.map (fun e => (e.1, e.2.toNat))) 0xFFFFFFFF
  let c := crcWords 8 (4 * 4096) 0 (b.desc.map (fun e => (e.1, e.2.toNat))) c
  crcWords 4 8192 0 (b.dmap.map (fun e => (e.1, e.2.toNat))) c ^^^ 0xFFFFFFFF

end Sys2Proof.Machine
end

