-- ==== Sys2Proof/Machine/ConfigRegs.lean ====
section
/-!
DEFINITION. The CONFIG registers (R529): the rows the CCU covers, their addresses in ascending order, and the word that the
CCU reads of each.
-/

namespace Sys2Proof.Machine

/-- First addresses of the rows of R529. -/
def configBases : List Nat := [
  0x40000014, 0x40000018, 0x40100000, 0x40100024, 0x40110000, 0x40190000, 0x40190004, 0x40190008,
  0x4019000C, 0x401A0000, 0x401A0004, 0x401A0008, 0x401A000C, 0x40200000, 0x40280000, 0x40400000,
  0x40400004, 0x40400008, 0x4040000C, 0x40400010, 0x40400014, 0x40400018, 0x4040004C, 0x40400050,
  0x40400060, 0x40410000, 0x40410004, 0x40410008, 0x4041000C, 0x40500040, 0x40520000, 0x40520004,
  0x40520008, 0x40600008, 0x40600100, 0x40600104, 0x40600108, 0x4060010C, 0x40610000, 0x40610004,
  0x40610008, 0x4061000C, 0x40610010, 0x40610014, 0x40610018, 0x4061001C, 0x40610020, 0x40620000,
  0x40620004, 0x40620008, 0x4062000C, 0x40620010, 0x40620014, 0x40620018, 0x4062001C, 0x40710000,
  0x40720000, 0x40720040, 0x40720060, 0x40720080, 0x407200A0, 0x40730000, 0x40730004, 0x40730008,
  0x40730100, 0x40730180, 0x40800000, 0x40800014, 0x40800018, 0x4080001C, 0x40800020, 0x40800100,
  0x40810000, 0x40810004, 0x40810008, 0x4081000C, 0x40810010, 0x40810014, 0x40900100, 0x40A00000,
  0x40A00100, 0x40A00104, 0x40A00108, 0x40B00000, 0x40B10000, 0x40B10004, 0x40B10008, 0x40C00000,
  0x40C0000C, 0x40C10000, 0x40C10004, 0x40C10008, 0x40C1000C, 0x40C10010, 0x40C10014, 0x40C10018]

/-- The addresses of the registers of a row. -/
def RegSpec.addrs (r : RegSpec) : List Nat :=
  (List.range r.count).flatMap (fun i => (List.range r.count2).map (fun j => r.addr + r.stride * i + r.stride2 * j))

/-- The register at `a` belongs to CONFIG. -/
def isConfig (a : Nat) : Bool :=
  match regSpec? a with
  | some r => configBases.contains r.addr
  | none => false

/-- Every CONFIG register in ascending privileged address. -/
def configAddrs : List Nat :=
  (configBases.flatMap (fun b => match regSpec? b with | some r => r.addrs | none => [])).mergeSort (· ≤ ·)

/-- The word that the CCU reads of a CONFIG register: RO, W1C and reserved fields, BELL_REF_CFG.SW_VALID and
BELL_CTRL.OPEN as zero. -/
def State.configWord (s : State) (a : Nat) : Nat :=
  let m := match regSpec? a with | some r => r.wmask | none => 0
  let v := s.rd a &&& m
  if a = R.BELL_CTRL then F.BELL_CTRL_OPEN.put v 0
  else if 0x40410000 ≤ a && a < 0x40410200 && a % 32 = 0 then F.BELL_REF_CFG_SW_VALID.put v 0
  else v

end Sys2Proof.Machine
end

