-- ==== Sys2Proof/Machine/CcuOps.lean ====
section
/-!
DEFINITION. The region states of the Configuration Check Unit and what changes them (R528 to R534).
-/

namespace Sys2Proof.Machine

/-- State of a region (R539): 0 NOREF, 1 CHECKED, 2 GRACE. -/
def State.ccuState (s : State) (r : Nat) : Nat := s.rd R.CCU_STATUS / 2 ^ (2 * r) % 4

def State.setCcuState (s : State) (r v : Nat) : State := s.setFld R.CCU_STATUS ⟨2 * r + 1, 2 * r⟩ v

def State.ccuAdopt (s : State) (r : Nat) : Bool := s.bitAt R.CCU_STATUS (8 + r)

def State.setCcuAdopt (s : State) (r : Nat) (b : Bool) : State := s.setBitAt R.CCU_STATUS (8 + r) b

/-- The GRACE deadline of a region (R539): all ones when none runs. -/
def State.ccuDeadline (s : State) (r : Nat) : Nat := s.rd64 (R.CCU_DEADLINE_LO r) (R.CCU_DEADLINE_HI r)

def State.setCcuDeadline (s : State) (r v : Nat) : State := s.wr64 (R.CCU_DEADLINE_LO r) (R.CCU_DEADLINE_HI r) v

def noDeadline : Nat := 2 ^ 64 - 1

/-- A change of a byte of a region (R530). -/
def State.ccuChange (s : State) (r : Nat) : State :=
  let s := { s with ccu := { s.ccu with changed := s.ccu.changed.set r true, whole := s.ccu.whole.set r false } }
  if s.ccuState r = 1 then
    let s := (s.setCcuState r 2).setCcuDeadline r (s.msc + 96000)
    { s with ccu := { s.ccu with timedOut := s.ccu.timedOut.set r false } }
  else s

/-- A write that may change a word of CONFIG. -/
def State.ccuConfigChange (old new : State) (a : Nat) : State :=
  if isConfig a && old.configWord a ≠ new.configWord a then new.ccuChange 2 else new

/-- A captured group of CONFIG registers becomes active: a change of region 2 where a word differs (R530). -/
def State.activateConfig (s : State) (captured : List (Nat × Word)) : State :=
  let t := s.activate captured
  if captured.any (fun e => isConfig e.1 && s.configWord e.1 ≠ t.configWord e.1) then t.ccuChange 2 else t

/-- A group that becomes active at its APPLY (R515). -/
def State.takeConfig (s : State) (g : List Nat) : State :=
  (s.activateConfig (g.map (fun a => (a, s.shadowOf a)))).dropShadows g

/-- COMMITTED (R532): the condition "CCU reference committed" of R27. -/
def State.ccuCommitted (s : State) : Bool :=
  s.rd R.CCU_STATUS % 64 = 0b010101 && s.rd R.CCU_STATUS / 256 % 8 = 0

/-- OVL reads 1 while an overlay record lies in LIVE (R533). -/
def State.syncOvl (s : State) : State :=
  let o := !s.quilt.overlay.isEmpty
  let s := s.setBit R.CCU_STATUS F.CCU_STATUS_OVL o
  if o then { s with ccu := { s.ccu with ovlSeen := true } } else s

/-- R534: the fallback image has been applied, or LIVE left empty. -/
def State.ccuFallback (s : State) : State :=
  let s := [0, 1, 2].foldl (fun t r => ((t.setCcuState r 0).setCcuAdopt r true).setCcuDeadline r noDeadline) s
  let s := s.setBit R.CCU_STATUS F.CCU_STATUS_FB true
  { s with ccu := { s.ccu with adopting := [false, false, false], changed := [true, true, true],
                               whole := [false, false, false] } }

/-- The bytes of a region as they stand (R528): its CRC. -/
def State.regionCrc (s : State) (r : Nat) : Nat :=
  match r with
  | 0 => s.quilt.live.crc
  | 1 =>
    ((List.range 64).foldl (fun c k =>
      crcWords 4 16384 0 ((Sparse.get (fun _ => ({} : Core)) s.needle.cores k).pmem.map (fun e => (e.1, e.2.toNat))) c)
      0xFFFFFFFF) ^^^ 0xFFFFFFFF
  | _ => (configAddrs.foldl (fun c a => (leBytes 4 (s.configWord a)).foldl crcByte c) 0xFFFFFFFF) ^^^ 0xFFFFFFFF

end Sys2Proof.Machine
end

