-- ==== Sys2Proof/Machine/Bell.lean ====
section
/-!
DEFINITION. Bellwether (R227 to R267): monitors and qualification, selection, the loop, the phase offset, holdover and
free run, the software-closed loop, the dividers and SYNC_IN.
-/

namespace Sys2Proof.Machine

/-! ### Reading and writing the unit's state -/

def refDefault : Nat → RefIn := fun _ => {}

def State.refIn (s : State) (n : Nat) : RefIn := Sparse.get refDefault s.bell.refs n

def State.setRefIn (s : State) (n : Nat) (r : RefIn) : State :=
  { s with bell := { s.bell with refs := Sparse.set refDefault s.bell.refs n r } }

def State.refActive (s : State) (n : Nat) : Bool := s.bitAt R.BELL_QUAL (16 + n)
def State.refQual (s : State) (n : Nat) : Bool := s.bitAt R.BELL_QUAL n
def State.refEn (s : State) (n : Nat) : Bool := s.bit (R.BELL_REF_CFG n) F.BELL_REF_CFG_EN
def State.refPrio (s : State) (n : Nat) : Nat := s.fld (R.BELL_REF_CFG n) F.BELL_REF_CFG_PRIO
def State.refOutvoted (s : State) (n : Nat) : Bool := s.bitAt R.BELL_VOTE n
def State.refMeas (s : State) (n : Nat) : Bool := s.bit (R.BELL_REF_STAT n) F.BELL_REF_STAT_MEAS_VALID

/-- Gate time in seconds (R233). -/
def State.gate (s : State) (n : Nat) : Nat := 4 ^ s.fld (R.BELL_REF_CFG n) F.BELL_REF_CFG_GATE

/-- Gates that qualify an input (R234). -/
def State.gatesNeeded (s : State) (n : Nat) : Nat :=
  (s.fld (R.BELL_REF_CFG n) F.BELL_REF_CFG_QT + s.gate n - 1) / s.gate n

/-- QT_LEFT (R267): seconds left to qualification, 0 when qualified. -/
def State.syncQtLeft (s : State) (n : Nat) : State :=
  let left := if s.refQual n then 0 else (s.gatesNeeded n - (s.refIn n).clean) * s.gate n
  s.setFld (R.BELL_REF_STAT n) F.BELL_REF_STAT_QT_LEFT (min 4095 left)

/-- Loop state of R241. -/
def State.loop (s : State) : Nat := s.fld R.BELL_STATUS F.BELL_STATUS_STATE

/-- The selected reference, or none. -/
def State.curRef (s : State) : Option Nat :=
  if s.bit R.BELL_STATUS F.BELL_STATUS_REF_VALID then some (s.fld R.BELL_STATUS F.BELL_STATUS_ACTIVE_REF) else none

def State.setCurRef (s : State) (c : Option Nat) : State :=
  match c with
  | some n => (s.setBit R.BELL_STATUS F.BELL_STATUS_REF_VALID true).setFld R.BELL_STATUS F.BELL_STATUS_ACTIVE_REF n
  | none => (s.setBit R.BELL_STATUS F.BELL_STATUS_REF_VALID false).setFld R.BELL_STATUS F.BELL_STATUS_ACTIVE_REF 0

/-! ### Qualification (R232 to R237) -/

/-- A qualified input is disqualified (R234): LAST_DISQ code 1 activity, 2 REJECT. -/
def State.disqualify (s : State) (n code : Nat) : State :=
  if !s.refQual n then s
  else
    let s := (s.setBitAt R.BELL_QUAL n false).setFld (R.BELL_REF_STAT n) F.BELL_REF_STAT_LAST_DISQ code
    if s.refEn n then (s.flag R.BELL_FLAGS F.BELL_FLAGS_REF_DISQ).raise FS.BELL_REF_DISQ n code else s

/-- An input changes from active to inactive (R232, R234). -/
def State.refInactive (s : State) (n : Nat) : State :=
  if !s.refActive n then s
  else
    let s := (s.setBitAt R.BELL_QUAL (16 + n) false).setRefIn n { s.refIn n with clean := 0, skip := true }
    let s := s.setBit (R.BELL_REF_STAT n) F.BELL_REF_STAT_MEAS_VALID false
    let s := (s.disqualify n 1).syncQtLeft n
    if s.refEn n then (s.flag R.BELL_FLAGS F.BELL_FLAGS_REF_LOSS).raise FS.BELL_REF_LOSS n 0 else s

/-- An input becomes active (R230, R232): the gate under way is discarded. -/
def State.refBecomesActive (s : State) (n : Nat) : State :=
  if s.refActive n then s
  else (s.setBitAt R.BELL_QUAL (16 + n) true).setRefIn n { s.refIn n with clean := 0, skip := true }

/-- The increment of a time base in force (R269). -/
def State.tbInc (s : State) (t : Nat) : Nat := s.rd (R.PTP_TB_INC_LO t) + s.rd (R.PTP_TB_INC_HI t) * 2 ^ 32

/-- REFIN0 to REFIN7 are active while SW_VALID = 1 and the time base has an increment (R230). -/
def State.syncTbRef (s : State) (n : Nat) : State :=
  if 8 ≤ n then s
  else if s.bit (R.BELL_REF_CFG n) F.BELL_REF_CFG_SW_VALID && s.tbInc n ≠ 0 then s.refBecomesActive n
  else s.refInactive n

/-- REF_ACTIVITY_LOSS (R232): an input shows no edge for MISS periods. Time-base inputs follow SW_VALID instead. -/
def execRefActivityLoss (n : Fin 16) (s : State) : Res :=
  .next (if n.val < 8 then s.syncTbRef n else s.refInactive n)

/-- REFERENCE_ACTIVE (R232): an input becomes active at its next edge; REFIN10 and REFIN11 only while their AES3
receiver is locked (R230). -/
def execReferenceActive (n : Fin 16) (s : State) : Res :=
  .next (if n.val < 8 then s.syncTbRef n
    else if (n.val = 10 || n.val = 11) && !s.bit (R.PORT_ARX_STAT (n.val - 10)) F.PORT_ARX_STAT_LOCK then s
    else s.refBecomesActive n)

/-- |num| ≤ lim·den. -/
def within (r : RefIn) (lim : Nat) : Bool := decide (r.num.natAbs ≤ lim * r.den)

/-- Whether two results differ by more than CROSS. -/
def apart (a b : RefIn) (cross : Nat) : Bool :=
  decide (cross * a.den * b.den < (a.num * (b.den : Int) - b.num * (a.den : Int)).natAbs)

/-- The pairs that disagree (R236): both qualified, enabled and measured, of equal PRIO. -/
def State.disagreeing (s : State) : List (Nat × Nat) :=
  let cross := s.fld R.BELL_CROSS F.BELL_CROSS_CROSS
  let ok (n : Nat) : Bool := s.refQual n && s.refEn n && s.refMeas n
  (List.range 16).flatMap (fun a => ((List.range 16).filter (fun b =>
    a < b && ok a && ok b && s.refPrio a = s.refPrio b && apart (s.refIn a) (s.refIn b) cross)).map (fun b => (a, b)))

/-- The outvoted inputs (R237). -/
def State.outvotedMask (s : State) (pairs : List (Nat × Nat)) : Nat :=
  if !s.bit R.BELL_CTRL F.BELL_CTRL_VOTE then 0
  else
    (List.range 16).foldl (fun m p =>
      let mem := (List.range 16).filter (fun n => s.refQual n && s.refEn n && s.refPrio n = p)
      let out := mem.filter (fun n =>
        mem.length - 1 < 2 * (pairs.filter (fun q => (q.1 = n && mem.contains q.2) || (q.2 = n && mem.contains q.1))).length)
      if 3 ≤ mem.length && out.length < mem.length then out.foldl (fun m n => m ||| 2 ^ n) m else m) 0

/-- Agreement and votes re-evaluated at a gate end (R236, R237). -/
def State.agreement (s : State) : State :=
  let now := s.disagreeing
  let fresh := now.filter (fun p => !s.bell.pairs.contains p)
  let s := { s with bell := { s.bell with pairs := now } }
  let bits := now.foldl (fun m p => m ||| 2 ^ p.1 ||| 2 ^ p.2) 0
  let s := (s.setFld R.BELL_VOTE F.BELL_VOTE_DISAGREE bits).setFld R.BELL_VOTE F.BELL_VOTE_OUTVOTED (s.outvotedMask now)
  let s := if now.isEmpty then s else s.flag R.BELL_FLAGS F.BELL_FLAGS_DISAGREE
  fresh.foldl (fun t _ => t.raise FS.BELL_REF_DISAGREE 0 0) s

/-- One gate result judged (R233, R234): `p` is N in units of 10^-9 periods. -/
def State.judgeGate (s : State) (n p : Nat) : State :=
  let f := s.fld (R.BELL_REF_NOM n) F.BELL_REF_NOM_NOM
  let den := max 1 (f * s.gate n)
  let num : Int := (p : Int) - (1000000000 * (f * s.gate n) : Nat)
  let r := { s.refIn n with num := num, den := den }
  let s := s.setRefIn n r
  let s := s.wr (R.BELL_REF_Y n) (BitVec.ofInt 32 (satS 32 (num.tdiv den)))
  let s := s.setBit (R.BELL_REF_STAT n) F.BELL_REF_STAT_MEAS_VALID true
  let clean := within r (s.fld (R.BELL_REF_ACCEPT n) F.BELL_REF_ACCEPT_LIMIT)
  let s := s.setRefIn n { r with clean := if clean then r.clean + 1 else 0 }
  if s.refQual n then
    if within r (s.fld (R.BELL_REF_REJECT n) F.BELL_REF_REJECT_LIMIT) then s
    else (s.setRefIn n { r with clean := 0 }).disqualify n 2
  else if s.refActive n && s.gatesNeeded n ≤ (s.refIn n).clean && clean then s.setBitAt R.BELL_QUAL n true
  else s

/-- FREQ_GATE_END (R233 to R237): limits accepted since the last gate take effect, the result is judged, and agreement
is re-evaluated. Monitors are frozen while TCXO_IN is lost (R260). -/
def execFreqGateEnd (n : Fin 16) (periods : Nat) (s : State) : Res :=
  if !s.pins.tcxoOk then .next s
  else
    let r := s.refIn n
    let s := match r.limits with
      | some (a, j) =>
        (s.activateConfig [(R.BELL_REF_ACCEPT n, a), (R.BELL_REF_REJECT n, j)]).setRefIn n { r with limits := none }
      | none => s
    let s :=
      if !s.refActive n then s
      else if (s.refIn n).skip then s.setRefIn n { s.refIn n with skip := false }
      else s.judgeGate n periods
    .next ((s.syncQtLeft n).agreement)

/-- A write to BELL_REF_APPLY (R235). -/
def State.refLimitApply (s : State) (n : Nat) : State :=
  let a := s.shadowOf (R.BELL_REF_ACCEPT n)
  let j := s.shadowOf (R.BELL_REF_REJECT n)
  let av := F.BELL_REF_ACCEPT_LIMIT.of a.toNat
  let jv := F.BELL_REF_REJECT_LIMIT.of j.toNat
  if av = 0 || jv ≤ av || 150000 < jv then
    let cap := match (s.refIn n).limits with
      | some (x, y) => [(R.BELL_REF_ACCEPT n, x), (R.BELL_REF_REJECT n, y)]
      | none => []
    let s := s.reloadShadows [R.BELL_REF_ACCEPT n, R.BELL_REF_REJECT n] cap
    (s.flag R.BELL_FLAGS F.BELL_FLAGS_APPLY_ERR).raise FS.BELL_APPLY_ERR 0 0
  else (s.setRefIn n { s.refIn n with limits := some (a, j), clean := 0 }).syncQtLeft n

def execRefLimitApply (n : Fin 16) (s : State) : Res := .next (s.refLimitApply n)

/-- SW_VALID_EXPIRY (R231): 2 s have passed since the last write of 1. -/
def execSwValidExpiry (n : Fin 8) (ms : Nat) (s : State) : Res :=
  if s.bit (R.BELL_REF_CFG n) F.BELL_REF_CFG_SW_VALID && 2000 ≤ ms then
    .next ((s.setBit (R.BELL_REF_CFG n) F.BELL_REF_CFG_SW_VALID false).syncTbRef n)
  else .next s

/-! ### Phase (R244, R245, R247) -/

/-- Frequency of the phase detector's period of an input, in Hz (R230, R245). -/
def State.refPeriodHz (s : State) (n : Nat) : Nat := if n < 8 then 1000 else s.fld (R.BELL_REF_NOM n) F.BELL_REF_NOM_NOM

/-- The time base that MSC is anchored to (R56). -/
def State.anchoredTb (s : State) : Option Nat :=
  if s.fld R.SCHED_STATUS F.SCHED_STATUS_STATE = 1 then some (s.fld R.SCHED_STATUS F.SCHED_STATUS_TB) else none

/-- A raw phase difference in 1/16 ns under R245: modulo the reference period into (−T/2, T/2], or as it is for the
anchored time base. -/
def State.phaseOf (s : State) (n : Nat) (raw : Int) : Int :=
  if s.anchoredTb = some n then raw
  else
    let f := s.refPeriodHz n
    if f = 0 then raw
    else
      let x := raw * f
      let t : Int := 16000000000
      -- the whole periods to take away: the result lies above −T/2 and at most at T/2
      let k := -((8000000000 - x) / t)
      rdiv (x - k * t) f

/-- BELL_PHASE_OFS (R247): O in ns. -/
def State.syncOfs (s : State) : State :=
  s.wr64 R.BELL_PHASE_OFS_LO R.BELL_PHASE_OFS_HI (wrapN 64 (s.bell.ofs.tdiv 16000))

/-- O set to a value in 1/16,000 ns and handled by POLICY, or pulled whatever POLICY says (R247, R249). -/
def State.setOfs (s : State) (o : Int) (pull : Bool) : State :=
  let s := ({ s with bell := { s.bell with ofs := o } } : State).syncOfs
  s.setBit R.BELL_STATUS F.BELL_STATUS_PULLING ((pull || s.bit R.BELL_CTRL F.BELL_CTRL_POLICY) && o ≠ 0)

/-- O := φ_out − φ_ref(r) (R247). -/
def State.zeroError (s : State) (n : Nat) (raw : Int) : State :=
  let s := s.setOfs (-(s.phaseOf n raw) * 1000) false
  { s with bell := { s.bell with lastPd := none, lockFor := 0 } }

/-! ### The loop (R241 to R244, R250 to R253) -/

/-- The largest and smallest word: ±200 ppm (R244). -/
def wordLimit : Int := 200000000

def clampWord (w : Int) : Int := if wordLimit < w then wordLimit else if w < -wordLimit then -wordLimit else w

/-- The word that takes effect at the next media clock edge (R246). -/
def State.nextWord (s : State) (w : Int) : State := { s with bell := { s.bell with next := some w } }

/-- A word limited under R244; the limit is reported while it acts and raised when it begins to act. -/
def State.limitedWord (s : State) (w : Int) : State :=
  let acts := clampWord w ≠ w
  let was := s.bit R.BELL_STATUS F.BELL_STATUS_FREQ_CLAMP
  let s := (s.nextWord (clampWord w)).setBit R.BELL_STATUS F.BELL_STATUS_FREQ_CLAMP acts
  if acts then
    let s := s.flag R.BELL_FLAGS F.BELL_FLAGS_FREQ_CLAMP
    if was then s else s.raise FS.BELL_FREQ_CLAMP 0 0
  else s

/-- The applied word (R253). -/
def State.word (s : State) : Int := (s.reg R.BELL_FREQ).toInt

/-- The word in force or about to be. -/
def State.wordNow (s : State) : Int := match s.bell.next with | some w => w | none => s.word

/-- The usable history entries (R250). -/
def State.usable (s : State) : List Int :=
  let avg := s.fld R.BELL_HO F.BELL_HO_AVG
  (s.bell.ring.filter (fun e => 64 ≤ s.bell.secs - e.1 && s.bell.secs - e.1 ≤ 64 + avg)).map (·.2)

def State.sufficient (s : State) : Bool := 16 ≤ s.usable.length

def State.freeTrim (s : State) : Int := (s.reg R.BELL_FREE_TRIM).toInt

/-- A change of the loop state: history needs a whole second of LOCKED, and no limit acts on a word that the loop does
not make. -/
def State.setLoop (s : State) (c : Nat) : State :=
  let s := s.setFld R.BELL_STATUS F.BELL_STATUS_STATE c
  let s := if c = 0 || c = 3 then s.setBit R.BELL_STATUS F.BELL_STATUS_FREQ_CLAMP false else s
  { s with bell := { s.bell with lockFor := 0, clean := s.bell.clean && c = 2,
                                 glide := if c = 0 then s.bell.glide else none } }

/-- The mean of `n` words (R250, R251): how an inexact mean is rounded is open. -/
def State.meanWord (s : State) (sum : Int) (n : Nat) : Int :=
  if sum % (n : Int) = 0 then sum / (n : Int) else sum / (n : Int) + ((s.freeVal % 2 : Nat) : Int)

/-- Entry to HOLDOVER (R251): the mean of the usable entries, fixed at entry. -/
def State.enterHoldover (s : State) : State :=
  let us := s.usable
  let s := if us.isEmpty then s else (s.nextWord (s.meanWord (us.foldl (· + ·) 0) us.length)).bump
  ((s.setLoop 3).flag R.BELL_FLAGS F.BELL_FLAGS_HOLDOVER).raise FS.BELL_HOLDOVER 0 0

/-- Entry to FREERUN (R242, R251, R252): from HOLDOVER the word glides to BELL_FREE_TRIM. -/
def State.enterFreerun (s : State) : State :=
  let from_ := s.wordNow
  let was := s.loop
  let s := s.setLoop 0
  let s := if was = 3 then { s with bell := { s.bell with glide := some (from_, 0) } } else s.nextWord s.freeTrim
  (s.flag R.BELL_FLAGS F.BELL_FLAGS_FREERUN).raise FS.BELL_FREERUN 0 0

/-- HOLDOVER or FREERUN as the history decides (R242). -/
def State.loseReference (s : State) : State := if s.sufficient then s.enterHoldover else s.enterFreerun

/-- The highest bandwidth step of a phase detector rate (R243), in µHz. -/
def bandwidths : List Nat := [1000, 1633, 2667, 4354, 7111, 11610, 18960, 30960, 50560, 82560, 134800, 220200, 359500,
  587000, 958500, 1565000, 2556000, 4173000, 6815000, 11130000, 18170000, 29670000, 48450000, 79140000, 129200000,
  211000000, 344500000, 562600000, 918600000, 1500000000, 2449000000, 4000000000]

def maxStep (fpd : Nat) : Nat := (bandwidths.filter (fun b => b ≤ fpd * 100000)).length - 1

/-- Phase detector rate of an input (R230). -/
def State.fpd (s : State) (n : Nat) : Nat := if n = 12 then 1000000 else s.refPeriodHz n

def State.syncBw (s : State) : State :=
  s.setBit R.BELL_STATUS F.BELL_STATUS_BW_CLAMPED (match s.curRef with
    | some n => maxStep (s.fpd n) < s.fld R.BELL_CTRL F.BELL_CTRL_BW
    | none => false)

/-! ### Selection (R238 to R240) -/

def State.cand (s : State) (n : Nat) : Bool := s.refEn n && s.refQual n && !s.refOutvoted n

/-- rank(r) + 1 of R238. -/
def State.rank (s : State) (n : Nat) : Nat :=
  if n = s.fld R.BELL_SEL F.BELL_SEL_REF_SEL then 0 else s.refPrio n + 1

/-- best(cand) of R238. -/
def State.best (s : State) : Option Nat :=
  let cs := (List.range 16).filter s.cand
  match cs.map s.rank with
  | [] => none
  | r :: rs =>
    let lo := rs.foldl min r
    let ms := cs.filter (fun n => s.rank n = lo)
    match s.curRef with
    | some c => if ms.contains c then some c else ms.head?
    | none => ms.head?

/-- A switch (R240): counted, flagged and raised. -/
def State.switched (s : State) : State :=
  ((s.count R.BELL_SWITCH_CNT).flag R.BELL_FLAGS F.BELL_FLAGS_SWITCH).raise FS.BELL_SWITCH 0 0

/-- A switch to a reference (R240, R242, R247). -/
def State.switchTo (s : State) (n : Nat) (raw : Int) : State :=
  let s := (s.setCurRef (some n)).zeroError n raw
  let s := if s.loop = 4 then s else s.setLoop 1
  let s := if s.fld R.BELL_SEL F.BELL_SEL_REF_SEL = n then s.setBit R.BELL_SEL F.BELL_SEL_REQ false else s
  s.syncBw.switched

/-- A switch to none (R240, R242). -/
def State.switchToNone (s : State) : State :=
  let s := (s.setCurRef none).syncBw
  let s := if s.loop = 1 || s.loop = 2 then s.loseReference else s
  s.switched

/-- SELECTION_EVAL (R238): `phases` are the raw phase differences φ_ref − φ_out of the sixteen inputs in 1/16 ns. -/
def execSelectionEval (phases : List Int) (s : State) : Res :=
  let sel := s.fld R.BELL_SEL F.BELL_SEL_REF_SEL
  let raw (n : Nat) : Int := phases.getD n 0
  let noBetter (s : State) : State := { s with bell := { s.bell with better := 0 } }
  if s.bit R.BELL_SEL F.BELL_SEL_REQ && s.cand sel then
    let s := noBetter s
    .next (if s.curRef = some sel then s.setBit R.BELL_SEL F.BELL_SEL_REQ false else s.switchTo sel (raw sel))
  else
    match s.curRef, s.best with
    | none, none => .next (noBetter s)
    | none, some b => .next ((noBetter s).switchTo b (raw b))
    | some c, best =>
      if !s.cand c then
        match best with
        | none => .next (noBetter s).switchToNone
        | some b => .next ((noBetter s).switchTo b (raw b))
      else
        match best with
        | none => .next (noBetter s)
        | some b =>
          if s.rank b < s.rank c then
            let s := { s with bell := { s.bell with better := s.bell.better + 1 } }
            if s.bit R.BELL_CTRL F.BELL_CTRL_REVERT &&
                1000 * s.fld R.BELL_SEL F.BELL_SEL_REVERT_WAIT < s.bell.better then
              .next ((noBetter s).switchTo b (raw b))
            else .next s
          else .next (noBetter s)

/-- A write to BELL_SEL.REF_SEL (R239). -/
def State.refSelWrite (s : State) (n : Nat) : State :=
  (s.setFld R.BELL_SEL F.BELL_SEL_REF_SEL n).setBit R.BELL_SEL F.BELL_SEL_REQ true

def execRefSelWrite (n : Fin 16) (s : State) : Res := .next (s.refSelWrite n)

/-! ### PD_UPDATE (R244 to R248) -/

/-- The pull of one update: |O| falls by SLOPE ns per second (R247). -/
def State.pull (s : State) : State :=
  if !s.bit R.BELL_STATUS F.BELL_STATUS_PULLING then s
  else
    let d : Int := 16 * s.fld R.BELL_PHASE F.BELL_PHASE_SLOPE
    let o := s.bell.ofs
    let o' := if 0 < o then max 0 (o - d) else min 0 (o + d)
    let s := ({ s with bell := { s.bell with ofs := o' } } : State).syncOfs
    s.setBit R.BELL_STATUS F.BELL_STATUS_PULLING (o' ≠ 0)

/-- A phase jump (R248): the part of the change that the frequency offset does not explain goes into O. -/
def State.jump (s : State) (n : Nat) (r explained : Int) : State :=
  match s.bell.lastPd with
  | some (m, l) =>
    let j := r - l - explained
    if m = n && (s.loop = 1 || s.loop = 2) && 16 * s.fld R.BELL_JUMP F.BELL_JUMP_THR < j.natAbs then
      ((s.setOfs (s.bell.ofs - j * 1000) false).flag R.BELL_FLAGS F.BELL_FLAGS_JUMP).raise FS.BELL_JUMP 0 0
    else s
  | none => s

/-- Lock and unlock by the tracking error (R242). -/
def State.lockStep (s : State) (e : Int) : State :=
  let w := 16000 * s.fld R.BELL_PHASE F.BELL_PHASE_LOCK_WIN
  if s.loop = 1 then
    let k := if e.natAbs ≤ w then s.bell.lockFor + 1 else 0
    if 1000 ≤ k then s.setLoop 2 else { s with bell := { s.bell with lockFor := k } }
  else if s.loop = 2 && 4 * w < e.natAbs then s.setLoop 1
  else s

/-- The word of an update: the loop's output in ACQUIRE and LOCKED, the trim or its glide in FREERUN. -/
def State.wordStep (s : State) (out : Int) : State :=
  match s.loop with
  | 0 =>
    match s.bell.glide with
    | some (a, k) =>
      if 64000 ≤ k + 1 then ({ s with bell := { s.bell with glide := none } } : State).nextWord s.freeTrim
      else
        ({ s with bell := { s.bell with glide := some (a, k + 1) } } : State).nextWord
          (rdiv (a * 64000 + (s.freeTrim - a) * ((k + 1 : Nat) : Int)) 64000)
    | none => s.nextWord s.freeTrim
  | 1 => s.limitedWord out
  | 2 => s.limitedWord out
  | _ => s

/-- The input whose phase an update shows: the selected reference, else REF_SEL (R245). -/
def State.pdRef (s : State) : Nat :=
  match s.curRef with
  | some c => c
  | none => s.fld R.BELL_SEL F.BELL_SEL_REF_SEL

/-- An update shows its phase and counts (R245). -/
def State.pdShow (s : State) (r : Int) : State :=
  let cap := 2147483647
  let pd := if cap < r then cap else if r < -cap then -cap else r
  (s.wr R.BELL_PD (BitVec.ofInt 32 pd)).wrN R.BELL_PD_SEQ (s.rd R.BELL_PD_SEQ + 1)

/-- A step of the time base is passed to O as it is (R277). -/
def State.pdStep (s : State) : State :=
  let d := s.bell.stepOfs
  if d = 0 then s else ({ s with bell := { s.bell with stepOfs := 0 } } : State).setOfs (s.bell.ofs - d * 16000) false

/-- The word of an update enters the running second (R250). -/
def State.pdCount (s : State) : State :=
  let ok := s.loop = 2 && !s.bit R.BELL_STATUS F.BELL_STATUS_PULLING && !s.bit R.BELL_STATUS F.BELL_STATUS_AUDIO_BYP
  { s with bell := { s.bell with clean := s.bell.clean && ok, sum := s.bell.sum + s.wordNow,
                                 count := s.bell.count + 1 } }

/-- What an update does when a reference is selected: a jump, which leaves out a step of the time base (R248, R277); the
lock and the pull. -/
def State.pdTrack (s : State) (n : Nat) (r explained : Int) : State :=
  let s := if s.curRef.isSome then s.jump n r explained else s
  let s := { s with bell := { s.bell with lastPd := some (n, r) } }
  if s.curRef.isSome then (s.lockStep (r * 1000 + s.bell.ofs)).pull else s

/-- PD_UPDATE (R244): `raw` is φ_ref − φ_out of the selected reference, or of REF_SEL, in 1/16 ns; `explained` the
change since the last update that the frequency offset explains; `out` the loop filter's output word. -/
def execPdUpdate (raw explained : Int) (out : Int) (s : State) : Res :=
  let r := s.phaseOf s.pdRef raw
  .next (((((s.pdShow r).pdStep.pdTrack s.pdRef r (explained + 16 * s.bell.stepOfs)).wordStep out).syncBw).pdCount)

/-- HISTORY_RECORD (R250): the mean applied word of a second spent wholly in LOCKED. -/
def execHistoryRecord (s : State) : Res :=
  let b := s.bell
  let secs := b.secs + 1
  let s :=
    if b.clean && b.count ≠ 0 then
      { s with bell := { b with secs := secs, ring := ((secs, s.meanWord b.sum b.count) :: b.ring).take 1024 } }.bump
    else { s with bell := { b with secs := secs } }
  let s := { s with bell := { s.bell with sum := 0, count := 0, clean := s.loop = 2 } }
  .next (s.setBit R.BELL_STATUS F.BELL_STATUS_HO_READY s.sufficient)

/-- HOLDOVER_LIMIT (R242): LIMIT seconds have passed in HOLDOVER. -/
def execHoldoverLimit (seconds : Nat) (s : State) : Res :=
  let l := s.fld R.BELL_HO F.BELL_HO_LIMIT
  .next (if s.loop = 3 && l ≠ 0 && l ≤ seconds then s.enterFreerun else s)

/-! ### The software-closed loop (R253) -/

/-- The loop leaves OPEN, or HOLDOVER after AUDIO bypass (R242, R247, R258). -/
def State.closeLoop (s : State) (raw : Int) : State :=
  match s.curRef with
  | some n => (s.zeroError n raw).setLoop 1
  | none => s.loseReference

/-- A write of BELL_CTRL.OPEN; `raw` is the phase of the selected reference at that moment. -/
def State.openWrite (s : State) (o : Bool) (raw : Int) : State :=
  let s := s.setBit R.BELL_CTRL F.BELL_CTRL_OPEN o
  if o then (if s.loop = 4 then s else s.setLoop 4)
  else if s.loop = 4 then s.closeLoop raw else s

def execLoopOpenWrite (open_ : Bool) (raw : Int) (s : State) : Res := .next (s.openWrite open_ raw)

/-- A write to BELL_FREQ (R253): ignored but in OPEN. -/
def State.freqWrite (s : State) (v : Word) : State := if s.loop = 4 then s.limitedWord v.toInt else s

def execBellFreqWrite (v : Word) (s : State) : Res := .next (s.freqWrite v)

/-- OPEN_WD_EXPIRY (R253): OPEN_WD seconds without a write to BELL_FREQ. -/
def execOpenWdExpiry (seconds : Nat) (raw : Int) (s : State) : Res :=
  if s.loop = 4 && s.fld R.BELL_CTRL F.BELL_CTRL_OPEN_WD ≤ seconds then
    .next (((s.openWrite false raw).flag R.BELL_FLAGS F.BELL_FLAGS_OPEN_WD).raise FS.BELL_OPEN_WD 0 0)
  else .next s

/-- A word that waits takes effect at a media clock edge (R246). -/
def State.bellEdge (s : State) : State :=
  match s.bell.next with
  | some w =>
    ({ s with bell := { s.bell with next := none } } : State).wr R.BELL_FREQ (BitVec.ofInt 32 w)
  | none => s

/-- R249: an anchor to the time base that is the selected reference sets O from RES and pulls it. -/
def State.anchorOfs (s : State) (tb : Nat) (res : Int) : State :=
  if s.curRef = some tb then
    -- −RES × 10^9 / (65,536 × 96,000) ns in 1/16,000 ns
    s.setOfs (rdiv (-res * 16000000000000) (65536 * 96000)) true
  else s

/-! ### APLLs and the audio bypass (R228, R229, R258) -/

/-- APLL_LOCK (R228): APLL 0 CORE-A, 1 CORE-B, 2 AUDIO, 3 NET first locks. The status bits that say where a domain
runs keep their reset value 0; a return from a bypass is the relock's (R256, R258). -/
def execApllLock (a : Fin 4) (s : State) : Res := .next (s.setBitAt R.BELL_STATUS (13 + a.val) true)

/-- AUDIO_APLL_UNLOCK (R258). -/
def execAudioApllUnlock (s : State) : Res :=
  if !s.bit R.BELL_STATUS F.BELL_STATUS_AUDIO_LOCK then .next s
  else
    let s := (s.setBit R.BELL_STATUS F.BELL_STATUS_AUDIO_LOCK false).setBit R.BELL_STATUS F.BELL_STATUS_AUDIO_BYP true
    let s := { s with bell := { s.bell with clean := false } }
    let s := if s.loop = 0 || s.loop = 3 then s else s.enterHoldover
    .next ((s.flag R.BELL_FLAGS F.BELL_FLAGS_AUDIO_UNLOCK).raise FS.AUDIO_UNLOCK 0 0)

/-- AUDIO_APLL_RELOCK (R258): the APLL has held lock for `ms` milliseconds; `raw` is the phase of the selected
reference. -/
def execAudioApllRelock (ms : Nat) (raw : Int) (s : State) : Res :=
  if s.bit R.BELL_STATUS F.BELL_STATUS_AUDIO_BYP && 10 ≤ ms then
    let s := (s.setBit R.BELL_STATUS F.BELL_STATUS_AUDIO_LOCK true).setBit R.BELL_STATUS F.BELL_STATUS_AUDIO_BYP false
    .next (match s.loop, s.curRef with
      | 3, _ => s.closeLoop raw
      | 1, some n => s.zeroError n raw
      | 2, some n => s.zeroError n raw
      | _, _ => s)
  else .next s

/-- CORE_SPREAD_TAKE_EFFECT (R229). -/
def execCoreSpreadTakeEffect (s : State) : Res :=
  .next { s with bell := { s.bell with spread := s.rd R.BELL_CORE_CFG } }

/-- CORE_APLL_RELOCK (R256): a CORE APLL relocks and becomes the bypass of the selected one. On XIN after a loss of both
(R257) the domain moves to it, as at a first lock (R228), but in FALLBACK it stays on XIN (R26). -/
def execCoreApllRelock (a : Fin 2) (s : State) : Res :=
  let s := s.setBitAt R.BELL_STATUS (13 + a.val) true
  .next (if s.bit R.BELL_STATUS F.BELL_STATUS_CORE_XIN && !s.fbRes then
      (s.setBit R.BELL_STATUS F.BELL_STATUS_CORE_XIN false).setFld R.BELL_STATUS F.BELL_STATUS_CORE_SEL a.val
    else s)

/-! ### Output dividers (R261 to R264) -/

/-- The group of six shadows is rejected (R262). -/
def divGroupBad (ws : List Word) : Bool :=
  let div (d : Nat) : Nat := F.BELL_DIV_DIV.of (ws.getD d 0#32).toNat
  let pair (d : Nat) : Bool := F.BELL_DIV_PAIR.of (ws.getD d 0#32).toNat = 1
  (List.range 6).any (fun d =>
    div d = 1 || (pair d && (d < 4 || div d = 0 || div (d - 4) = 0 || div d % div (d - 4) ≠ 0)))

/-- A write of BELL_DIV_UPDATE.GO (R262). -/
def State.divUpdate (s : State) : State :=
  let ws := (List.range 6).map (fun d => s.shadowOf (R.BELL_DIV d))
  if divGroupBad ws then
    let cap := match s.bell.divs with
      | some vs => (List.range 6).map (fun d => (R.BELL_DIV d, vs.getD d 0#32))
      | none => []
    let s := s.reloadShadows ((List.range 6).map R.BELL_DIV) cap
    (s.flag R.BELL_FLAGS F.BELL_FLAGS_APPLY_ERR).raise FS.BELL_APPLY_ERR 0 0
  else
    let s := { s with bell := { s.bell with divs := some ws } }
    s.setBit R.BELL_STATUS F.BELL_STATUS_DIV_PENDING true

def execDivUpdate (s : State) : Res := .next s.divUpdate

/-- DIV_TAKE_EFFECT (R262): at a media clock edge with MSC & 7 = 0 a captured group becomes active, and every divider
in use restarts with a rising edge there. -/
def execDivTakeEffect (s : State) : Res :=
  match s.bell.divs with
  | some ws =>
    if s.msc % 8 ≠ 0 then .next s
    else
      let s := s.activateConfig ((List.range 6).map (fun d => (R.BELL_DIV d, ws.getD d 0#32)))
      let edge := s.msc * 1024
      let rise := (List.range 6).map (fun d =>
        if F.BELL_DIV_DIV.of (ws.getD d 0#32).toNat = 0 then s.bell.rise.getD d 0 else edge)
      let s := { s with bell := { s.bell with divs := none, rise := rise } }
      .next (s.setBit R.BELL_STATUS F.BELL_STATUS_DIV_PENDING false)
  | none => .next s

/-- One divider realigned to a rising edge at period `t` (R263). -/
def State.realign (s : State) (t d : Nat) : State :=
  let div := s.fld (R.BELL_DIV d) F.BELL_DIV_DIV
  let old := s.bell.rise.getD d 0
  if div = 0 || (max t old - min t old) % div = 0 then s
  else
    let s := { s with bell := { s.bell with rise := s.bell.rise.set d t } }
    (s.count R.BELL_SYNC_CORR_CNT).flag R.BELL_FLAGS F.BELL_FLAGS_SYNC_CORR

/-- SYNC_IN_EDGE (R263): an edge sampled `tick` periods of 98.304 MHz after the latest media clock edge. -/
def execSyncInEdge (falling : Bool) (tick : Nat) (s : State) : Res :=
  if s.bit R.BELL_SYNC F.BELL_SYNC_EN && s.bit R.BELL_SYNC F.BELL_SYNC_EDGE = falling then
    let t := s.msc * 1024 + tick + s.fld R.BELL_SYNC F.BELL_SYNC_DELAY
    let m := s.fld R.BELL_SYNC F.BELL_SYNC_MASK
    .next ((List.range 6).foldl (fun u d => if m / 2 ^ d % 2 = 1 then u.realign t d else u) s)
  else .next s

end Sys2Proof.Machine
end

