-- ==== Sys2Proof/Machine/Ptp.lean ====
section
/-!
DEFINITION. Time bases, steps, map offsets and timestamps (R268 to R294).
-/

namespace Sys2Proof.Machine

/-! ### Reading and writing the unit's state -/

def tbDefault : Nat → TimeBase := fun _ => {}

def State.tb (s : State) (n : Nat) : TimeBase := Sparse.get tbDefault s.ptp.tbs n

def State.setTb (s : State) (n : Nat) (t : TimeBase) : State :=
  { s with ptp := { s.ptp with tbs := Sparse.set tbDefault s.ptp.tbs n t } }

/-- One nanosecond and one second in units of 2^-32 ns, and the modulus of a time base (R268). -/
def nsUnit : Nat := 2 ^ 32
def secUnit : Nat := 1000000000 * 2 ^ 32
def tbModulus : Nat := 2 ^ 48 * secUnit

/-- PTP_STATUS.RUNNING and PTP_TB_STAT.RUNNING follow the increments in force (R269). -/
def State.syncRunning (s : State) (n : Nat) : State :=
  let r := s.tbInc n ≠ 0
  (s.setBitAt R.PTP_STATUS n r).setBit (R.PTP_TB_STAT n) F.PTP_TB_STAT_RUNNING r

def State.tickDeg (s : State) : Bool := s.bit R.PTP_STATUS F.PTP_STATUS_TICK_DEG

def State.epoch (s : State) (n : Nat) : Nat := s.fld (R.PTP_TB_STAT n) F.PTP_TB_STAT_EPOCH

/-! ### Increments and ticks (R268, R269, R273, R290) -/

/-- An increment in units of 2^-32 ns that R269 accepts: 0, or 1.998 ns to 2.002 ns. -/
def incOk (v : Nat) : Bool := v = 0 || (1998 * 2 ^ 32 ≤ 1000 * v && 1000 * v ≤ 2002 * 2 ^ 32)

/-- PTP_TB_CMD.APPLY (R269). -/
def State.tbApply (s : State) (n : Nat) : State :=
  let lo := s.shadowOf (R.PTP_TB_INC_LO n)
  let hi := s.shadowOf (R.PTP_TB_INC_HI n)
  if incOk (lo.toNat + hi.toNat % 256 * 2 ^ 32) then s.setTb n { s.tb n with inc := some (lo, hi) }
  else
    let cap := match (s.tb n).inc with
      | some (x, y) => [(R.PTP_TB_INC_LO n, x), (R.PTP_TB_INC_HI n, y)]
      | none => []
    let s := s.reloadShadows [R.PTP_TB_INC_LO n, R.PTP_TB_INC_HI n] cap
    (s.flag R.PTP_FLAGS F.PTP_FLAGS_APPLY_ERR).raise FS.PTP_APPLY_ERR 0 0

def execTbIncApply (n : Fin 8) (s : State) : Res := .next (s.tbApply n)

/-- One tick of one time base: an accepted increment takes effect, then the increment is added; an XIN tick stands for
20 ticks (R290). A captured step may act in this tick. -/
def State.tickTb (s : State) (n : Nat) : State :=
  let t := s.tb n
  let s := match t.inc with
    | some (lo, hi) =>
      ((s.activate [(R.PTP_TB_INC_LO n, lo), (R.PTP_TB_INC_HI n, hi)]).syncRunning n).syncTbRef n
    | none => s
  let k := if s.tickDeg then 20 else 1
  s.setTb n { t with inc := none, time := (t.time + k * s.tbInc n) % tbModulus, ticked := t.step.isSome }

/-- TIME_BASE_TICK (R268, R273, R290): the tick returns to the NET APLL at the first tick after its relock. -/
def execTimeBaseTick (s : State) : Res :=
  let s :=
    if s.tickDeg && s.bit R.BELL_STATUS F.BELL_STATUS_NET_LOCK then s.setBit R.PTP_STATUS F.PTP_STATUS_TICK_DEG false
    else s
  .next ((List.range 8).foldl State.tickTb s)

/-! ### Steps (R271 to R273, R277) -/

/-- PTP_TB_CMD.STEP (R271, R272). -/
def State.tbStep (s : State) (n : Nat) : State :=
  let t := s.tb n
  if t.step.isSome then s.flag R.PTP_FLAGS F.PTP_FLAGS_STEP_BUSY
  else
    let sec := (s.reg (R.PTP_TB_STEP_SEC n)).toInt
    let ns := (s.reg (R.PTP_TB_STEP_NS n)).toInt
    (s.setTb n { t with step := some (sec, ns), ticked := false }).setBit (R.PTP_TB_STAT n) F.PTP_TB_STAT_STEP_PEND true

def execTbStep (n : Fin 8) (s : State) : Res := .next (s.tbStep n)

/-- STEP_APPLY (R271, R272): in its tick, after the tick's increment, a captured step is applied or refused. -/
def execStepApply (n : Fin 8) (s : State) : Res :=
  let t := s.tb n
  match t.step, t.ticked with
  | some (sec, ns), true =>
    let d := sec * 1000000000 + ns
    let now : Int := (t.time : Int) + d * (nsUnit : Int)
    let s := s.setBit (R.PTP_TB_STAT n) F.PTP_TB_STAT_STEP_PEND false
    if 999999999 < ns.natAbs || now < 0 || (tbModulus : Int) ≤ now then
      .next (((s.setTb n { t with step := none, ticked := false }).flag R.PTP_FLAGS F.PTP_FLAGS_STEP_ERR).raise
        FS.PTP_STEP_ERR 0 0)
    else
      let s := s.setTb n { t with step := none, ticked := false, time := now.toNat }
      let s := s.setFld (R.PTP_TB_STAT n) F.PTP_TB_STAT_EPOCH (s.epoch n + 1)
      let s := (s.count (R.PTP_TB_STEP_CNT n)).flag R.PTP_FLAGS F.PTP_FLAGS_STEP_DONE
      let s := if s.anchoredTb = some n.val && s.curRef = some n.val then
          { s with bell := { s.bell with stepOfs := s.bell.stepOfs + d } } else s
      .next (s.raise FS.PTP_STEP 0 0)
  | _, _ => .next s

/-! ### Map offsets (R275, R276) -/

/-- MAP_CAPTURE (R276) for one time base: Θ = m / 96,000 s − TB(edge m), in units of 2^-16 ns; the capture is uncertain
by up to 1 ns either way. -/
def State.captureMap (s : State) (n : Nat) : State :=
  let t := s.tb n
  -- m × 10^9 × 65,536 / 96,000
  let edge : Int := rdiv ((s.msc * 1000000000 * 65536 : Nat) : Int) 96000
  let read : Int := ((t.time / 2 ^ 16 : Nat) : Int)
  let d : Int := ((s.freeVal % 131073 : Nat) : Int) - 65536
  (s.setTb n { t with map := edge - read + d }).bump

/-! ### Reads that latch (R274, R276, R285) -/

/-- A read of PTP_TB_TIME_NS: the rest of the same tick is latched. -/
def State.tbTimeRead (s : State) (n : Nat) : State × Word :=
  let t := s.tb n
  (s.setTb n { t with timeLatch := some t.time }, BitVec.ofNat 32 (t.time % secUnit / nsUnit))

/-- The time that the reads of seconds and fraction return. -/
def TimeBase.shown (t : TimeBase) : Nat := match t.timeLatch with | some v => v | none => t.time

def State.tbMapRead (s : State) (n : Nat) : State × Word :=
  let t := s.tb n
  (s.setTb n { t with mapLatch := some t.map }, BitVec.ofInt 32 (t.map / 65536))

def TimeBase.shownMap (t : TimeBase) : Int := match t.mapLatch with | some v => v | none => t.map

def answerWord (r : State × Word) : State :=
  { r.1 with out := { r.1.out with busData := r.2, busErr := false } }

def execTbTimeRead (n : Fin 8) (s : State) : Res := .next (answerWord (s.tbTimeRead n))
def execTbMapRead (n : Fin 8) (s : State) : Res := .next (answerWord (s.tbMapRead n))

/-! ### Timestamps (R280 to R286) -/

/-- A timestamp of a port against a time base (R281): the time at the stamp, `sub` units of 2^-32 ns after the latest
tick, truncated to 1 ns, and the port's adjustment in 1/16 ns; seconds and nanoseconds. -/
def State.stamp (s : State) (tb sub : Nat) (adj : Int) : Nat × Nat :=
  let ns : Int := (((s.tb tb).time + sub) / nsUnit : Nat)
  let v := (16 * ns + adj) / 16 % ((2 ^ 48 * 1000000000 : Nat) : Int)
  (v.toNat / 1000000000, v.toNat % 1000000000)

/-- The signed PTP_PORT_TX_ADJ or RX_ADJ of a port. -/
def State.portAdj (s : State) (a : Nat) : Int := sext 16 (s.rd a)

/-- R283: the time base of a received frame; `domain` is the domainNumber of a PTP event message. -/
def State.rxTb (s : State) (port : Nat) (domain : Option Nat) : Nat :=
  let hit := match domain with
    | some d => (List.range 8).find? (fun i =>
        s.bit (R.PTP_DOMMAP i) F.PTP_DOMMAP_V && s.fld (R.PTP_DOMMAP i) F.PTP_DOMMAP_DOMAIN = d)
    | none => none
  match hit with
  | some i => s.fld (R.PTP_DOMMAP i) F.PTP_DOMMAP_TB
  | none => s.fld (R.PTP_PORT_CFG port) F.PTP_PORT_CFG_DEF_TB

def State.txQueue (s : State) (p : Nat) : List TxStamp := Sparse.get (fun _ => []) s.ptp.queues p

def State.setTxQueue (s : State) (p : Nat) (q : List TxStamp) : State :=
  let s := { s with ptp := { s.ptp with queues := Sparse.set (fun _ => []) s.ptp.queues p q } }
  s.setFld (R.PTP_TXTS_STAT p) F.PTP_TXTS_STAT_LEVEL q.length

/-- An entry is pushed, or dropped on a full queue (R284, R286). -/
def State.pushStamp (s : State) (p : Nat) (e : TxStamp) : State :=
  if (s.txQueue p).length < 64 then s.setTxQueue p (s.txQueue p ++ [e])
  else
    let was := s.bitAt R.PTP_FLAGS (8 + p)
    let s := (s.count (R.PTP_TXTS_DROP_CNT p)).setBitAt R.PTP_FLAGS (8 + p) true
    if was then s else s.raise FS.PTP_TXTS_OVF p 0

/-- R284: a frame with a requested timestamp that is discarded before transmission. -/
def State.abortStamp (s : State) (p tb id : Nat) : State := s.pushStamp p ⟨id, tb, s.epoch tb, true, 0, 0⟩

/-- A read of PTP_TXTS_HEAD (R285). -/
def State.txtsRead (s : State) (p : Nat) : State × Word :=
  match s.txQueue p with
  | [] => (s, 0#32)
  | e :: q =>
    let s := s.setTxQueue p q
    let s := s.wrN (R.PTP_TXTS_NS p) e.ns
    let s := s.wr64 (R.PTP_TXTS_SEC_LO p) (R.PTP_TXTS_SEC_HI p) e.sec
    (s, BitVec.ofNat 32 (2 ^ 31 + (if e.abort then 2 ^ 30 else 0) + e.tb * 2 ^ 24 + e.epoch * 2 ^ 20 + e.id))

def execTxtsHeadRead (p : Fin 4) (s : State) : Res := .next (answerWord (s.txtsRead p))

/-- The tick clock moves to XIN (R290). -/
def State.tickToXin (s : State) : State :=
  ((s.setBit R.PTP_STATUS F.PTP_STATUS_TICK_DEG true).flag R.PTP_FLAGS F.PTP_FLAGS_TICK_DEG).raise FS.PTP_TICK_DEG 0 0

/-- A Delay_Req or Pdelay_Req for a master instance (R288): at most 2,048 a second are answered. -/
def State.delayReq (s : State) : State :=
  let sec := s.msc / 96000
  let n := if s.ptp.reqSec = sec then s.ptp.reqs else 0
  if n < 2048 then { s with ptp := { s.ptp with reqSec := sec, reqs := n + 1 } }
  else { s with ptp := { s.ptp with reqSec := sec, reqs := n, reqDropped := s.ptp.reqDropped + 1 } }

end Sys2Proof.Machine
end

