-- ==== Sys2Proof/Machine/Net.lean ====
section
/-!
DEFINITION. The Stream Engine (R295 to R327): links, received frames and stream packets, flow configuration, Bobbins,
missing data, transmit packets, pairs, flow starts and stops.
-/

namespace Sys2Proof.Machine

/-! ### Reading and writing the unit's state -/

def State.rxFlow (s : State) (f : Nat) : RxFlow := Sparse.get (fun _ => {}) s.net.rx f
def State.setRxFlow (s : State) (f : Nat) (x : RxFlow) : State :=
  { s with net := { s.net with rx := Sparse.set (fun _ => {}) s.net.rx f x } }
def State.txFlow (s : State) (f : Nat) : TxFlow := Sparse.get (fun _ => {}) s.net.tx f
def State.setTxFlow (s : State) (f : Nat) (x : TxFlow) : State :=
  { s with net := { s.net with tx := Sparse.set (fun _ => {}) s.net.tx f x } }

def State.linkUp (s : State) (p : Nat) : Bool := s.bit (R.NET_PORT_STAT p) F.NET_PORT_STAT_LINK

/-! ### Word conversion (R49 to R51) -/

/-- R49: a Q5.27 word as an external N-bit word, and whether the saturation changed it (R50). -/
def toExternal (n : Nat) (x : Int) : Int × Bool :=
  let v := if n ≤ 28 then rsh x (28 - n) else x * ((2 ^ (n - 28) : Nat) : Int)
  (satS n v, satS n v ≠ v)

/-- R51: an external N-bit word as a Q5.27 word. -/
def fromExternal (n : Nat) (c : Int) : Int := if n ≤ 28 then c * ((2 ^ (28 - n) : Nat) : Int) else rsh c (n - 28)

/-! ### Fields of a flow's format and map, which lie at the same bits in both directions (R327) -/

structure Fmt where
  tb : Nat
  ch : Nat
  ptime : Nat
  hi : Bool
  enc : Nat
  track : Bool
  pair : Bool
  deriving DecidableEq, Repr

def fmtOf (w : Nat) : Fmt :=
  ⟨w / 2 ^ 12 % 8, w / 2 ^ 5 % 128, w / 4 % 8, w / 2 % 2 = 1, w % 2, w / 2 ^ 15 % 2 = 1, w / 2 ^ 16 % 2 = 1⟩

def mapPortB (w : Nat) : Nat := w / 2 ^ 26 % 4
def mapPortA (w : Nat) : Nat := w / 2 ^ 24 % 4
def mapFlock (w : Nat) : Nat := w / 2 ^ 16 % 128
def mapFirst (w : Nat) : Nat := w % 4096

def State.rxFmt (s : State) (f : Nat) : Fmt := fmtOf (s.rd (R.NET_RXF_FMT f))
def State.txFmt (s : State) (f : Nat) : Fmt := fmtOf (s.rd (R.NET_TXF_FMT f))

/-- Samples per packet at the flow's rate, packets per second, and the packet time in samples of 96 kHz (R300). -/
def Fmt.spp (m : Fmt) : Nat := [6, 12, 16, 48, 192].getD m.ptime 0 * (if m.hi then 2 else 1)
def Fmt.pps (m : Fmt) : Nat := [8000, 4000, 3000, 1000, 250].getD m.ptime 0
def Fmt.packetTime (m : Fmt) : Nat := [12, 24, 32, 96, 384].getD m.ptime 0
def Fmt.sampleBytes (m : Fmt) : Nat := if m.enc = 1 then 3 else 2
def Fmt.bits (m : Fmt) : Nat := 8 * m.sampleBytes
def Fmt.payload (m : Fmt) : Nat := m.ch * m.spp * m.sampleBytes
/-- 96,000 / f_r. -/
def Fmt.ratio (m : Fmt) : Nat := if m.hi then 1 else 2

/-! ### Link offsets (R305, R308) -/

/-- round(Θ × 96,000 / 10^9), ties away from zero; Θ in units of 2^-16 ns. -/
def State.linkOffset (s : State) (tb : Nat) : Int :=
  let x := (s.tb tb).map * 96000
  let d : Int := 65536000000000
  if 0 ≤ x then (2 * x + d) / (2 * d) else -((2 * (-x) + d) / (2 * d))

/-! ### Registers of a flow's state -/

def State.syncRx (s : State) (f : Nat) : State :=
  s.setFld (R.NET_RXF_STAT f) F.NET_RXF_STAT_STATE (s.rxFlow f).st

def State.syncTx (s : State) (f : Nat) : State :=
  (s.setFld (R.NET_TXF_STAT f) F.NET_TXF_STAT_STATE (s.txFlow f).st).wrN (R.NET_TXF_SEQ f) (s.txFlow f).seq

def State.putRx (s : State) (f : Nat) (x : RxFlow) : State := (s.setRxFlow f x).syncRx f
def State.putTx (s : State) (f : Nat) (x : TxFlow) : State := (s.setTxFlow f x).syncTx f

def State.rxK (s : State) (f : Nat) (k : Int) : State := s.wr64 (R.NET_RXF_K_LO f) (R.NET_RXF_K_HI f) (wrapN 64 k)
def State.txK (s : State) (f : Nat) (k : Int) : State := s.wr64 (R.NET_TXF_K_LO f) (R.NET_TXF_K_HI f) (wrapN 64 k)

/-- Bobbin entries moved by a change of K. -/
def shiftBobbin (b : Sparse (List Int)) (d : Int) : Sparse (List Int) :=
  (b.filter (fun e => 0 ≤ (e.1 : Int) + d)).map (fun e => (((e.1 : Int) + d).toNat, e.2))

/-! ### Links (R296, R259) -/

/-- LINK_UP (R296): block lock has been held for `ms` milliseconds. -/
def execLinkUp (p : Fin 4) (ms : Nat) (s : State) : Res :=
  if 10 ≤ ms && s.fld (R.NET_PORT_CFG p) F.NET_PORT_CFG_MODE ≠ 0 && s.bit R.BELL_STATUS F.BELL_STATUS_NET_LOCK then
    .next (((s.setBit (R.NET_PORT_STAT p) F.NET_PORT_STAT_BLOCK_LOCK true).setBit (R.NET_PORT_STAT p)
      F.NET_PORT_STAT_LINK true))
  else .next s

/-- A port's link goes down (R296); frames whose timestamps had been requested and that are discarded push ABORT
entries (R284). -/
def State.linkDown (s : State) (p : Nat) (requested : List (Nat × Nat)) : State :=
  let was := s.linkUp p
  let s := (s.setBit (R.NET_PORT_STAT p) F.NET_PORT_STAT_BLOCK_LOCK false).setBit (R.NET_PORT_STAT p)
    F.NET_PORT_STAT_LINK false
  let s := requested.foldl (fun t r => t.abortStamp p r.1 r.2) s
  if was then (s.setBitAt R.NET_FLAGS (9 + p) true).raise FS.NET_LINK_DOWN p 0 else s

def execLinkDown (p : Fin 4) (requested : List (Fin 8 × BitVec 16)) (s : State) : Res :=
  .next (s.linkDown p (requested.map (fun r => (r.1.val, r.2.toNat))))

/-! ### Received frames (R283, R288, R297 to R302, R307, R309, R311, R316) -/

/-- The flow that takes a frame as a stream packet, and its leg B mark (R298): the lowest index that matches. -/
def State.streamMatch (s : State) (p src dst udp : Nat) : Option (Nat × Bool) :=
  let leg (f : Nat) : Option (Nat × Bool) :=
    let m := s.rxFmt f
    let w := s.rd (R.NET_RXF_MAP f)
    let filter := s.rd (R.NET_RXF_SRC f)
    let u := s.rd (R.NET_RXF_UDP f)
    if filter ≠ 0 && filter ≠ src then none
    else if mapPortA w = p && s.rd (R.NET_RXF_DST_A f) = dst && u % 65536 = udp then some (f, false)
    else if m.pair && mapPortB w = p && s.rd (R.NET_RXF_DST_B f) = dst && u / 65536 = udp then some (f, true)
    else none
  ((s.net.rx.filter (fun e => 2 ≤ e.2.st)).filterMap (fun e => leg e.1)).head?

/-- The format error of a stream packet (R302), and a packet with the padding bit (R301). -/
def State.formatBad (s : State) (f : Nat) (r : Rtp) : Bool :=
  let m := s.rxFmt f
  r.version ≠ 2 || r.pt ≠ s.fld (R.NET_RXF_FMT f) F.NET_RXF_FMT_PT || r.payload.length ≠ m.payload ||
    (s.bit (R.NET_RXF_FMT f) F.NET_RXF_FMT_SSRC_CHK && r.ssrc ≠ s.rd (R.NET_RXF_SSRC f))

/-- R307: the position of the first sample of a packet. -/
def State.rxPosition (s : State) (f ts : Nat) : Int :=
  let m := s.rxFmt f
  let x := s.rxFlow f
  let w : Int := (2 ^ 32 : Nat)
  let r0 : Int := ((ts : Int) - (s.rd (R.NET_RXF_OFFSET f) : Int)) % w
  let near := ((s.msc : Int) - x.k) / (m.ratio : Int)
  let u := r0 + w * ((2 * (near - r0) + w) / (2 * w))
  (m.ratio : Int) * u + x.k + (s.fld (R.NET_RXF_DEPTH f) F.NET_RXF_DEPTH_DEPTH : Int)

/-- The edge before which data for position p must have been received (R309). -/
def deadline (m : Fmt) (p : Nat) : Int := ((8 * (p / 8) : Nat) : Int) - 16 - (if m.hi then 0 else 16)

/-- Data for position p is in time and inside the window (R309). -/
def State.inTime (s : State) (m : Fmt) (p : Int) : Bool :=
  0 ≤ p && (s.msc : Int) ≤ p && p < (s.msc : Int) + 2432 && (s.msc : Int) < deadline m p.toNat

/-- Sample of channel c of the j-th frame of a payload, big-endian, as a Q5.27 word (R300, R51). -/
def rxSample (m : Fmt) (pl : List Byte) (j c : Nat) : Int :=
  let o := (j * m.ch + c) * m.sampleBytes
  let v := (List.range m.sampleBytes).foldl (fun a i => a * 256 + (pl.getD (o + i) 0#8).toNat) 0
  fromExternal m.bits (sext m.bits v)

/-- Sequence numbers (R311): lost packets are those that no leg delivers by the time their first position is due. -/
def RxFlow.noteSeq (x : RxFlow) (m : Fmt) (seq : Nat) (pos : Int) : RxFlow :=
  let x := { x with seqs := (seq :: x.seqs).take 512 }
  match x.hiSeq with
  | none => { x with hiSeq := some seq }
  | some h =>
    let d := (seq + 65536 - h) % 65536
    if d = 0 then x
    else if d < 32768 then
      let gone := (List.range (min (d - 1) 1024)).map (fun i =>
        let q := (h + 1 + i) % 65536
        let p := pos - ((d - 1 - i : Nat) : Int) * (m.packetTime : Int)
        (q, (deadline m p.toNat).toNat))
      { x with hiSeq := some seq, missing := x.missing ++ gone }
    else { x with missing := x.missing.filter (fun e => e.1 ≠ seq) }

/-- A stream packet taken by flow f (R302, R309, R311, R316). -/
def State.streamPacket (s : State) (p f : Nat) (legB : Bool) (r : Rtp) : State :=
  let m := s.rxFmt f
  if r.padding then s.count (R.NET_PORT_RXERR_CNT p)
  else if s.formatBad f r then
    ((s.count (R.NET_PORT_RXERR_CNT p)).flag R.NET_FLAGS F.NET_FLAGS_FORMAT).raise FS.NET_RX_FORMAT f 0
  else
    let s := s.count (R.NET_PORT_RX_CNT p)
    let s := s.setBit (R.NET_RXF_STAT f) (if legB then F.NET_RXF_STAT_LEG_B_UP else F.NET_RXF_STAT_LEG_A_UP) true
    let x := s.rxFlow f
    let x := if legB then { x with legB := s.msc } else { x with legA := s.msc }
    if m.pair && x.seqs.contains r.seq then s.setRxFlow f x
    else
      let pos := s.rxPosition f r.ts
      let at_ (j : Nat) : Int := pos + ((m.ratio * j : Nat) : Int)
      let used := (List.range m.spp).filter (fun j => s.inTime m (at_ j))
      let b := used.foldl (fun b j =>
        Sparse.put b (at_ j).toNat ((List.range m.ch).map (fun c => rxSample m r.payload j c))) x.bobbin
      let x := if used.isEmpty && m.pair then x else x.noteSeq m r.seq pos
      let s := s.setRxFlow f { x with bobbin := b }
      let s := if used.isEmpty then s else s.count (R.NET_RXF_PKT_CNT f)
      if used.length < m.spp then
        ((s.count (R.NET_RXF_OOW_CNT f)).flag R.NET_FLAGS F.NET_FLAGS_OOW).raise FS.NET_RX_OOW f 0
      else s

/-- A frame for Shepherd firmware (R298): queued with its stamp, or dropped on a full queue; firmware learns neighbours
from ARP and answers delay requests (R288, R299). -/
def State.hostFrame (s : State) (p : Nat) (fr : Frame) (sub : Nat) (full : Bool) : State :=
  if full then s.count (R.NET_PORT_HOST_DROP_CNT p)
  else
    let tb := s.rxTb p fr.domain
    let t := s.stamp tb sub (s.portAdj (R.PTP_PORT_RX_ADJ p))
    let s := { s with net := { s.net with host := s.net.host ++ [⟨p, tb, s.epoch tb, t.1, t.2⟩] } }
    if !s.boot.fwRuns then s
    else
      let s := match fr.arp with
        | some e => { s with net := { s.net with neigh := e :: s.net.neigh.filter (fun d => d.1 ≠ e.1) } }
        | none => s
      if fr.delayReq then s.delayReq else s

/-- FRAME_RECEIVE (R297, R298): `sub` is the time since the latest tick of the time bases in units of 2^-32 ns; `full`
says that the Shepherd queue has no room. -/
def execFrameReceive (p : Fin 4) (fr : Frame) (sub : Nat) (full : Bool) (s : State) : Res :=
  let limit := if s.bit (R.NET_PORT_CFG p) F.NET_PORT_CFG_JUMBO then 9022 else 1522
  if !s.linkUp p || 1 < fr.tags then .next s
  else if limit < fr.size || !fr.fcsOk || fr.fragment || fr.badSum then .next (s.count (R.NET_PORT_RXERR_CNT p))
  else
    match fr.udp with
    | some (src, dst, port, r) =>
      match s.streamMatch p src dst port with
      | some (f, legB) => .next (s.streamPacket p f legB r)
      | none => .next (s.hostFrame p fr sub full)
    | none => .next (s.hostFrame p fr sub full)

/-- LEG_DOWN (R316): no packet of a leg for 4 packet times while the flow runs. -/
def execLegDown (f : Fin 1024) (legB : Bool) (s : State) : Res :=
  let x := s.rxFlow f
  let m := s.rxFmt f
  let mine := if legB then F.NET_RXF_STAT_LEG_B_UP else F.NET_RXF_STAT_LEG_A_UP
  let other := if legB then F.NET_RXF_STAT_LEG_A_UP else F.NET_RXF_STAT_LEG_B_UP
  let since := s.msc - (if legB then x.legB else x.legA)
  if (x.st = 3 || x.st = 4 || x.st = 5) && s.bit (R.NET_RXF_STAT f) mine && 4 * m.packetTime ≤ since then
    let s := (s.setBit (R.NET_RXF_STAT f) mine false).flag R.NET_FLAGS F.NET_FLAGS_LEG_DOWN
    .next (if s.bit (R.NET_RXF_STAT f) other then s.raise FS.NET_LEG_DOWN f 0 else s)
  else .next s

/-! ### Flow configuration (R303, R313) -/

/-- The registers of a flow's group (R303). -/
def rxGroup (f : Nat) : List Nat :=
  [R.NET_RXF_FMT f, R.NET_RXF_MAP f, R.NET_RXF_DST_A f, R.NET_RXF_UDP f, R.NET_RXF_DST_B f, R.NET_RXF_SRC f,
    R.NET_RXF_SSRC f, R.NET_RXF_OFFSET f, R.NET_RXF_DEPTH f]

def txGroup (f : Nat) : List Nat :=
  [R.NET_TXF_FMT f, R.NET_TXF_MAP f, R.NET_TXF_DST_A f, R.NET_TXF_UDP f, R.NET_TXF_DST_B f, R.NET_TXF_SSRC f,
    R.NET_TXF_OFFSET f, R.NET_TXF_IPCFG f]

def State.sh (s : State) (a : Nat) : Nat := (s.shadowOf a).toNat

/-- FIELD (R303): a reserved encoding, CH above 64, a reserved FLOCK value. -/
def fieldBad (m : Fmt) (map : Nat) : Bool :=
  4 < m.ptime || 64 < m.ch || (64 ≤ mapFlock map && mapFlock map < 127)

def State.portMode (s : State) (p : Nat) : Nat := s.fld (R.NET_PORT_CFG p) F.NET_PORT_CFG_MODE

/-- PAYLOAD (R303): the payload exceeds R300 on a named port. -/
def State.payloadBad (s : State) (m : Fmt) (map : Nat) : Bool :=
  let mtu (p : Nat) : Nat := if s.bit (R.NET_PORT_CFG p) F.NET_PORT_CFG_JUMBO then 8960 else 1460
  mtu (mapPortA map) < m.payload || (m.pair && mtu (mapPortB map) < m.payload)

/-- PORT (R303). -/
def State.portBad (s : State) (m : Fmt) (map : Nat) : Bool :=
  s.portMode (mapPortA map) = 0 || (m.pair && (s.portMode (mapPortB map) = 0 || mapPortA map = mapPortB map))

/-- Load of one transmit flow in bit/s (R313). -/
def Fmt.load (m : Fmt) : Nat := if m.ch = 0 then 0 else (m.payload + 82) * 8 * m.pps

/-- The flow with this format and map names a port. -/
def namesPort (m : Fmt) (map p : Nat) : Bool := mapPortA map = p || (m.pair && mapPortB map = p)

/-- Committed load of a port in bit/s without flow `skip` (R313). -/
def State.committed (s : State) (p : Nat) (skip : Option Nat) : Nat :=
  (s.net.tx.filter (fun e => e.2.st ≠ 0 && some e.1 ≠ skip &&
    namesPort (s.txFmt e.1) (s.rd (R.NET_TXF_MAP e.1)) p)).foldl (fun n e => n + (s.txFmt e.1).load) 0

/-- LOAD (R303, R313). -/
def State.loadBad (s : State) (f : Nat) (m : Fmt) (map : Nat) : Bool :=
  (List.range 4).any (fun p => namesPort m map p &&
    (if s.portMode p = 2 then 22500000000 else 9000000000) < s.committed p (some f) + m.load)

/-- A receive flow other than `f`, not OFF, whose channels meet these. -/
def State.channelsShared (s : State) (f first ch : Nat) : Bool :=
  s.net.rx.any (fun e => e.1 ≠ f && e.2.st ≠ 0 &&
    (let g := mapFirst (s.rd (R.NET_RXF_MAP e.1))
     let n := (s.rxFmt e.1).ch
     first < g + n && g < first + ch))

/-- The legs of a receive flow: port, destination, UDP port, source filter. -/
def legsOf (m : Fmt) (map a b u src : Nat) : List (Nat × Nat × Nat × Nat) :=
  (mapPortA map, a, u % 65536, src) :: (if m.pair then [(mapPortB map, b, u / 65536, src)] else [])

def State.activeLegs (s : State) (f : Nat) : List (Nat × Nat × Nat × Nat) :=
  legsOf (s.rxFmt f) (s.rd (R.NET_RXF_MAP f)) (s.rd (R.NET_RXF_DST_A f)) (s.rd (R.NET_RXF_DST_B f))
    (s.rd (R.NET_RXF_UDP f)) (s.rd (R.NET_RXF_SRC f))

/-- The code of R303 for a receive flow's group. -/
def State.rxCheck (s : State) (f : Nat) : Nat :=
  let m := fmtOf (s.sh (R.NET_RXF_FMT f))
  let map := s.sh (R.NET_RXF_MAP f)
  let st := (s.rxFlow f).st
  let legs := legsOf m map (s.sh (R.NET_RXF_DST_A f)) (s.sh (R.NET_RXF_DST_B f)) (s.sh (R.NET_RXF_UDP f))
    (s.sh (R.NET_RXF_SRC f))
  if fieldBad m map then 1
  else if s.payloadBad m map then 2
  else if 4096 < mapFirst map + m.ch || s.channelsShared f (mapFirst map) m.ch then 3
  else if st ≠ 0 && st ≠ 1 then 4
  else if s.portBad m map then 5
  else if 1920 < F.NET_RXF_DEPTH_DEPTH.of (s.sh (R.NET_RXF_DEPTH f)) then 7
  else if legs.any (fun l => l.2.1 = 0 ||
      s.net.rx.any (fun e => e.1 ≠ f && e.2.st ≠ 0 && (s.activeLegs e.1).contains l)) then 8
  else 0

/-- The code of R303 for a transmit flow's group. -/
def State.txCheck (s : State) (f : Nat) : Nat :=
  let m := fmtOf (s.sh (R.NET_TXF_FMT f))
  let map := s.sh (R.NET_TXF_MAP f)
  let st := (s.txFlow f).st
  if fieldBad m map || F.NET_TXF_IPCFG_TTL.of (s.sh (R.NET_TXF_IPCFG f)) = 0 then 1
  else if s.payloadBad m map then 2
  else if 4096 < mapFirst map + m.ch then 3
  else if st ≠ 0 && st ≠ 1 then 4
  else if s.portBad m map then 5
  else if s.loadBad f m map then 6
  else if s.sh (R.NET_TXF_DST_A f) = 0 || (m.pair && s.sh (R.NET_TXF_DST_B f) = 0) then 8
  else 0

/-- NET_PORT_LOAD (R313): Mb/s, rounded up. -/
def State.syncLoads (s : State) : State :=
  (List.range 4).foldl (fun t p => t.setFld (R.NET_PORT_LOAD p) F.NET_PORT_LOAD_MBPS
    ((t.committed p none + 999999) / 1000000)) s

/-- A write to NET_APPLY (R303). -/
def State.netApply (s : State) (tx : Bool) (f : Nat) : State :=
  let code := if tx then s.txCheck f else s.rxCheck f
  let s := s.wrN R.NET_APPLY_RESULT (code * 2 ^ 24 + (if tx then 2 ^ 23 else 0) + f)
  if code ≠ 0 then
    ((s.reloadShadows (if tx then txGroup f else rxGroup f) []).flag R.NET_FLAGS F.NET_FLAGS_APPLY_ERR).raise
      FS.NET_APPLY_ERR (if tx then 65536 + f else f) 0
  else if tx then
    let s := s.takeConfig (txGroup f)
    (s.putTx f { s.txFlow f with st := if (s.txFmt f).ch = 0 then 0 else 1 }).syncLoads
  else
    let s := s.takeConfig (rxGroup f)
    s.putRx f { s.rxFlow f with st := if (s.rxFmt f).ch = 0 then 0 else 1 }

def execNetApply (tx : Bool) (f : Fin 1024) (s : State) : Res := .next (s.netApply tx f)

/-- A write that changes MODE or FEC of a port (R296): ignored while a flow that is not OFF names the port. -/
def State.portNamed (s : State) (p : Nat) : Bool :=
  s.net.rx.any (fun e => e.2.st ≠ 0 && namesPort (s.rxFmt e.1) (s.rd (R.NET_RXF_MAP e.1)) p) ||
    s.net.tx.any (fun e => e.2.st ≠ 0 && namesPort (s.txFmt e.1) (s.rd (R.NET_TXF_MAP e.1)) p)

/-! ### Starts and stops (R319 to R321, R323) -/

/-- START entered: a flow in STOPPED goes to PENDING; its Bobbin fills with the present link offset. -/
def State.rxPending (s : State) (f : Nat) : State :=
  let x := s.rxFlow f
  if x.st = 1 then s.putRx f { x with st := 2, k := s.linkOffset (s.rxFmt f).tb, bobbin := [] } else s

def State.txPending (s : State) (f : Nat) : State :=
  let x := s.txFlow f
  if x.st = 1 then s.putTx f { x with st := 2 } else s

/-- START cancelled: a flow in PENDING returns to STOPPED. -/
def State.rxUnpend (s : State) (f : Nat) : State :=
  let x := s.rxFlow f
  if x.st = 2 then s.putRx f { x with st := 1 } else s

def State.txUnpend (s : State) (f : Nat) : State :=
  let x := s.txFlow f
  if x.st = 2 then s.putTx f { x with st := 1 } else s

/-- START of a receive flow fires at T (R320). -/
def State.rxStart (s : State) (f t : Nat) : State :=
  let x := s.rxFlow f
  if x.st = 0 || x.st = 1 then s
  else
    let k := s.linkOffset (s.rxFmt f).tb
    let last := if x.st = 2 then [] else x.last
    (s.putRx f { x with st := 3, k := k, from_ := t, bobbin := shiftBobbin x.bobbin (k - x.k), gap := none, since := 0,
                        last := last, stopAt := none, hold := none }).rxK f k

/-- START of a transmit flow fires at T (R312, R320): its first sequence number is bits [15:0] of T. -/
def State.txStart (s : State) (f t : Nat) : State :=
  let x := s.txFlow f
  if x.st = 0 || x.st = 1 then s
  else
    let k := s.linkOffset (s.txFmt f).tb
    (s.putTx f { x with st := 3, k := k, from_ := t, first := none, bytes := [], count := 0, seq := t % 65536,
                        nextK := none, stopAt := none }).txK f k

/-- STOP of a receive flow fires at S (R321). -/
def State.rxStop (s : State) (f t : Nat) : State :=
  let x := s.rxFlow f
  if x.st = 3 || x.st = 4 then s.putRx f { x with st := 5, stopAt := some t } else s

/-- A stopping transmit flow whose last packet has left enters STOPPED (R321). -/
def State.txSettle (s : State) (f : Nat) : State :=
  let x := s.txFlow f
  if x.st = 5 && x.first.isNone && x.formed.isEmpty && x.ready.isEmpty then
    s.putTx f { x with st := s.restState (.txFlow f), stopAt := none }
  else s

/-- STOP of a transmit flow fires at S (R321): the packet being formed is its last. -/
def State.txStop (s : State) (f t : Nat) : State :=
  let x := s.txFlow f
  if x.st = 3 then (s.putTx f { x with st := 5, stopAt := some t }).txSettle f else s

/-! ### Realignment (R308) -/

/-- A departure of Θ from K above REALIGN_THR samples. -/
def State.departs (s : State) (tb : Nat) (k : Int) : Bool :=
  -- |Θ × 96,000 / 10^9 − K| > THR
  let thr := s.fld R.NET_CTRL F.NET_CTRL_REALIGN_THR
  let d : Int := 65536000000000
  decide (thr * 65536000000000 < ((s.tb tb).map * 96000 - k * d).natAbs)

def State.realignRx (s : State) (f : Nat) : State :=
  let x := s.rxFlow f
  let m := s.rxFmt f
  if !(x.st = 3 || x.st = 4) || !m.track || !s.departs m.tb x.k then s
  else
    let k := s.linkOffset m.tb
    let s := s.setRxFlow f { x with k := k, bobbin := shiftBobbin x.bobbin (k - x.k),
                                    hold := some (8 * (s.msc / 8) + 8) }
    let s := (s.rxK f k).countFld (R.NET_RXF_STAT f) F.NET_RXF_STAT_REALIGN
    (s.flag R.NET_FLAGS F.NET_FLAGS_REALIGN).raise FS.NET_REALIGN f 0

def State.realignTx (s : State) (f : Nat) : State :=
  let x := s.txFlow f
  let m := s.txFmt f
  let k0 := match x.nextK with | some k => k | none => x.k
  if x.st ≠ 3 || !m.track || !s.departs m.tb k0 then s
  else
    let k := s.linkOffset m.tb
    let s := (s.setTxFlow f { x with nextK := some k }).countFld (R.NET_TXF_STAT f) F.NET_TXF_STAT_REALIGN
    (s.flag R.NET_FLAGS F.NET_FLAGS_REALIGN).raise FS.NET_REALIGN f 0

/-- MAP_CAPTURE (R276, R308): at an edge with MSC mod 96 = 0 every map offset is measured, and tracking flows that
depart realign. -/
def execMapCapture (s : State) : Res :=
  if s.msc % 96 ≠ 0 then .next s
  else
    let s := (List.range 8).foldl State.captureMap s
    let s := s.net.rx.foldl (fun t e => t.realignRx e.1) s
    .next (s.net.tx.foldl (fun t e => t.realignTx e.1) s)

/-! ### Delivery (R310, R315, R321) -/

/-- The samples of all channels at position p from the Bobbin, or none where the position is missing (R310, R315):
a 48 kHz flow needs every input within 16 samples. -/
def RxFlow.sampleAt (x : RxFlow) (m : Fmt) (par p : Nat) : Option (List Int) :=
  let have_ (q : Nat) : Option (List Int) := (x.bobbin.find? (fun e => e.1 = q)).map (·.2)
  if m.hi then have_ p
  else
    let qs := ((List.range 33).map (fun i => p + i)).filter (fun q => 16 ≤ q && (q - 16) % 2 = par)
    let ins := qs.map (fun q => have_ (q - 16))
    if ins.any Option.isNone then none
    else if p % 2 = par then have_ p
    else some ((List.range m.ch).map (fun c => sat32 (Config.upsample (ins.map (fun o => (o.getD []).getD c 0)))))

/-- The weights of R315 and R321. -/
def fadeOut (v : Int) (n : Nat) : Int := if n < 8 then (v * (7 - (n : Int)) + 4) / 8 else 0
def fadeIn (v : Int) (n : Nat) : Int := if n < 8 then (v * ((n : Int) + 1) + 4) / 8 else v

/-- The parity of the positions of a 48 kHz flow: K + D, since its inputs lie at even distances. -/
def State.rxParity (s : State) (f : Nat) : Nat :=
  (((s.rxFlow f).k + (s.fld (R.NET_RXF_DEPTH f) F.NET_RXF_DEPTH_DEPTH : Int)) % 2).toNat

/-- The ramp of a stop ends with its eighth sample (R321). -/
def RxFlow.endsBy (stopAt : Option Nat) (n : Nat) : Bool :=
  match stopAt with
  | some t => decide (t + 7 ≤ n)
  | none => false

/-- A stopped flow: the samples it held leave with it, unless it rests ready with its bobbin kept. -/
def RxFlow.atRest (x : RxFlow) (rest : Nat) : RxFlow :=
  let kept := if rest = 2 then x.bobbin else []
  { x with st := rest, stopAt := none, gap := none, since := 0, last := [], bobbin := kept }

/-- A running receive flow outputs sample n (R315, R321): its channels' samples enter the receive channels. -/
def State.rxStep (s : State) (n f : Nat) : State :=
  let x := s.rxFlow f
  let m := s.rxFmt f
  if !(3 ≤ x.st && x.st ≤ 5) || n < x.from_ then s
  else
    let held : Bool := match x.hold with | some h => decide (n < h) | none => false
    let x := if held then x else { x with hold := none }
    let v (c : Nat) : Int := x.last.getD c 0
    let got : Option (List Int) := if held then none else x.sampleAt m (s.rxParity f) n
    let lost := (x.missing.filter (fun e => e.2 ≤ n)).length
    let keep := x.bobbin.filter (fun e => n < e.1 + 16)
    let x := { x with bobbin := keep, missing := x.missing.filter (fun e => !(e.2 ≤ n)) }
    let s := s.countBy (R.NET_RXF_LOST_CNT f) lost
    let r : List Int × RxFlow × Bool := match got with
      | some vs =>
        let y := (List.range m.ch).map (fun c => fadeIn (vs.getD c 0) x.since)
        (y, { x with gap := none, since := min 8 (x.since + 1), last := vs, st := if x.st = 4 then 3 else x.st }, false)
      | none =>
        let g := match x.gap with | some g => g | none => 0
        let y := (List.range m.ch).map (fun c => fadeOut (v c) g)
        (y, { x with gap := some (g + 1), since := 0, st := if x.st = 3 && !held then 4 else x.st },
          x.gap.isNone && !held && x.st ≠ 5)
    let out : List Int := match x.stopAt with
      | some t => r.1.map (fun y => fadeOut y (n - t))
      | none => r.1
    let first : Nat := mapFirst (s.rd (R.NET_RXF_MAP f))
    let chan : Sparse Int := (List.range m.ch).foldl (fun (t : Sparse Int) c => Sparse.set (fun _ => (0 : Int)) t (first + c) (out.getD c 0)) s.net.chan
    let y : RxFlow := if RxFlow.endsBy x.stopAt n then RxFlow.atRest r.2.1 (s.restState (.rxFlow f)) else r.2.1
    let s := { s with net := { s.net with chan := chan } }
    let s := s.putRx f y
    if r.2.2 then
      ((s.count (R.NET_RXF_UNDER_CNT f)).flag R.NET_FLAGS F.NET_FLAGS_UNDERRUN).raise FS.NET_RX_UNDERRUN f 0
    else s

/-- Every receive flow outputs sample n; channels that no flow delivers read zero (R304). -/
def State.rxAll (s : State) (n : Nat) : State :=
  let s := { s with net := { s.net with chan := [] } }
  s.net.rx.foldl (fun t e => t.rxStep n e.1) s

/-! ### Transmission (R306, R312, R314, R317) -/

/-- An external word as big-endian bytes. -/
def beBytes (n : Nat) (c : Int) : List Byte :=
  let v := wrapN (8 * n) c
  (List.range n).map (fun i => BitVec.ofNat 8 (v / 256 ^ (n - 1 - i)))

/-- RTP timestamp of the sample computed as MSC m (R306). -/
def State.txStampOf (s : State) (f m : Nat) (k : Int) : Nat :=
  let r := (s.txFmt f).ratio
  ((((m : Int) - k) / (r : Int) + (s.rd (R.NET_TXF_OFFSET f) : Int)) % ((2 ^ 32 : Nat) : Int)).toNat

/-- A transmit flow takes the samples of its channels that the fabric has computed as MSC n; `word c` is the word of
transmit channel c. A 48 kHz flow sends what its decimator forms, which the spec states by its response only. -/
def State.txStep (s : State) (n f : Nat) (word : Nat → Int) : State :=
  let x := s.txFlow f
  let m := s.txFmt f
  if !(x.st = 3 || x.st = 5) || n < x.from_ then s
  else
    -- a new packet starts here: after a STOP none does
    let starts := x.first.isNone
    let k := if starts then (match x.nextK with | some k => k | none => x.k) else x.k
    let sends := m.hi || ((n : Int) - k) % 2 = 0
    if !sends || (starts && (match x.stopAt with | some t => decide (t ≤ n) | none => false)) then s
    else
      let first := mapFirst (s.rd (R.NET_TXF_MAP f))
      let s := if starts && x.nextK.isSome then s.txK f k else s
      let r := (List.range m.ch).foldl (fun (a : State × List Byte × Nat) c =>
        let v := if m.hi then word (first + c) else sext 32 a.1.freeVal
        let e := toExternal m.bits v
        (if m.hi then a.1 else a.1.bump, a.2.1 ++ beBytes m.sampleBytes e.1, a.2.2 + (if e.2 then 1 else 0))) (s, [], 0)
      let s := r.1
      let x := { x with first := some (if starts then n else x.first.getD n), k := k,
                        nextK := if starts then none else x.nextK, bytes := x.bytes ++ r.2.1, count := x.count + 1 }
      let x :=
        if m.spp ≤ x.count then
          let p : TxPacket := ⟨x.seq, s.txStampOf f (x.first.getD n) k, x.bytes, n + (if m.hi then 24 else 40), true,
            m.pair, false⟩
          { x with first := none, bytes := [], count := 0, seq := (x.seq + 1) % 65536, formed := x.formed ++ [p] }
        else x
      let s := s.putTx f x
      let s := if r.2.2 = 0 then s else
        (List.range r.2.2).foldl (fun (t : State) _ => t.raise FS.NET_TX_CLIP f 0)
          ((s.countBy (R.NET_TXF_CLIP_CNT f) r.2.2).flag R.NET_FLAGS F.NET_FLAGS_TX_CLIP)
      s.txSettle f

def State.txAll (s : State) (n : Nat) (word : Nat → Int) : State :=
  s.net.tx.foldl (fun t e => t.txStep n e.1 word) s

/-- Multicast addresses (R299). -/
def isMulticast (ip : Nat) : Bool := ip / 2 ^ 28 = 14

/-- The destination MAC address of a packet (R299): none for an unresolved unicast destination. -/
def State.dstMac (s : State) (ip : Nat) : Option Nat :=
  if isMulticast ip then some (0x01005E000000 + ip % 2 ^ 23) else (s.net.neigh.find? (fun e => e.1 = ip)).map (·.2)

/-- The port and the destination of a leg of a transmit flow (R317). -/
def State.txLeg (s : State) (f : Nat) (legB : Bool) : Nat × Nat :=
  let map := s.rd (R.NET_TXF_MAP f)
  if legB then (mapPortB map, s.rd (R.NET_TXF_DST_B f)) else (mapPortA map, s.rd (R.NET_TXF_DST_A f))

/-- One copy of a packet that cannot be sent: link down or no neighbour (R299, R317). -/
def State.legBlocked (s : State) (f : Nat) (legB : Bool) : Bool :=
  let l := s.txLeg f legB
  !s.linkUp l.1 || (s.dstMac l.2).isNone

/-- TX_PACKET_READY (R312): the oldest formed packet reaches its ready edge. An engine that does not drive its outputs,
or holds them in a fault release, does not send (R324, R428, R448). -/
def execTxPacketReady (f : Fin 1024) (s : State) : Res :=
  let x := s.txFlow f
  match x.formed with
  | [] => .next s
  | p :: rest =>
    if s.msc < p.readyAt then .next s
    else if !s.drives || s.releasing then .next ((s.putTx f { x with formed := rest }).txSettle f)
    else
      let a := p.legA && !s.legBlocked f false
      let b := p.legB && !s.legBlocked f true
      let drops := (if p.legA && !a then 1 else 0) + (if p.legB && !b then 1 else 0)
      let q := if a || b then x.ready ++ [{ p with legA := a, legB := b }] else x.ready
      .next (((s.putTx f { x with formed := rest, ready := q }).countBy (R.NET_TXF_DROP_CNT f) drops).txSettle f)

/-- TX_PACKET_DISCARD (R312): a ready packet could not leave within one packet time. -/
def execTxPacketDiscard (f : Fin 1024) (s : State) : Res :=
  let x := s.txFlow f
  match x.ready with
  | [] => .next s
  | p :: rest =>
    if s.msc < p.readyAt + (s.txFmt f).packetTime then .next s
    else
      let s := (s.putTx f { x with ready := rest }).txSettle f
      .next (((s.count (R.NET_TXF_DROP_CNT f)).flag R.NET_FLAGS F.NET_FLAGS_TX_LATE).raise FS.NET_TX_LATE f 0)

/-- The packet as it leaves on one leg (R299, R301, R314, R317), under the stream identity with SID_EN (R448). -/
def State.sentAs (s : State) (f : Nat) (legB : Bool) (p : TxPacket) : SentPacket :=
  let l := s.txLeg f legB
  let ip := R.NET_TXF_IPCFG f
  let sid := s.bit R.TWIN_CFG F.TWIN_CFG_SID_EN
  { port := l.1, flow := f, srcIp := s.rd (if sid then R.TWIN_SID_IP l.1 else R.NET_PORT_IP l.1),
    srcMac := if sid then s.rd (R.TWIN_SID_MAC_LO l.1) + s.rd (R.TWIN_SID_MAC_HI l.1) % 2 ^ 16 * 2 ^ 32
      else s.rd (R.NET_PORT_MAC_LO l.1) + s.rd (R.NET_PORT_MAC_HI l.1) % 2 ^ 16 * 2 ^ 32,
    dstIp := l.2, dstMac := (s.dstMac l.2).getD 0,
    srcPort := s.fld (R.NET_TXF_UDP f) F.NET_TXF_UDP_SRC_PORT, dstPort := s.fld (R.NET_TXF_UDP f) F.NET_TXF_UDP_DST_PORT,
    dscp := s.fld (R.NET_TXF_FMT f) F.NET_TXF_FMT_DSCP, ttl := s.fld ip F.NET_TXF_IPCFG_TTL,
    tag := if s.bit ip F.NET_TXF_IPCFG_VLAN_EN then
      some (s.fld ip F.NET_TXF_IPCFG_PCP, s.fld ip F.NET_TXF_IPCFG_VID) else none,
    pt := s.fld (R.NET_TXF_FMT f) F.NET_TXF_FMT_PT, ssrc := s.rd (R.NET_TXF_SSRC f), seq := p.seq, ts := p.ts,
    payload := p.payload }

/-- The oldest ready packet of a flow leaves on a leg. -/
def State.sendStream (s : State) (f : Nat) (legB : Bool) : State :=
  let x := s.txFlow f
  match x.ready with
  | [] => s
  | p :: rest =>
    if !(if legB then p.legB else p.legA) then s
    else
      let sent := s.sentAs f legB p
      let s := { s with out := { s.out with packets := sent :: s.out.packets } }
      let s := if p.sent then s else s.count (R.NET_TXF_PKT_CNT f)
      let p := { p with legA := p.legA && legB, legB := p.legB && !legB, sent := true }
      let q := if p.legA || p.legB then p :: rest else rest
      (s.putTx f { x with ready := q }).txSettle f

/-- FRAME_TRANSMIT (R284, R312): a frame leaves a port; `sub` as in FRAME_RECEIVE. -/
def execFrameTransmit (p : Fin 4) (what : Sending) (sub : Nat) (s : State) : Res :=
  if !s.linkUp p then .next s
  else
    match what with
    | .stream f legB => .next (if (s.txLeg f legB).1 = p.val then s.sendStream f legB else s)
    | .host none => .next s
    | .host (some (tb, id)) =>
      let t := s.stamp tb sub (s.portAdj (R.PTP_PORT_TX_ADJ p))
      .next (s.pushStamp p ⟨id, tb, s.epoch tb, false, t.1, t.2⟩)

/-! ### Computed registers (R327) -/

def State.flockMembers (s : State) (g : Nat) : List (Bool × Nat) :=
  ((s.net.rx.filter (fun e => e.2.st ≠ 0 && mapFlock (s.rd (R.NET_RXF_MAP e.1)) = g)).map (fun e => (false, e.1))) ++
    ((s.net.tx.filter (fun e => e.2.st ≠ 0 && mapFlock (s.rd (R.NET_TXF_MAP e.1)) = g)).map (fun e => (true, e.1)))

def State.flowState (s : State) (tx : Bool) (f : Nat) : Nat := if tx then (s.txFlow f).st else (s.rxFlow f).st

/-- NET_FLOCK_STAT with its live fields. -/
def State.flockWord (s : State) (g : Nat) : Nat :=
  let ms := s.flockMembers g
  let sts := ms.map (fun m => s.flowState m.1 m.2)
  s.fld (R.NET_FLOCK_STAT g) F.NET_FLOCK_STAT_SKIPPED * 2 ^ 24 + (if sts.contains 4 then 2 ^ 13 else 0) +
    (if sts.any (fun x => 3 ≤ x) then 2 ^ 12 else 0) + ms.length

/-- NET_STATUS. -/
def State.netStatus (s : State) : Nat :=
  (s.net.tx.filter (fun e => e.2.st = 3 || e.2.st = 5)).length * 2 ^ 15 +
    (s.net.rx.filter (fun e => 3 ≤ e.2.st)).length * 2 ^ 4 +
    (List.range 4).foldl (fun v p => v + (if s.linkUp p then 2 ^ p else 0)) 0

end Sys2Proof.Machine
end

