-- ==== Sys2Proof/Machine/QuiltDesc.lean ====
section
/-!
DEFINITION. The records of a pattern bank: stitches (R75), bus descriptors (R85) and destination map entries (R86).
-/

namespace Sys2Proof.Machine

/-- Bits [hi:lo] of a number. -/
def bitsOf (w hi lo : Nat) : Nat := w / 2 ^ lo % 2 ^ (hi + 1 - lo)

/-- A stitch record (R75). -/
structure Stitch where
  src : Nat
  bus : Nat
  /-- Q4.20 code as a signed number -/
  gain : Int
  shape : Nat
  len : Nat
  flags : Nat
  deriving DecidableEq, Repr

def stitchOf (w : DWord) : Stitch :=
  let v := w.toNat
  ⟨bitsOf v 63 51, bitsOf v 50 39, sext 24 (bitsOf v 38 15), bitsOf v 14 12, bitsOf v 11 6, bitsOf v 5 0⟩

def Stitch.nocount (x : Stitch) : Bool := x.flags % 2 = 1
def Stitch.solosafe (x : Stitch) : Bool := x.flags / 2 % 2 = 1
def Stitch.lifesafe (x : Stitch) : Bool := x.flags / 4 % 2 = 1
def Stitch.hold (x : Stitch) : Bool := x.flags / 8 % 2 = 1

/-- The target of a stitch as a current gain word, Q4.28 (R79). -/
def Stitch.target (x : Stitch) : Int := x.gain * 256

/-- A bus descriptor (R85). -/
structure BusDesc where
  tile : Nat
  first : Nat
  count : Nat
  asmode : Nat
  nmin : Nat
  nmax : Nat
  trim : Int
  asramp : Nat
  clip : Nat
  limthr : Nat
  dlyEn : Bool
  soloAffect : Bool
  dlytap : Nat
  dmapFirst : Nat
  dmapCount : Nat
  deriving DecidableEq, Repr

def zeroD : Nat → DWord := fun _ => 0#64
def zeroW : Nat → Word := fun _ => 0#32

/-- The descriptor of bus b. -/
def Bank.bus (k : Bank) (b : Nat) : BusDesc :=
  let w0 := (Sparse.get zeroD k.desc (4 * b)).toNat
  let w1 := (Sparse.get zeroD k.desc (4 * b + 1)).toNat
  let w2 := (Sparse.get zeroD k.desc (4 * b + 2)).toNat
  ⟨bitsOf w0 63 60, bitsOf w0 59 44, bitsOf w0 43 30, bitsOf w0 29 28, bitsOf w0 27 14, bitsOf w0 13 0,
    sext 24 (bitsOf w1 63 40), bitsOf w1 39 23, bitsOf w1 22 20, bitsOf w1 19 12, bitsOf w1 11 11 = 1,
    bitsOf w1 10 10 = 1, bitsOf w2 63 52, bitsOf w2 51 39, bitsOf w2 38 31⟩

/-- A bus is in use (R85). -/
def BusDesc.inUse (d : BusDesc) : Bool := 0 < d.count || 0 < d.dmapCount

/-- Adjacent equal numbers of a rising list removed. -/
def dedupRising : List Nat → List Nat
  | [] => []
  | a :: l => if l.head? = some a then dedupRising l else a :: dedupRising l

/-- Buses in use, ascending. -/
def Bank.used (k : Bank) : List Nat :=
  (dedupRising (k.desc.map (fun e => e.1 / 4))).filter (fun b => b < 4096 && (k.bus b).inUse)

/-- TYPE and INDEX of a destination map entry (R86). -/
def Bank.destOf (k : Bank) (e : Nat) : Nat × Nat :=
  let w := (Sparse.get zeroW k.dmap e).toNat
  (bitsOf w 31 28, bitsOf w 12 0)

/-- Number of destination channels of a TYPE. -/
def destLimit : Nat → Nat
  | 1 => 4096 | 2 => 1024 | 3 => 64 | 4 => 512 | 5 => 16 | 6 => 1024 | _ => 0

/-- The destinations that a bank feeds: bus and 8,192·TYPE + INDEX, by bus and map entry. -/
def Bank.feeds (k : Bank) : List (Nat × Nat) :=
  k.used.flatMap (fun b =>
    let d := k.bus b
    (List.range d.dmapCount).filterMap (fun i =>
      let t := k.destOf (d.dmapFirst + i)
      if t.1 = 0 then none else some (b, 8192 * t.1 + t.2)))

/-- Slot key of entry i of the list of bus b: 65,536·tile + slot. -/
def BusDesc.slot (d : BusDesc) (i : Nat) : Nat := 65536 * d.tile + d.first + i

def Bank.slot (k : Bank) (key : Nat) : DWord := Sparse.get zeroD k.slots key
def Bank.gain (k : Bank) (key : Nat) : Int := (Sparse.get zeroW k.gains key).toInt

end Sys2Proof.Machine
end

