-- ==== Sys2Proof/Machine/Port.lean ====
section
/-!
DEFINITION. The Port Engine (R328 to R360): groups and APPLY, frames and anchors, lock, channel status, rate conversion
locks, starts and stops, gaps and gates, and the frames that leave at media clock edges.
-/

namespace Sys2Proof.Machine

/-! ### Ports and their registers -/

def LocalPort.kind : LocalPort → Nat
  | .arx _ => 0 | .atx _ => 1 | .tdm _ => 2

def LocalPort.index : LocalPort → Nat
  | .arx r => r | .atx t => t | .tdm p => p

def LocalPort.key (q : LocalPort) : Nat := 64 * q.kind + q.index

/-- The unit of a port's fault events: its index; the kind above bit 15 does not enter the info word and tells a BLKRST
reaction which port is meant. -/
def LocalPort.unit (q : LocalPort) : Nat := 65536 * q.kind + q.index

/-- What an event calls the port (R62). -/
def LocalPort.obj : LocalPort → Obj
  | .arx r => .arx r | .atx t => .atx t | .tdm p => .tdm p

/-- The port of a key. -/
def portOfKey (k : Nat) : LocalPort :=
  if k < 64 then .arx (Fin.ofNat 32 k) else if k < 128 then .atx (Fin.ofNat 32 k) else .tdm (Fin.ofNat 16 k)

def State.lport (s : State) (q : LocalPort) : LPort := Sparse.get (fun _ => {}) s.port.ports q.key

def State.setPort (s : State) (q : LocalPort) (x : LPort) : State :=
  { s with port := { s.port with ports := Sparse.set (fun _ => {}) s.port.ports q.key x } }

def LocalPort.cfgAddr : LocalPort → Nat
  | .arx r => R.PORT_ARX_CFG r | .atx t => R.PORT_ATX_CFG t | .tdm p => R.PORT_TDM_CFG p

def LocalPort.statAddr : LocalPort → Nat
  | .arx r => R.PORT_ARX_STAT r | .atx t => R.PORT_ATX_STAT t | .tdm p => R.PORT_TDM_STAT p

/-- The registers of a port's group but its channel-status and user-bit registers (R345). -/
def LocalPort.mainGroup : LocalPort → List Nat
  | .arx r => [R.PORT_ARX_CFG r]
  | .atx t => [R.PORT_ATX_CFG t]
  | .tdm p => [R.PORT_TDM_CFG p, R.PORT_TDM_RXMASK p, R.PORT_TDM_TXMASK p] ++
      (List.range 32).map (fun i => R.PORT_TDM_RXMAP p i) ++ (List.range 32).map (fun i => R.PORT_TDM_TXMAP p i)

/-- The channel-status and user-bit registers of a group. -/
def LocalPort.csGroup : LocalPort → List Nat
  | .atx t => (List.range 6).flatMap (fun w =>
      [R.PORT_ATX_CS_A t w, R.PORT_ATX_CS_B t w, R.PORT_ATX_UB_A t w, R.PORT_ATX_UB_B t w])
  | _ => []

def LPort.pending (x : LPort) : Bool := !x.pend.isEmpty || !x.csPend.isEmpty

/-- STATE, SHADOW_PENDING and ended groups as the status registers show them. -/
def State.syncPort (s : State) (q : LocalPort) : State :=
  let x := s.lport q
  let s := s.setFld q.statAddr F.PORT_ATX_STAT_STATE x.st
  match q with
  | .arx _ => s
  | .atx t => s.setBit (R.PORT_ATX_STAT t) F.PORT_ATX_STAT_SHADOW_PENDING x.pending
  | .tdm p => s.setBit (R.PORT_TDM_STAT p) F.PORT_TDM_STAT_SHADOW_PENDING x.pending

def State.putPort (s : State) (q : LocalPort) (x : LPort) : State := (s.setPort q x).syncPort q

/-! ### The fields of a configuration word -/

structure PortCfg where
  en : Bool
  flock : Nat
  asrc : Bool
  hi : Bool
  silent : Bool
  /-- CLKSRC and RXSEL of a transmitter -/
  clksrc : Nat
  rxsel : Nat
  master : Bool
  delay : Nat
  format : Nat
  width : Nat
  slots : Nat
  deriving DecidableEq, Repr

def LocalPort.cfg (q : LocalPort) (w : Nat) : PortCfg :=
  match q with
  | .arx _ => ⟨bitsOf w 31 31 = 1, bitsOf w 22 16, bitsOf w 0 0 = 1, bitsOf w 2 2 = 1, bitsOf w 4 4 = 1, 0, 0, false,
      0, 0, 1, 2⟩
  | .atx _ => ⟨bitsOf w 31 31 = 1, bitsOf w 22 16, bitsOf w 9 8 ≠ 0, bitsOf w 2 2 = 1, bitsOf w 0 0 = 1, bitsOf w 9 8,
      bitsOf w 7 3, false, 0, 0, 1, 2⟩
  | .tdm _ => ⟨bitsOf w 31 31 = 1, bitsOf w 22 16, bitsOf w 13 13 = 1, bitsOf w 11 11 = 1, bitsOf w 14 14 = 1, 0, 0,
      bitsOf w 12 12 = 1, bitsOf w 10 10, bitsOf w 9 8, bitsOf w 7 6, bitsOf w 5 0⟩

/-- The configuration in force. -/
def State.portCfg (s : State) (q : LocalPort) : PortCfg := q.cfg (s.rd q.cfgAddr)

/-- The word of a group register as the latest accepted group has it, in force or waiting (R346). -/
def State.accepted (s : State) (q : LocalPort) (a : Nat) : Nat :=
  match ((s.lport q).pend.find? (fun e => e.1 = a)) with
  | some e => e.2.toNat
  | none => s.rd a

def PortCfg.bits (c : PortCfg) : Nat := [16, 24, 32, 32].getD c.width 32
def PortCfg.rate (c : PortCfg) : Nat := if c.hi then 96000 else 48000

/-- A port is locked and clocked: it receives frames. -/
def State.portLive (s : State) (q : LocalPort) : Bool :=
  match q with
  | .arx r => s.bitAt R.PORT_AES_LOCK r
  | .atx t => !s.bit (R.PORT_ATX_STAT t) F.PORT_ATX_STAT_CLK_LOSS
  | .tdm p => s.bit (R.PORT_TDM_STAT p) F.PORT_TDM_STAT_CLK

def LocalPort.asrcFld : LocalPort → Fld
  | .arx _ => F.PORT_ARX_STAT_ASRC_LOCK | .atx _ => F.PORT_ATX_STAT_ASRC_LOCK | .tdm _ => F.PORT_TDM_STAT_ASRC_LOCK

def State.asrcLocked (s : State) (q : LocalPort) : Bool := s.bit q.statAddr q.asrcFld

/-- RATE_ERR of a port (R332); a transmitter has none. -/
def State.rateErr (s : State) (q : LocalPort) : Bool :=
  match q with
  | .arx r => s.bit (R.PORT_ARX_STAT r) F.PORT_ARX_STAT_RATE_ERR
  | .atx _ => false
  | .tdm p => s.bit (R.PORT_TDM_STAT p) F.PORT_TDM_STAT_RATE_ERR

/-- PORT_STATUS.TDM_CLK and PORT_TDM_STAT.CLK. -/
def State.setTdmClk (s : State) (p : Nat) (b : Bool) : State :=
  (s.setBit (R.PORT_TDM_STAT p) F.PORT_TDM_STAT_CLK b).setBitAt R.PORT_STATUS p b

/-! ### The checks of APPLY (R341, R342, R345, R347) -/

/-- FIELD. -/
def portFieldBad (q : LocalPort) (w : Nat → Nat) : Bool :=
  let c := q.cfg (w q.cfgAddr)
  (64 ≤ c.flock && c.flock < 127) ||
    (match q with
     | .tdm p => c.format = 3 || c.width = 3 || c.slots = 0 || 32 < c.slots || (c.master && c.asrc) ||
        (List.range 32).any (fun i => 3 < bitsOf (w (R.PORT_TDM_RXMAP p i)) 31 28 ||
          1 < bitsOf (w (R.PORT_TDM_TXMAP p i)) 31 28)
     | _ => false)

/-- The fields whose change code STATE forbids. -/
def PortCfg.fixed (c : PortCfg) : List Nat :=
  [if c.en then 1 else 0, c.flock, if c.asrc then 1 else 0, if c.hi then 1 else 0, c.clksrc, c.rxsel,
    if c.master then 1 else 0, c.delay, c.format, c.width, c.slots]

/-- CLOCK (R341). -/
def portClockBad (c : PortCfg) : Bool :=
  let bclk := c.slots * c.bits * c.rate
  (c.format < 2 && c.slots ≠ 2) ||
    (!c.asrc && ((if c.hi then 16 else 32) < c.slots || 49152000 < bclk ||
      (c.master && (98304000 % bclk ≠ 0 || 98304000 / bclk < 2))))

/-- The route of a receive slot (R342): TYPE and INDEX. -/
def routeOf (w : Nat) : Nat × Nat := (bitsOf w 31 28, bitsOf w 12 0)

def routeLimit : Nat → Nat
  | 1 => 448 | 2 => 1024 | 3 => 4096 | _ => 8192

/-- What the enabled receive slots of a TDM port name: TYPE and INDEX, with the slot. -/
def tdmRoutes (p : Fin 16) (w : Nat → Nat) : List (Nat × (Nat × Nat)) :=
  let c := (LocalPort.tdm p).cfg (w (R.PORT_TDM_CFG p))
  if !c.en then []
  else ((List.range (min 32 c.slots)).filter (fun i => w (R.PORT_TDM_RXMASK p) / 2 ^ i % 2 = 1)).filterMap (fun i =>
    let r := routeOf (w (R.PORT_TDM_RXMAP p i))
    if r.1 = 0 then none else some (i, r))

def allTdm : List (Fin 16) := (List.range 16).map (Fin.ofNat 16)

/-- ROUTE: the first failing slot. -/
def State.portRouteBad (s : State) (q : LocalPort) (w : Nat → Nat) : Option Nat :=
  match q with
  | .tdm p =>
    let mine := tdmRoutes p w
    let others := (allTdm.filter (fun o => o ≠ p)).flatMap (fun o => (tdmRoutes o (s.accepted (.tdm o))).map (·.2))
    (List.range 32).find? (fun i =>
      let r := routeOf (w (R.PORT_TDM_RXMAP p i))
      (1 ≤ r.1 && r.1 ≤ 3 && routeLimit r.1 ≤ r.2) ||
        mine.any (fun e => e.1 = i && (others.contains e.2 || mine.any (fun d => d.1 ≠ i && d.2 = e.2))))
  | _ => none

/-- ASRC channels of a group (R347). -/
def asrcOf (q : LocalPort) (w : Nat → Nat) : Nat :=
  let c := q.cfg (w q.cfgAddr)
  if !c.en || !c.asrc then 0
  else
    match q with
    | .tdm p =>
      let on (mask i : Nat) : Bool := i < c.slots && w mask / 2 ^ i % 2 = 1
      ((List.range 32).filter (fun i => on (R.PORT_TDM_RXMASK p) i && bitsOf (w (R.PORT_TDM_RXMAP p i)) 31 28 ≠ 0)).length +
        ((List.range 32).filter (fun i => on (R.PORT_TDM_TXMASK p) i && bitsOf (w (R.PORT_TDM_TXMAP p i)) 31 28 ≠ 0)).length
    | _ => 2

def allPorts : List LocalPort :=
  (List.range 32).map (fun r => .arx (Fin.ofNat 32 r)) ++ (List.range 32).map (fun t => .atx (Fin.ofNat 32 t)) ++
    allTdm.map .tdm

/-- ASRC channels of all accepted groups but one. -/
def State.asrcUsed (s : State) (skip : Option LocalPort) : Nat :=
  allPorts.foldl (fun n q => if some q = skip then n else n + asrcOf q (s.accepted q)) 0

/-- Code and slot of R345. -/
def State.portCheck (s : State) (q : LocalPort) : Nat × Nat :=
  let w (a : Nat) : Nat := s.sh a
  let c := q.cfg (w q.cfgAddr)
  let x := s.lport q
  if portFieldBad q w then (1, 0)
  else if x.st ≠ 0 && x.st ≠ 1 && c.fixed ≠ (q.cfg (s.accepted q q.cfgAddr)).fixed then (2, 0)
  else if (match q with | .tdm _ => portClockBad c | _ => false) then (3, 0)
  else
    match s.portRouteBad q w with
    | some i => (4, i)
    | none => if 512 < s.asrcUsed (some q) + asrcOf q w then (5, 0) else (0, 0)

/-- Destination channels that direct routes name (R342), as 8,192·TYPE + INDEX. -/
def State.directDests (s : State) : List Nat :=
  allTdm.flatMap (fun p => (tdmRoutes p (s.rd ·)).filterMap (fun e =>
    if e.2.1 = 2 then some (8192 * 2 + e.2.2) else if e.2.1 = 3 then some (8192 * 1 + e.2.2) else none))

/-- R342: at an APPLY and at a swap, a LIVE bus that maps to a channel of a direct route. -/
def State.directOverride (s : State) (extra : List Nat) : State :=
  let ds := s.directDests ++ extra
  if s.quilt.live.feeds.any (fun e => ds.contains e.2) then s.flag R.PORT_FLAGS F.PORT_FLAGS_DIRECT_OVR else s

/-- A write to PORT_APPLY with GO (R345, R346). -/
def State.portApply (s : State) (q : LocalPort) : State :=
  let code := s.portCheck q
  let s := s.wrN R.PORT_APPLY_RESULT (code.1 * 2 ^ 24 + code.2 * 2 ^ 16 + q.kind * 2 ^ 8 + q.index)
  let x := s.lport q
  if code.1 ≠ 0 then
    ((s.reloadShadows (q.mainGroup ++ q.csGroup) (x.pend ++ x.csPend)).flag R.PORT_FLAGS F.PORT_FLAGS_APPLY_ERR).raise
      FS.PORT_APPLY_ERR q.unit 0
  else
    let c := q.cfg (s.sh q.cfgAddr)
    let routes : List Nat := match q with
      | .tdm p => (tdmRoutes p (s.sh ·)).filterMap (fun e =>
          if e.2.1 = 2 then some (8192 * 2 + e.2.2) else if e.2.1 = 3 then some (8192 * 1 + e.2.2) else none)
      | _ => []
    let s :=
      if !c.en then
        -- OFF at once, pins idle
        let s := (s.takeConfig (q.mainGroup ++ q.csGroup)).putPort q {}
        match q with
        | .arx r => (s.setBitAt R.PORT_AES_LOCK r false).wrN (R.PORT_ARX_STAT r) 0
        | .atx t => s.wrN (R.PORT_ATX_STAT t) 0
        | .tdm p => (s.setTdmClk p false).wrN (R.PORT_TDM_STAT p) 0
      else
        let capture (l : List Nat) : List (Nat × Word) := l.map (fun a => (a, s.shadowOf a))
        let s := s.putPort q { x with st := if x.st = 0 then 1 else x.st, pend := capture q.mainGroup,
                                      csPend := capture q.csGroup }
        -- a master derives its own clock
        match q with
        | .tdm p => if c.master then s.setTdmClk p true else s
        | _ => s
    let s := s.setFld R.PORT_STATUS F.PORT_STATUS_ASRC_USED (s.asrcUsed none)
    s.directOverride routes

def execPortApply (q : LocalPort) (s : State) : Res := .next (s.portApply q)

/-- A MEDIA transmitter's channel-status block starts in the frame that begins at this edge (R330, R340). -/
def State.blockFrame (s : State) (q : LocalPort) : Bool :=
  match q with
  | .atx _ =>
    let c := s.portCfg q
    c.asrc || (if c.hi then s.msc % 192 = 16 else s.msc % 384 = 32)
  | _ => true

/-- PORT_GROUP_TAKE_EFFECT (R346): at a frame boundary, or (`cs`) at the port's block start. -/
def execPortGroupTakeEffect (q : LocalPort) (cs : Bool) (s : State) : Res :=
  let x := s.lport q
  if x.st = 0 then .next s
  else if cs then
    if x.csPend.isEmpty || !s.blockFrame q then .next s
    else .next ((s.activateConfig x.csPend).putPort q { x with csPend := [] })
  else
    let waits : Bool := match q with | .tdm p => !s.bit (R.PORT_TDM_STAT p) F.PORT_TDM_STAT_CLK | _ => false
    if x.pend.isEmpty || waits then .next s
    else .next ((s.activateConfig x.pend).putPort q { x with pend := [] })

/-! ### Received frames (R330, R331, R334, R336) -/

def LPort.rxCh (x : LPort) (c : Nat) : PortCh := Sparse.get (fun _ => {}) x.rx c
def LPort.setRxCh (x : LPort) (c : Nat) (k : PortCh) : LPort := { x with rx := Sparse.set (fun _ => {}) x.rx c k }
def LPort.txCh (x : LPort) (c : Nat) : PortCh := Sparse.get (fun _ => {}) x.tx c
def LPort.setTxCh (x : LPort) (c : Nat) (k : PortCh) : LPort := { x with tx := Sparse.set (fun _ => {}) x.tx c k }

/-- The MSC that a SYNC frame is assigned, the new anchor, and whether the port slips (R331). -/
def assign (anchor : Option (Nat × Nat)) (hi : Bool) (ts : Nat) : Nat × (Nat × Nat) × Bool :=
  let edge := ts / 256
  match anchor with
  | none => (edge, (edge, 1), false)
  | some (m0, j) =>
    let m := m0 + (if hi then 1 else 2) * j
    if 4 < ((m : Int) - (edge : Int)).natAbs then (edge, (edge, 1), true) else (m, (m0, j + 1), false)

/-- Non-audio bit of the latest accepted block of a subframe (R334). -/
def State.nonAudio (s : State) (r sub : Nat) : Bool :=
  s.rd (if sub = 0 then R.PORT_ARX_CS_A r 0 else R.PORT_ARX_CS_B r 0) / 2 % 2 = 1

/-- An AES3 subframe: its sample, or none where it is missing, and the counters that it moves (R334). -/
def State.aesWord (s : State) (r : Fin 32) (sub : Nat) (w : RxWord) : State × Option Int :=
  let cfg := R.PORT_ARX_CFG r
  let s := if w.parityOk then s else s.count (R.PORT_ARX_PAR_CNT r)
  let muted := s.bit cfg F.PORT_ARX_CFG_VPOL && w.invalid
  let s := if muted then (s.count (R.PORT_ARX_VAL_CNT r)).flag R.PORT_FLAGS F.PORT_FLAGS_VALID else s
  if !w.parityOk || muted || (s.bit cfg F.PORT_ARX_CFG_NAMUTE && s.nonAudio r sub) then (s, none)
  else
    let v := w.bits.toNat % 2 ^ 24
    (s, some (fromExternal 24 (sext 24 (if s.bit cfg F.PORT_ARX_CFG_WL20 then v / 16 * 16 else v))))

/-- A sample, or its absence, enters a receive channel at a position. -/
def PortCh.enter (k : PortCh) (pos : Nat) (v : Option Int) (slip asrc : Bool) : PortCh :=
  let k := if slip then { k with buf := k.buf.filter (fun e => e.1 < pos), cut := some pos } else k
  match v with
  | some x => if asrc then k else { k with buf := Sparse.put k.buf pos x }
  | none => if asrc then { k with bad := pos :: k.bad } else { k with buf := Sparse.erase k.buf pos }

/-- LOCAL_FRAME_RECEIVE (R331): a frame with its timestamp in units of 1/256 sample. On the ASRC path its samples take
part in the port's rate conversion, and a missing one leaves its position missing. -/
def execLocalFrameReceive (q : LocalPort) (ts : Nat) (words : List RxWord) (s : State) : Res :=
  let c := s.portCfg q
  let x := s.lport q
  if x.st = 0 || !s.portLive q then .next s
  else
    match q with
    | .atx _ => .next s
    | .arx r =>
      let a := assign x.anchor c.hi ts
      let slip := a.2.2 && !c.asrc
      let pos := if c.asrc then ts / 256 + 64 else a.1 + (if c.hi then 16 else 32)
      let x := { x with anchor := some a.2.1 }
      let e := (List.range 2).foldl (fun (e : State × LPort) i =>
        match words[i]? with
        | some w =>
          let v := e.1.aesWord r i w
          (v.1, e.2.setRxCh i ((e.2.rxCh i).enter pos v.2 slip c.asrc))
        | none => e) (s, x)
      let s := e.1.setPort q e.2
      .next (if slip then ((s.count (R.PORT_ARX_SLIP_CNT r)).flag R.PORT_FLAGS F.PORT_FLAGS_SLIP).raise FS.PORT_SLIP
        q.unit 0 else s)
    | .tdm p =>
      let a := assign x.anchor c.hi ts
      let slip := a.2.2 && !c.asrc
      let pos := if c.asrc then ts / 256 + 64 else a.1 + (if c.hi then 16 else 32)
      let x := { x with anchor := some a.2.1 }
      let x := (List.range (min 32 c.slots)).foldl (fun (y : LPort) i =>
        match words[i]? with
        | some w => y.setRxCh i ((y.rxCh i).enter pos (some (fromExternal c.bits (sext c.bits w.bits.toNat))) slip c.asrc)
        | none => y) x
      let s := s.setPort q x
      .next (if slip then ((s.count (R.PORT_TDM_SLIP_CNT p)).flag R.PORT_FLAGS F.PORT_FLAGS_SLIP).raise FS.PORT_SLIP
        q.unit 0 else s)

/-! ### Rate, lock, channel status and clocks -/

/-- RATE_MEASURE (R332, R333): the frame rate of the latest 1,024 frames in units of 1/16 Hz, against the media clock. -/
def execRateMeasure (q : LocalPort) (rate : Nat) (s : State) : Res :=
  let c := s.portCfg q
  if (s.lport q).st = 0 || !s.portLive q then .next s
  else
    let nominal := 16 * c.rate
    let off := nominal < 1000 * ((rate : Int) - nominal).natAbs
    match q with
    | .atx _ => .next s
    | .arx r =>
      let s := s.wrN (R.PORT_ARX_RATE r) rate
      if c.asrc then
        .next (s.setBit (R.PORT_ARX_STAT r) F.PORT_ARX_STAT_RATE_ERR (rate < 16 * 32000 || 16 * 192000 < rate))
      else
        let was := s.rateErr q
        let s := s.setBit (R.PORT_ARX_STAT r) F.PORT_ARX_STAT_RATE_ERR off
        .next (if off && !was then (s.flag R.PORT_FLAGS F.PORT_FLAGS_RATE_ERR).raise FS.PORT_RATE_ERR q.unit 0 else s)
    | .tdm p =>
      if c.asrc || c.master then .next s
      else
        let was := s.rateErr q
        let s := s.setBit (R.PORT_TDM_STAT p) F.PORT_TDM_STAT_RATE_ERR off
        .next (if off && !was then (s.flag R.PORT_FLAGS F.PORT_FLAGS_RATE_ERR).raise FS.PORT_RATE_ERR q.unit 0 else s)

/-- AES_LOCK (R333). -/
def execAesLock (r : Fin 32) (s : State) : Res :=
  let q := LocalPort.arx r
  let x := s.lport q
  if x.st = 0 then .next s
  else .next (((s.setBitAt R.PORT_AES_LOCK r true).setBit (R.PORT_ARX_STAT r) F.PORT_ARX_STAT_LOCK true).setPort q
    { x with anchor := none })

/-- AES_UNLOCK (R333). -/
def execAesUnlock (r : Fin 32) (s : State) : Res :=
  if !s.bitAt R.PORT_AES_LOCK r then .next s
  else
    let s := (s.setBitAt R.PORT_AES_LOCK r false).setBit (R.PORT_ARX_STAT r) F.PORT_ARX_STAT_LOCK false
    .next (((s.count (R.PORT_ARX_UNLOCK_CNT r)).flag R.PORT_FLAGS F.PORT_FLAGS_UNLOCK).raise FS.PORT_AES_UNLOCK
      (LocalPort.arx r).unit 0)

/-- One bit of the CRCC of R335, in transmission order. -/
def crccBit (c b : Nat) : Nat := if (c + b) % 2 = 1 then (c / 2) ^^^ 0xB8 else c / 2

/-- The CRCC of bytes 0–22 of a channel-status block, as the byte 23 that it must equal. -/
def crcc (cs : Nat) : Nat := (List.range 184).foldl (fun c i => crccBit c (cs / 2 ^ i % 2)) 0xFF

/-- A block of 192 bits written to a group of six words (R340). -/
def State.wr192 (s : State) (a : Nat → Nat) (v : Nat) : State :=
  (List.range 6).foldl (fun t w => t.wrN (a w) (v / 2 ^ (32 * w) % 2 ^ 32)) s

/-- The channel status of one subframe (R335). -/
def State.csBlock (s : State) (r : Fin 32) (a : Nat → Nat) (cs : Nat) : State :=
  let pro := cs % 2 = 1
  if pro && s.bit (R.PORT_ARX_CFG r) F.PORT_ARX_CFG_CRCCHK && crcc cs ≠ cs / 2 ^ 184 % 256 then
    ((s.count (R.PORT_ARX_CRC_CNT r)).flag R.PORT_FLAGS F.PORT_FLAGS_CRC).raise FS.PORT_AES_CRC (LocalPort.arx r).unit 0
  else
    let st := R.PORT_ARX_STAT r
    (((s.wr192 a cs).setBit st F.PORT_ARX_STAT_CONSUMER (!pro)).setBit st F.PORT_ARX_STAT_NONAUDIO
      (cs / 2 % 2 = 1)).setBit st F.PORT_ARX_STAT_CS_NEW true

/-- CS_BLOCK_END (R335): a block of both subframes ends at a Z preamble; `whole` is false where that Z came before or
after frame 192. -/
def execCsBlockEnd (r : Fin 32) (whole : Bool) (csA csB ubA ubB : BitVec 192) (s : State) : Res :=
  if !s.bitAt R.PORT_AES_LOCK r then .next s
  else if !whole then
    .next (((s.count (R.PORT_ARX_BLKERR_CNT r)).flag R.PORT_FLAGS F.PORT_FLAGS_BLKERR).raise FS.PORT_AES_BLOCK
      (LocalPort.arx r).unit 0)
  else
    let s := (s.csBlock r (R.PORT_ARX_CS_A r) csA.toNat).csBlock r (R.PORT_ARX_CS_B r) csB.toNat
    .next ((s.wr192 (R.PORT_ARX_UB_A r) ubA.toNat).wr192 (R.PORT_ARX_UB_B r) ubB.toNat)

/-- The address of word w of a receive group: 0 CS_A, 1 CS_B, 2 UB_A, 3 UB_B. -/
def arxGroupAddr (r : Nat) (g : Fin 4) (w : Nat) : Nat :=
  match g with
  | 0 => R.PORT_ARX_CS_A r w | 1 => R.PORT_ARX_CS_B r w | 2 => R.PORT_ARX_UB_A r w | 3 => R.PORT_ARX_UB_B r w

/-- R340: a read of word 0 of a receive group latches its other five words and, for CS_A, clears CS_NEW. -/
def State.csLatch (s : State) (r : Nat) (g : Fin 4) : State :=
  let s := [1, 2, 3, 4, 5].foldl (fun (t : State) w => t.latchHi (arxGroupAddr r g w) (s.reg (arxGroupAddr r g w))) s
  if g = 0 then s.setBit (R.PORT_ARX_STAT r) F.PORT_ARX_STAT_CS_NEW false else s

def execArxCsRead (r : Fin 32) (g : Fin 4) (s : State) : Res :=
  let w := s.reg (arxGroupAddr r g 0)
  let s := s.csLatch r g
  .next { s with out := { s.out with busData := w, busErr := false } }

/-- ASRC_LOCK (R349): the channels of the port fade in. -/
def execAsrcLock (q : LocalPort) (s : State) : Res :=
  let x := s.lport q
  if x.st = 0 || !(s.portCfg q).asrc || !s.portLive q || s.asrcLocked q then .next s
  else
    let fresh (m : Sparse PortCh) : Sparse PortCh :=
      m.map (fun e => (e.1, { e.2 with gap := none, since := 8, bad := [] }))
    .next ((s.setBit q.statAddr q.asrcFld true).setPort q { x with lockAt := s.msc, rx := fresh x.rx })

/-- ASRC_UNLOCK (R349). -/
def execAsrcUnlock (q : LocalPort) (s : State) : Res :=
  if !s.asrcLocked q then .next s
  else .next (((s.setBit q.statAddr q.asrcFld false).flag R.PORT_FLAGS F.PORT_FLAGS_ASRC_UNLOCK).raise
    FS.PORT_ASRC_UNLOCK q.unit 0)

/-- ATX_CLK_LOSS (R338): the named clock is absent or out of range; a MEDIA transmitter has no such clock. -/
def execAtxClkLoss (t : Fin 32) (s : State) : Res :=
  let q := LocalPort.atx t
  let x := s.lport q
  if x.st = 0 || !(s.portCfg q).asrc then .next s
  else
    let was := s.bit (R.PORT_ATX_STAT t) F.PORT_ATX_STAT_CLK_LOSS
    let s := (s.setBit (R.PORT_ATX_STAT t) F.PORT_ATX_STAT_CLK_LOSS true).setPort q { x with resume := none, sent := [] }
    .next (if was then s else (s.flag R.PORT_FLAGS F.PORT_FLAGS_CLK_LOSS).raise FS.PORT_CLK_LOSS q.unit 0)

/-- ATX_CLOCK_RETURN (R338): the transmitter resumes at the next block start. -/
def execAtxClockReturn (t : Fin 32) (s : State) : Res :=
  let q := LocalPort.atx t
  if s.bit (R.PORT_ATX_STAT t) F.PORT_ATX_STAT_CLK_LOSS then
    .next (s.setPort q { s.lport q with resume := some (8 * (s.msc / 8) + 8) })
  else .next s

/-- At a block start the transmitters whose clock has returned resume. -/
def State.portsBlockStart (s : State) : State :=
  s.port.ports.foldl (fun t e =>
    match e.2.resume with
    | some k => if k ≤ t.msc then (t.setBit (portOfKey e.1).statAddr F.PORT_ATX_STAT_CLK_LOSS false).setPort
        (portOfKey e.1) { t.lport (portOfKey e.1) with resume := none } else t
    | none => t) s

/-- TDM_CLK_LOSS (R357). -/
def execTdmClkLoss (p : Fin 16) (s : State) : Res :=
  let q := LocalPort.tdm p
  let x := s.lport q
  if x.st = 0 || (s.portCfg q).master || !s.bit (R.PORT_TDM_STAT p) F.PORT_TDM_STAT_CLK then .next s
  else
    let s := (s.setTdmClk p false).setPort q { x with sent := [] }
    .next (((s.count (R.PORT_TDM_CLKLOSS_CNT p)).flag R.PORT_FLAGS F.PORT_FLAGS_CLK_LOSS).raise FS.PORT_CLK_LOSS q.unit 0)

/-- TDM_CLK_RETURN (R357): the port resumes at its next frame, with a new lock and anchor (R331). -/
def execTdmClkReturn (p : Fin 16) (s : State) : Res :=
  let q := LocalPort.tdm p
  let x := s.lport q
  if x.st = 0 then .next s
  else .next ((s.setTdmClk p true).setPort q { x with anchor := none })

/-! ### Starting and stopping (R351, R353 to R355) -/

def State.portPending (s : State) (q : LocalPort) : State :=
  let x := s.lport q
  if x.st = 1 then s.putPort q { x with st := 2 } else s

def State.portUnpend (s : State) (q : LocalPort) : State :=
  let x := s.lport q
  if x.st = 2 then s.putPort q { x with st := 1 } else s

/-- A channel starts at T under R353. -/
def PortCh.start (k : PortCh) (silent : Bool) (t : Nat) : PortCh :=
  { k with gap := none, since := if silent then 8 else 0, last := 0, gate := if silent then some t else none,
           stopAt := none, ended := false }

/-- A channel of a stopping port at a START (R355). -/
def PortCh.restart (k : PortCh) (silent : Bool) (t : Nat) : PortCh :=
  if k.ended then k.start silent t else { k with stopAt := none }

/-- Channels of a port: both subframes, or the slots in use. -/
def PortCfg.channels (q : LocalPort) (c : PortCfg) : Nat :=
  match q with
  | .tdm _ => min 32 c.slots
  | _ => 2

def mapChannels (n : Nat) (f : PortCh → PortCh) (m : Sparse PortCh) : Sparse PortCh :=
  (List.range n).foldl (fun t i => Sparse.set (fun _ => {}) t i (f (Sparse.get (fun _ => {}) t i))) m

/-- START fires at T. -/
def State.portStart (s : State) (q : LocalPort) (t : Nat) : State :=
  let x := s.lport q
  let c := s.portCfg q
  let n := PortCfg.channels q c
  if x.st = 2 then
    s.putPort q { x with st := 3, anchor := none, rx := mapChannels n (fun k => k.start c.silent t) x.rx,
                         tx := mapChannels n (fun k => k.start c.silent t) x.tx }
  else if x.st = 4 then
    s.putPort q { x with st := 3, anchor := none, rx := mapChannels n (fun k => k.restart c.silent t) x.rx,
                         tx := mapChannels n (fun k => k.restart c.silent t) x.tx }
  else s

/-- STOP fires at S (R354): a channel whose gate is closed has ended already. -/
def State.portStop (s : State) (q : LocalPort) (t : Nat) : State :=
  let x := s.lport q
  let n := PortCfg.channels q (s.portCfg q)
  let stop (k : PortCh) : PortCh := { k with stopAt := some t, ended := k.ended || k.gate.isSome, gate := none }
  if x.st = 3 then s.putPort q { x with st := 4, rx := mapChannels n stop x.rx, tx := mapChannels n stop x.tx } else s

/-! ### One sample of a channel -/

/-- The gap law of R336 on the sample at position n, or its absence. -/
def PortCh.hear (k : PortCh) (n : Nat) (v : Option Int) : Int × PortCh :=
  let cutNow : Bool := match k.cut with | some p => decide (p ≤ n) | none => false
  let k := if cutNow then { k with cut := none, since := 0 } else k
  match v with
  | some x =>
    (fadeIn x k.since, { k with gap := none, since := min 8 (k.since + 1), last := x })
  | none =>
    let g := match k.gap with | some g => g | none => 0
    (fadeOut k.last g, { k with gap := some (g + 1), since := 0 })

/-- The weights of R353 and R354 over 64 samples. -/
def ramp64 (v : Int) (w : Int) : Int := (v * w + 32) / 64

/-- The start gate and the stop of R353 and R354 on x(n); the last part says that a forced ramp begins (TIMEOUT). -/
def PortCh.gated (k : PortCh) (silent : Bool) (n : Nat) (x : Int) : Int × PortCh × Bool :=
  let cross : Bool := decide (k.prev * x ≤ 0)
  let opened : Int × Option Nat × Bool := match k.gate with
    | none => (x, none, false)
    | some t =>
      if t + 1024 ≤ n then (x, none, false)
      else if t + 960 ≤ n then (ramp64 x ((n - (t + 960) : Nat) + 1), some t, n = t + 960)
      else if cross then (x, none, false)
      else (0, some t, false)
  let y := opened.1
  let shut : Int × Bool × Bool := match k.stopAt with
    | none => (y, k.ended, false)
    | some t =>
      if k.ended then (0, true, false)
      else if silent then
        if t + 1023 ≤ n then (0, true, false)
        else if t + 960 ≤ n then (ramp64 y (63 - (n - (t + 960) : Nat)), false, n = t + 960)
        else if cross then (0, true, false)
        else (y, false, false)
      else (fadeOut y (n - t), t + 7 ≤ n, false)
  (shut.1, { k with prev := x, gate := opened.2.1, ended := shut.2.1 }, opened.2.2 || shut.2.2)

/-- R349: the linear fade of 64 samples from a lock. -/
def lockFade (x : Int) (lockAt n : Nat) : Int :=
  if n < lockAt + 64 then ramp64 x ((n - lockAt : Nat) + 1) else x

/-- The channels that R354 waits for: every subframe; of a TDM port, the enabled slots with a route. -/
def State.routed (s : State) (q : LocalPort) (rx : Bool) (c : Nat) : Bool :=
  match q with
  | .arx _ => rx && c < 2
  | .atx _ => !rx && c < 2
  | .tdm p =>
    c < (s.portCfg q).slots &&
      (if rx then s.bitAt (R.PORT_TDM_RXMASK p) c && s.fld (R.PORT_TDM_RXMAP p c) F.PORT_TDM_RXMAP_TYPE ≠ 0
       else s.bitAt (R.PORT_TDM_TXMASK p) c && s.fld (R.PORT_TDM_TXMAP p c) F.PORT_TDM_TXMAP_TYPE ≠ 0)

/-- A port in STOPPING whose channels have all ended enters STOPPED. -/
def State.portSettle (s : State) (q : LocalPort) : State :=
  let x := s.lport q
  if x.st = 4 &&
      (List.range 32).all (fun c => (!s.routed q true c || (x.rxCh c).ended) && (!s.routed q false c || (x.txCh c).ended))
  then s.putPort q { x with st := s.restState q.obj } else s

/-! ### Delivery of receive ports at sample n -/

/-- The sample of a SYNC receive channel at position n (R310, R330); none where it is missing. -/
def PortCh.sampleAt (k : PortCh) (hi : Bool) (n : Nat) : Option Int :=
  let at_ (p : Nat) : Option Int := (k.buf.find? (fun e => e.1 = p)).map (·.2)
  if hi then at_ n
  else
    let par := match k.buf with | [] => 0 | e :: _ => e.1 % 2
    let qs := ((List.range 33).map (fun i => n + i)).filter (fun p => 16 ≤ p && (p - 16) % 2 = par)
    let ins := qs.map (fun p => at_ (p - 16))
    if ins.any Option.isNone then none
    else if n % 2 = par then at_ n
    else some (sat32 (Config.upsample (ins.map (fun o => o.getD 0))))

/-- Channel c of a receive port at sample n: what it delivers. A port that is neither RUNNING nor STOPPING runs its gap
law and delivers nothing. -/
def State.portRxCh (s : State) (q : LocalPort) (n c : Nat) : State × Int :=
  let x := s.lport q
  let cfg := s.portCfg q
  let k := x.rxCh c
  let locked := s.asrcLocked q
  let v : Option Int :=
    if cfg.asrc then (if locked && s.portLive q && !k.bad.contains n then some (sext 32 s.freeVal) else none)
    else if s.rateErr q then none
    else k.sampleAt cfg.hi n
  let s := if cfg.asrc && v.isSome then s.bump else s
  -- before its first lock an ASRC channel delivers zero: its last delivered sample is zero
  let h := k.hear n v
  let y := if cfg.asrc && v.isSome then lockFade h.1 x.lockAt n else h.1
  let masked : Bool := match q with | .tdm p => !s.bitAt (R.PORT_TDM_RXMASK p) c | _ => false
  let y := if masked then 0 else y
  let keep (m : PortCh) : PortCh := { m with buf := m.buf.filter (fun e => n < e.1 + 16), bad := m.bad.filter (n < ·) }
  if x.st = 3 || x.st = 4 then
    let g := h.2.gated cfg.silent n y
    let s := s.setPort q (x.setRxCh c (keep g.2.1))
    (if g.2.2 then s.flag R.PORT_FLAGS F.PORT_FLAGS_TIMEOUT else s, g.1)
  else (s.setPort q (x.setRxCh c (keep { h.2 with prev := y })), 0)

/-- A delivered sample enters its source or its direct route. -/
def State.portDeliver (s : State) (q : LocalPort) (c : Nat) (y : Int) : State :=
  let z : Nat → Int := fun _ => 0
  match q with
  | .arx r => { s with port := { s.port with src := Sparse.set z s.port.src (5120 + 2 * r.val + c) y } }
  | .atx _ => s
  | .tdm p =>
    let r := routeOf (s.rd (R.PORT_TDM_RXMAP p c))
    if r.1 = 1 then { s with port := { s.port with src := Sparse.set z s.port.src (5184 + r.2) y } }
    else if r.1 = 2 then { s with port := { s.port with direct := Sparse.put s.port.direct (8192 * 2 + r.2) y } }
    else if r.1 = 3 then { s with port := { s.port with direct := Sparse.put s.port.direct (8192 * 1 + r.2) y } }
    else s

/-- Every receive port delivers sample n. -/
def State.portsRx (s : State) (n : Nat) : State :=
  let s := { s with port := { s.port with src := [], direct := [] } }
  s.port.ports.foldl (fun (t : State) e =>
    let q := portOfKey e.1
    if e.2.st = 0 then t
    else
      match q with
      | .atx _ => t
      | _ =>
        (List.range (PortCfg.channels q (t.portCfg q))).foldl (fun (u : State) c =>
          let r := u.portRxCh q n c
          r.1.portDeliver q c r.2) t) s

/-! ### Frames of transmit ports -/

/-- The destination key that channel c of a transmit port carries (R328, R343). -/
def State.portTxDest (s : State) (q : LocalPort) (c : Nat) : Option Nat :=
  match q with
  | .arx _ => none
  | .atx t => some (8192 * 3 + 2 * t.val + c)
  | .tdm p =>
    if s.fld (R.PORT_TDM_TXMAP p c) F.PORT_TDM_TXMAP_TYPE = 1 then
      some (8192 * 4 + s.fld (R.PORT_TDM_TXMAP p c) F.PORT_TDM_TXMAP_OUTCH)
    else none

/-- Channel c of a transmit port takes its destination sample n (R353, R354); `word` gives the destination
sample. While the outputs fade under R257 the channel stands still. -/
def State.portTxCh (s : State) (q : LocalPort) (n c : Nat) (word : Nat → Int) : State :=
  let x := s.lport q
  let cfg := s.portCfg q
  let v := match s.portTxDest q c with | some d => word d | none => 0
  let k := x.txCh c
  let on := x.st = 3 || x.st = 4
  -- the 8-sample fade in of a start
  let w := if on then fadeIn v k.since else v
  let k := if on then { k with since := min 8 (k.since + 1) } else k
  let g : Int × PortCh × Bool := if on then k.gated cfg.silent n w else (0, { k with prev := v }, false)
  let k := if s.fading.isSome then k else { g.2.1 with line := (g.1 :: k.line).take 33 }
  let s := s.setPort q (x.setTxCh c k)
  if g.2.2 then s.flag R.PORT_FLAGS F.PORT_FLAGS_TIMEOUT else s

/-- Clipped samples (R357): each counts and raises. -/
def State.portClips (s : State) (q : LocalPort) (cnt n : Nat) : State :=
  (List.range n).foldl (fun (t : State) _ => t.raise FS.PORT_CLIP q.unit 0)
    ((s.countBy cnt n).flag R.PORT_FLAGS F.PORT_FLAGS_CLIP)

/-- A SYNC frame begins at the edge of MSC n + 1 (R330): it carries destination sample n − 15 at 96 kHz, and at 48 kHz,
at even edges, the decimated sample n − 31, which the decimator of R310 leaves free while the port sends. -/
def State.portFrame (s : State) (q : LocalPort) (n : Nat) : State :=
  let x := s.lport q
  let cfg := s.portCfg q
  let idle : Bool := match q with
    | .atx _ => cfg.asrc
    | .tdm p => cfg.asrc || !s.bit (R.PORT_TDM_STAT p) F.PORT_TDM_STAT_CLK
    | .arx _ => true
  if idle || (!cfg.hi && n % 2 = 0) then s
  else if !s.drives then s.setPort q { x with sent := [] }
  else
    let zero := s.rateErr q
    let sends := x.st = 3 || x.st = 4
    let r := (List.range (PortCfg.channels q cfg)).foldl (fun (a : State × List (Option Int) × Nat) c =>
      let masked : Bool := match q with | .tdm p => !a.1.bitAt (R.PORT_TDM_TXMASK p) c | _ => false
      let hiz : Bool := match q with | .tdm p => a.1.bit (R.PORT_TDM_CFG p) F.PORT_TDM_CFG_HIZ | _ => false
      if masked then (a.1, a.2.1 ++ [if hiz then none else some 0], a.2.2)
      else if zero || (x.txCh c).line.isEmpty then (a.1, a.2.1 ++ [some 0], a.2.2)
      else
        let v := if cfg.hi then (x.txCh c).line.getD 15 0 else if sends then sext 32 a.1.freeVal else 0
        let v := match s.fading with | some k => fadeOut v k | none => v
        let e := toExternal cfg.bits v
        (if !cfg.hi && sends then a.1.bump else a.1, a.2.1 ++ [some e.1], a.2.2 + (if e.2 then 1 else 0))) (s, [], 0)
    let s := r.1.setPort q { x with sent := r.2.1 }
    if r.2.2 = 0 then s
    else
      let cnt := match q with | .tdm p => R.PORT_TDM_CLIP_CNT p | _ => R.PORT_ATX_CLIP_CNT q.index
      s.portClips q cnt r.2.2

/-- Every transmit port takes destination sample n; then ports whose channels have all ended stop. `clips` are the
clipped samples that ASRC ports have converted at their own frame clocks since the edge before. -/
def State.portsTx (s : State) (n : Nat) (word : Nat → Int) (clips : List (LocalPort × Nat)) : State :=
  let s := s.port.ports.foldl (fun (t : State) e =>
    let q := portOfKey e.1
    if e.2.st = 0 then t
    else
      let t := match q with
        | .arx _ => t
        | _ => ((List.range (PortCfg.channels q (t.portCfg q))).foldl (fun (u : State) c => u.portTxCh q n c word) t).portFrame
            q n
      t.portSettle q) s
  clips.foldl (fun (t : State) e =>
    let q := e.1
    if e.2 = 0 || (t.lport q).st = 0 || !(t.portCfg q).asrc || q.kind = 0 then t
    else
      let cnt := match q with | .tdm p => R.PORT_TDM_CLIP_CNT p | _ => R.PORT_ATX_CLIP_CNT q.index
      t.portClips q cnt e.2) s

/-! ### What a transmitter sends beside its samples (R339) -/

/-- The 24 channel-status bytes of a subframe of transmitter t as one number: bit 0 of byte 0 set, byte 23 the CRCC. -/
def State.csSent (s : State) (t : Nat) (subB : Bool) : Nat :=
  let a (w : Nat) : Nat := s.rd (if subB then R.PORT_ATX_CS_B t w else R.PORT_ATX_CS_A t w)
  let v := (List.range 6).foldl (fun n w => n + a w * 2 ^ (32 * w)) 0
  let v := v / 2 * 2 + 1
  let v := v % 2 ^ 184
  v + crcc v * 2 ^ 184

/-- The validity bit of a transmitter's samples. -/
def State.validitySent (s : State) (t : Fin 32) : Bool := (s.lport (.atx t)).st ≠ 3

end Sys2Proof.Machine
end

