-- ==== Sys2Proof/Machine/Line.lean ====
section
/-!
DEFINITION. Line drive and Thimble (R361 to R394): channel states and holds, supply and thermal states, the signal chain
and the limiter, trips and retries, supervision, groups and LINE_CTRL.
-/

namespace Sys2Proof.Machine

def State.lineCh (s : State) (n : Nat) : LineCh := Sparse.get (fun _ => {}) s.line.chs n

def State.setLineCh (s : State) (n : Nat) (x : LineCh) : State :=
  { s with line := { s.line with chs := Sparse.set (fun _ => {}) s.line.chs n x } }

/-! ### Holds (R384) -/

/-- HOLD bits of a RUNNING channel: 1 SUPPLY, 2 THERMAL, 4 NODUTY, 8 NOCLK. -/
def State.holdBits (s : State) (x : LineCh) : Nat :=
  if x.st ≠ 1 then 0
  else
    (if s.bit R.LINE_STATUS F.LINE_STATUS_UVLO || s.bit R.LINE_STATUS F.LINE_STATUS_OV then 1 else 0) +
      (if x.hot then 2 else 0) + (if s.drives && !s.releasing then 0 else 4) + (if s.pins.tcxoOk then 0 else 8)

/-- State, holds and the RUN bit of a channel as its registers show them, after any change: the audio fades out where a
SUPPLY or THERMAL hold begins and in where the last hold ends; the start of a THERMAL hold is reported (R379). -/
def State.lineSync (s : State) (n : Nat) : State :=
  let x := s.lineCh n
  let was := s.fld (R.LINE_CH_STAT n) F.LINE_CH_STAT_HOLD
  let now := s.holdBits x
  let x := if now % 4 ≠ 0 && x.holdAt.isNone then { x with holdAt := some s.edge }
    else if now % 4 = 0 then { x with holdAt := none } else x
  let x := if x.st = 1 && was ≠ 0 && now = 0 then { x with since := 0 } else x
  let x := if x.st ≠ 1 then { x with holdAt := none, stopAt := none, hist := [], cmd := [], gain := factorOne, held := 960,
                                     since := 8 } else x
  let s := s.setLineCh n x
  let s := (s.setFld (R.LINE_CH_STAT n) F.LINE_CH_STAT_HOLD now).setFld (R.LINE_CH_STAT n) F.LINE_CH_STAT_STATE x.st
  let s := s.setBitAt R.LINE_STATUS (16 + n) (x.st = 1)
  let s := if x.st = 1 then s else s.setFld (R.LINE_CH_GR n) F.LINE_CH_GR_LIM 0
  if now / 2 % 2 = 1 && was / 2 % 2 = 0 then
    (s.flag R.LINE_FLAGS F.LINE_FLAGS_THERM_STOP).raise FS.LINE_THERM_STOP n 0
  else s

/-- The conditions of holds have changed: duty, DUTY_IN, TCXO or the supply. -/
def State.linesSync (s : State) : State := (List.range 16).foldl State.lineSync s

/-! ### States (R383, R385) -/

/-- LINE_EN or ENABLE acts on a channel. -/
def State.lineEnable (s : State) (n : Nat) : State :=
  let x := s.lineCh n
  if x.st = 0 then (s.setLineCh n { x with st := 1, since := 0, stopAt := none }).lineSync n
  else if x.st = 1 then
    -- an enable of the sample at which a stop acted cancels it
    if x.stopAt = some s.edge then s.setLineCh n { x with stopAt := none } else s
  else if x.st = 3 then s.flag R.LINE_FLAGS F.LINE_FLAGS_CMD_IGN
  else s

/-- STOP or DISABLE acts on a channel. -/
def State.lineDisable (s : State) (n : Nat) : State :=
  let x := s.lineCh n
  if x.st = 1 then (if x.stopAt.isSome then s else s.setLineCh n { x with stopAt := some s.edge })
  else if x.st = 2 then (s.setLineCh n { x with st := 0 }).lineSync n
  else if x.st = 3 then s.flag R.LINE_FLAGS F.LINE_FLAGS_CMD_IGN
  else s

/-- Channels of a mask. -/
def maskList (n m : Nat) : List Nat := (List.range n).filter (fun k => m / 2 ^ k % 2 = 1)

def State.lineEnableMask (s : State) (m : Nat) : State := (maskList 16 m).foldl State.lineEnable s
def State.lineDisableMask (s : State) (m : Nat) : State := (maskList 16 m).foldl State.lineDisable s

/-- The block start at which LINE_CH_CMD acts (R385): the next, or the second when paired. -/
def State.lineDue (s : State) : Nat := 8 * (s.msc / 8) + (if s.paired then 16 else 8)

/-- LINE_CH_CMD.ENABLE. -/
def execLineChEnable (n : Fin 16) (s : State) : Res :=
  let x := s.lineCh n
  .next (s.setLineCh n { x with cmds := x.cmds ++ [⟨true, s.lineDue⟩] })

/-- LINE_CH_CMD.DISABLE. -/
def execLineChDisable (n : Fin 16) (s : State) : Res :=
  let x := s.lineCh n
  .next (s.setLineCh n { x with cmds := x.cmds ++ [⟨false, s.lineDue⟩] })

/-- The retries inside the 600 s window, as LINE_CH_RETRY.WIN shows them (R382). -/
def State.lineRetries (s : State) (n : Nat) : State :=
  let x := s.lineCh n
  let r := x.retries.filter (fun e => s.edge < e + 57600000)
  (s.setLineCh n { x with retries := r }).setFld (R.LINE_CH_RETRY n) F.LINE_CH_RETRY_WIN r.length

/-- CLEAR (R382): it leaves LOCKED and empties the retry window. -/
def State.lineClear (s : State) (n : Nat) : State :=
  let x := s.lineCh n
  ((s.setLineCh n { x with retries := [], st := if x.st = 3 then 0 else x.st }).lineRetries n).lineSync n

def execLineChClear (n : Fin 16) (s : State) : Res := .next (s.lineClear n)

/-! ### LINE_CTRL and groups (R370, R389, R390) -/

/-- A write of LINE_CTRL: REGION and QF change only while every channel is DISABLED; K values below 128 are reserved
(R13) and the accepted one takes effect at the next block (R394). -/
def State.lineCtrlWrite (s : State) (v : Word) : State :=
  let old := s.rd R.LINE_CTRL
  let k := F.LINE_CTRL_K.of v.toNat
  let w := if k < 128 then old else F.LINE_CTRL_K.put old k
  let r := F.LINE_CTRL_REGION.of v.toNat
  let q := F.LINE_CTRL_QF.of v.toNat
  let changes := r ≠ F.LINE_CTRL_REGION.of old || q ≠ F.LINE_CTRL_QF.of old
  if changes && s.line.chs.any (fun e => e.2.st ≠ 0) then
    (s.wrN R.LINE_CTRL w).flag R.LINE_FLAGS F.LINE_FLAGS_CFG_IGN
  else s.wrN R.LINE_CTRL (F.LINE_CTRL_QF.put (F.LINE_CTRL_REGION.put w r) q)

def execLineCtrlWrite (v : Word) (s : State) : Res :=
  .next (State.ccuConfigChange s (s.lineCtrlWrite v) R.LINE_CTRL)

/-- N of R368. -/
def carrierN (region qf : Nat) : Nat :=
  (if region = 0 then [2277, 2231, 2187, 2145, 2104, 2065, 2027, 2013]
   else [2315, 2283, 2232, 2183, 2137, 2092, 2049, 2008]).getD qf 0

/-- Carrier period of the channels and the start of channel n's in counter cycles (R370, R372). -/
def State.carrier (s : State) (n : Nat) : Nat × Nat :=
  let N := carrierN (s.fld R.LINE_CTRL F.LINE_CTRL_REGION) (s.fld R.LINE_CTRL F.LINE_CTRL_QF)
  let p := if s.bit R.BELL_STATUS F.BELL_STATUS_CORE_XIN then (2 * N + 40) / 80 else N
  (p, p * n / 16)

/-- LINE_STATUS with FB_CLK (R372). -/
def State.lineStatus (s : State) : Nat :=
  F.LINE_STATUS_FB_CLK.put (s.rd R.LINE_STATUS) (if s.bit R.BELL_STATUS F.BELL_STATUS_CORE_XIN then 1 else 0)

def lineGroup (n : Nat) : List Nat :=
  [R.LINE_CH_CFG n, R.LINE_CH_VSCALE n, R.LINE_CH_ISCALE n, R.LINE_CH_SUPWIN n, R.LINE_CH_SUPCFG n, R.LINE_CH_THERM n]

/-- A named SADC input of R394: 24 to 30 are reserved. -/
def sadcBad (i : Nat) : Bool := 24 ≤ i && i < 31

/-- Code of R390. -/
def State.lineCheck (s : State) (n : Nat) : Nat :=
  let cfg := s.sh (R.LINE_CH_CFG n)
  let vs := s.sh (R.LINE_CH_VSCALE n)
  let vfs := F.LINE_CH_VSCALE_VFS.of vs
  let vr := F.LINE_CH_VSCALE_VRATED.of vs
  let win := s.sh (R.LINE_CH_SUPWIN n)
  let th := s.sh (R.LINE_CH_THERM n)
  let dt := F.LINE_CH_CFG_DT.of cfg
  let now (a : Nat) : Nat := match ((s.lineCh n).pend.find? (fun e => e.1 = a)) with
    | some e => e.2.toNat
    | none => s.rd a
  let changed (a : Nat) : Bool := s.sh a != now a
  if sadcBad (F.LINE_CH_CFG_EF_SEL.of cfg) || sadcBad (F.LINE_CH_CFG_NTC_SEL.of cfg) || dt < 2 || 250 < dt ||
      vfs < 10 || vr < 10 || 400 < vr || F.LINE_CH_ISCALE_IFS.of (s.sh (R.LINE_CH_ISCALE n)) = 0 ||
      F.LINE_CH_SUPCFG_QUAL.of (s.sh (R.LINE_CH_SUPCFG n)) = 0 || sext 16 (th / 2 ^ 16) ≤ sext 16 th ||
      win / 2 ^ 16 ≤ win % 2 ^ 16 || 2 * vfs < 3 * vr then 1
  else if (s.lineCh n).st ≠ 0 && (changed (R.LINE_CH_CFG n) || changed (R.LINE_CH_VSCALE n) ||
      changed (R.LINE_CH_ISCALE n) || changed (R.LINE_CH_THERM n)) then 2
  else if s.mode ≠ .commission && s.mode ≠ .boot && (changed (R.LINE_CH_SUPWIN n) || changed (R.LINE_CH_SUPCFG n)) then 3
  else 0

/-- A write to LINE_APPLY with GO (R390): an accepted group applies at the next block start. -/
def State.lineApply (s : State) (n : Nat) : State :=
  let code := s.lineCheck n
  let s := s.wrN R.LINE_APPLY_RESULT (code * 2 ^ 24 + n)
  let x := s.lineCh n
  if code ≠ 0 then
    ((s.reloadShadows (lineGroup n) x.pend).flag R.LINE_FLAGS F.LINE_FLAGS_APPLY_ERR).raise FS.LINE_APPLY_ERR n 0
  else s.setLineCh n { x with pend := (lineGroup n).map (fun a => (a, s.shadowOf a)) }

def execLineApply (n : Fin 16) (s : State) : Res := .next (s.lineApply n)

/-! ### The block start (R374, R376, R378, R379, R385, R390) -/

/-- SADC code of an input; the list holds the codes converted in the block that ends. -/
def sadc (codes : List Nat) (i : Nat) : Option Nat := if 24 ≤ i then none else some (codes.getD i 0)

/-- VBUS and VBAT (R376). -/
def State.lineSupply (s : State) (codes : List Nat) : State :=
  let scale := s.rd R.LINE_SUPPLY_SCALE
  let bus := sadc codes (s.fld R.LINE_SADC_CFG F.LINE_SADC_CFG_VBUS_IN)
  let bat := sadc codes (s.fld R.LINE_SADC_CFG F.LINE_SADC_CFG_VBAT_IN)
  -- unit 10 mV / 4,096
  let vbus := bus.getD 0 * (scale % 2 ^ 16)
  let vbat := bat.getD 0 * (scale / 2 ^ 16)
  let tenth (v : Nat) : Nat := min 4095 ((v + 20480) / 40960)
  let lo := s.fld R.LINE_SUPPLY_LIM F.LINE_SUPPLY_LIM_UVLO * 40960
  let hi := s.fld R.LINE_SUPPLY_LIM F.LINE_SUPPLY_LIM_OV * 40960
  let uv := s.bit R.LINE_STATUS F.LINE_STATUS_UVLO
  let ov := s.bit R.LINE_STATUS F.LINE_STATUS_OV
  let uv' : Bool := bus.isNone || vbus < lo || (uv && vbus * 100 < lo * 105)
  let ov' : Bool := bus.isSome && (hi < vbus || (ov && hi * 95 < vbus * 100))
  let level := s.fld R.LINE_VBAT_LOW F.LINE_VBAT_LOW_LEVEL * 40960
  let low : Bool := bat.isSome && vbat < level
  let wasLow := s.bit R.LINE_STATUS F.LINE_STATUS_BAT_LOW
  let s := s.wrN R.LINE_SUPPLY_V (tenth vbat * 2 ^ 16 + tenth vbus)
  let s := { s with line := { s.line with vbus := vbus } }
  let s := ((s.setBit R.LINE_STATUS F.LINE_STATUS_UVLO uv').setBit R.LINE_STATUS F.LINE_STATUS_OV ov').setBit
    R.LINE_STATUS F.LINE_STATUS_BAT_LOW low
  let s := if (uv' || ov') && !(uv || ov) then (s.flag R.LINE_FLAGS F.LINE_FLAGS_SUPPLY).raise FS.LINE_SUPPLY 0 0 else s
  if low && !wasLow then (s.flag R.LINE_FLAGS F.LINE_FLAGS_BAT_LOW).raise FS.LINE_BAT_LOW 0 0 else s

/-- Temperature of an SADC code in units of 1/16 °C (R378): linear interpolation, to nearest. -/
def State.ntcTemp (s : State) (c : Nat) : Int :=
  let lut (i : Nat) : Int := sext 16 (s.rd (R.LINE_NTC_LUT i))
  let i := c / 256
  lut i + ((lut (i + 1) - lut i) * ((c % 256 : Nat) : Int) + 128) / 256

/-- The foldback of a temperature in units of 1/32 dB: 0.5 dB for each degree above TFOLD (R379). -/
def foldOf (t tfold : Int) : Nat := (t - tfold).toNat

/-- Thermal state of a channel (R378, R379). -/
def State.lineThermal (s : State) (codes : List Nat) (n : Nat) : State :=
  let x := s.lineCh n
  let th := s.rd (R.LINE_CH_THERM n)
  let tfold := sext 16 th
  let tstop := sext 16 (th / 2 ^ 16)
  match sadc codes (s.fld (R.LINE_CH_CFG n) F.LINE_CH_CFG_NTC_SEL) with
  | none =>
    (s.setLineCh n { x with foldOld := x.fold, fold := 0, hot := false, ntcBad := false }).setFld (R.LINE_CH_GR n)
      F.LINE_CH_GR_FOLD 0
  | some c =>
    let bad := c = 0 || c = 4095
    let t0 := s.ntcTemp c
    let t := if bad then tfold + 192 else t0
    let fold := foldOf t tfold
    let s := s.wrN (R.LINE_CH_TEMP n) (wrapN 16 t0)
    let s := s.setLineCh n { x with foldOld := x.fold, fold := fold, ntcBad := bad,
                                    hot := decide (tstop ≤ t) || (x.hot && decide (tstop - 160 ≤ t)) }
    let s := s.setFld (R.LINE_CH_GR n) F.LINE_CH_GR_FOLD (fold / 2)
    let s := if 0 < fold && x.fold = 0 then s.flag R.LINE_FLAGS F.LINE_FLAGS_FOLD else s
    if bad && !x.ntcBad then (s.flag R.LINE_FLAGS F.LINE_FLAGS_NTC_FAULT).raise FS.LINE_NTC_FAULT n 0 else s

/-- What a channel does at a block start: its group, its commands (a DISABLE before an ENABLE), its holds. -/
def State.lineBlock (s : State) (n : Nat) : State :=
  let x := s.lineCh n
  let s := if x.pend.isEmpty then s else (s.activateConfig x.pend).setLineCh n { x with pend := [] }
  let due := x.cmds.filter (fun c => c.due ≤ s.msc)
  let s := if due.isEmpty then s
    else s.setLineCh n { s.lineCh n with cmds := x.cmds.filter (fun c => s.msc < c.due) }
  let s := if due.any (fun c => !c.enable) then s.lineDisable n else s
  let s := if due.any (fun c => c.enable) then s.lineEnable n else s
  let s := if x.retries.isEmpty then s else s.lineRetries n
  s.lineSync n

/-- The line drive at a block start. `codes` are the SADC codes of the block that ends; `back` lists the sense bitstreams
(channel, and whether VSNS) whose transitions have returned. -/
def State.linesBlockStart (s : State) (codes : List Nat) (back : List (Nat × Bool)) : State :=
  if s.mode = .boot then s
  else
    let s := s.lineSupply codes
    let s := (List.range 16).foldl (fun t n => t.lineThermal codes n) s
    let s := back.foldl (fun (t : State) b => t.setBit (R.LINE_CH_STAT b.1)
      (if b.2 then F.LINE_CH_STAT_VS_LOSS else F.LINE_CH_STAT_IS_LOSS) false) s
    let s := { s with line := { s.line with k := s.fld R.LINE_CTRL F.LINE_CTRL_K } }
    (List.range 16).foldl State.lineBlock s

/-! ### The signal chain (R366, R367, R377, R379, R386) -/

/-- 1,342,177 × sin(15°·j) to the nearest word, ties toward +∞. -/
def pilotQuarter (j : Nat) : Int := [0, 347381, 671089, 949062, 1162359, 1296443, 1342177].getD j 0

def pilotNeg (j : Nat) : Int := [0, -347381, -671088, -949062, -1162359, -1296443, -1342177].getD j 0

/-- The pilot at MSC m (R386). -/
def pilot (m : Nat) : Int :=
  let j := 5 * (m % 24) % 24
  if j ≤ 6 then pilotQuarter j else if j ≤ 12 then pilotQuarter (12 - j) else if j ≤ 18 then pilotNeg (j - 12)
  else pilotNeg (24 - j)

/-- Thermal gain at position i of a block in units of 2^-60: linear in dB from the old foldback to the new (R379). -/
def foldGain (old new i : Nat) : Nat :=
  -- units of 1/256 dB
  let d := old * (7 - i) + new * (i + 1)
  if d = 0 then factorOne
  else (fxExp (-(fxLn 10 1 * (d : Int) / 5120)) / (2 ^ 40 : Nat)).toNat

/-- L of R377 in units of 2^-60. -/
def State.lineLimit (s : State) (n : Nat) : Nat :=
  let vr := s.fld (R.LINE_CH_VSCALE n) F.LINE_CH_VSCALE_VRATED
  -- k·VBUS/(√2·VRATED) with VBUS in units of 10 mV / 4,096; 815238614083298888 is 2^60/√2
  let top := s.line.k * s.line.vbus * 815238614083298888 / (256 * 409600 * vr)
  let l := top - 11529215046068469
  let capped := s.mode = .commission ||
    (s.mode = .alarm && s.retMode = .commission && !s.bit R.SYS_MODECFG F.SYS_MODECFG_COMM_ALARM_FULL)
  if capped then min l 115292150460684697 else l

/-- r(m) of R377 in units of 2^-60 for a sample and its thermal gain. -/
def lineNeed (l : Nat) (e : Int × Nat) : Nat :=
  let x := e.1.natAbs * e.2
  if x = 0 then factorOne else min factorOne (l * 2 ^ 87 / x)

/-- Gain reduction in units of 1/16 dB. -/
def gainReduction (g : Nat) : Nat :=
  if factorOne ≤ g then 0
  else if g = 0 then 65535
  else min 65535 (fxRound (fxLn factorOne g * 320 * fxOne / fxLn 10 1)).toNat

/-- Channel n takes its destination sample x at MSC m. -/
def State.lineStep (s : State) (n m : Nat) (x : Int) : State :=
  let c := s.lineCh n
  if c.st ≠ 1 then s
  else
    -- step 1 and the fades
    let one : Int := 134217728
    let y := if x < -one then -one else if one < x then one else x
    let s := if y = x then s else
      ((s.count (R.LINE_CH_CLIP_CNT n)).flag R.LINE_FLAGS F.LINE_FLAGS_CLIP).raise FS.LINE_CLIP n 0
    let c := s.lineCh n
    let y := fadeIn y c.since
    let y := match c.stopAt with | some t => fadeOut y (s.edge - t) | none => y
    let y := match c.holdAt with | some t => fadeOut y (s.edge - t) | none => y
    -- step 2
    let hist := ((y, foldGain c.foldOld c.fold (m % 8)) :: c.hist).take 9
    -- step 3: sample m − 8, with the 8 samples after it
    let l := s.lineLimit n
    let need := lineNeed l (hist.getD 8 (0, factorOne))
    let ahead := hist.foldl (fun a e => min a (lineNeed l e)) factorOne
    let frac := s.freeVal % (factorOne + 1)
    let held := if need ≤ c.gain && need < factorOne then 0 else min 960 (c.held + 1)
    let g :=
      if ahead < c.gain then min need (ahead + (c.gain - ahead) * frac / factorOne)
      else if held < 960 then c.gain
      else min ahead (c.gain + c.gain * 27653455281142 / factorOne * frac / factorOne)
    let old := hist.getD 8 (0, factorOne)
    let u := rsh (old.1 * (old.2 : Int) * (g : Int)) 120
    -- step 4
    let u := if s.holdBits c = 0 then u + pilot (m - 8) else u
    let s := s.bump
    let s := s.setLineCh n { c with since := min 8 (c.since + 1), hist := hist, gain := g, held := held,
                                    cmd := (u :: c.cmd).take 9 }
    let s := if g < factorOne then (s.count (R.LINE_CH_LIM_CNT n)).flag R.LINE_FLAGS F.LINE_FLAGS_LIMIT else s
    let s := s.setFld (R.LINE_CH_GR n) F.LINE_CH_GR_LIM (gainReduction g)
    -- a stop is complete after 8 samples
    match c.stopAt with
    | some t => if t + 7 ≤ s.edge then (s.setLineCh n { s.lineCh n with st := 0 }).lineSync n else s
    | none => s

/-- Every channel takes its destination sample; while the outputs fade under R257 the latest command stands. -/
def State.linesStep (s : State) (m : Nat) (word : Nat → Int) : State :=
  if s.fading.isSome then s else s.line.chs.foldl (fun t e => t.lineStep e.1 m (word (8192 * 5 + e.1))) s

/-- The voltage commanded for the sample period that begins at this edge, as a fraction u of √2·VRATED in units of 2^-27
(R366, R367), with the fade of R257. Before the first sample of a channel that has just started comes out, the command
is the pilot alone, which starts with the switching (R383). -/
def State.lineCommand (s : State) (n : Nat) : Int :=
  let c := s.lineCh n
  let u := c.cmd.getD 7 (if c.st = 1 && s.holdBits c = 0 then pilot (s.msc + 8) else 0)
  match s.alarm.fade with
  | some f => if f < s.edge then fadeOut u (s.edge - 1 - f) else u
  | none => u

/-- Gate patterns of R363. -/
inductive Gates where
  | allOff | lowSideOn | switching
  deriving DecidableEq, Repr

/-- The gate outputs of channel n (R364). -/
def State.gates (s : State) (n : Nat) : Gates :=
  if s.mode = .boot || !s.pins.xinOk then .allOff
  else
    let x := s.lineCh n
    let faded : Bool := match x.holdAt with | some t => decide (t + 8 ≤ s.edge) | none => false
    if x.st ≠ 1 || s.holdBits x / 4 ≠ 0 || faded then .lowSideOn else .switching

/-! ### Short circuit (R380 to R382) -/

/-- A trip (R381, R382). -/
def State.lineTrip (s : State) (n : Nat) : State :=
  let x := s.lineCh n
  let r := x.retries.filter (fun e => s.edge < e + 57600000)
  let lock := 8 ≤ r.length
  let st := if x.stopAt.isSome then 0 else if lock then 3 else 2
  let s := s.setLineCh n { x with st := st, limited := [], retries := r, waitFrom := s.edge }
  let s := (s.lineRetries n).lineSync n
  let s := ((s.count (R.LINE_CH_TRIP_CNT n)).flag R.LINE_FLAGS F.LINE_FLAGS_TRIP).raise FS.LINE_OCP_TRIP n 0
  if st = 3 then (s.flag R.LINE_FLAGS F.LINE_FLAGS_LOCK).raise FS.LINE_OCP_LOCK n 0 else s

/-- OCP_LIMITED_PERIOD (R380): two asserted samples outside the blanking time of a switching channel. -/
def execOcpLimitedPeriod (n : Fin 16) (s : State) : Res :=
  if s.gates n ≠ .switching then .next s
  else
    let x := s.lineCh n
    let l := s.edge :: x.limited.filter (fun e => s.edge < e + 96)
    let s := ((s.setLineCh n { x with limited := l }).count (R.LINE_CH_OCP_CNT n)).flag R.LINE_FLAGS F.LINE_FLAGS_OCP
    .next (if 32 ≤ l.length then s.lineTrip n else s)

/-- OCP_N_ASSERT (R381): an assertion during the wait restarts its 2 s. -/
def execOcpNAssert (n : Fin 16) (s : State) : Res :=
  let x := s.lineCh n
  if x.st = 2 then .next (s.setLineCh n { x with waitFrom := s.edge }) else .next s

/-- OCP_RETRY (R381): 192,000 samples without OCP_N. -/
def execOcpRetry (n : Fin 16) (s : State) : Res :=
  let x := s.lineCh n
  if x.st = 2 && x.waitFrom + 192000 ≤ s.edge then
    let s := s.setLineCh n { x with st := 1, since := 0, retries := s.edge :: x.retries }
    .next (((s.countFld (R.LINE_CH_RETRY n) F.LINE_CH_RETRY_COUNT).lineRetries n).lineSync n)
  else .next s

/-! ### Sensing, calibration and supervision (R374, R375, R387, R388) -/

/-- SENSE_LOSS: VSNS or ISNS shows no transition for 64 SDCLK periods. -/
def execSenseLoss (n : Fin 16) (vsns : Bool) (s : State) : Res :=
  let f := if vsns then F.LINE_CH_STAT_VS_LOSS else F.LINE_CH_STAT_IS_LOSS
  if s.bit (R.LINE_CH_STAT n) f then .next s
  else .next (((s.setBit (R.LINE_CH_STAT n) f true).flag R.LINE_FLAGS F.LINE_FLAGS_SENSE_LOSS).raise FS.LINE_SENSE_LOSS n 0)

/-- CALIBRATION_PASS (R375): the corrections measured, in ppm. -/
def execCalibrationPass (n : Fin 16) (offset ratio : Int) (s : State) : Res :=
  if 30000 < offset.natAbs || 30000 < ratio.natAbs then
    .next (((s.setBit (R.LINE_CH_STAT n) F.LINE_CH_STAT_CAL_ERR true).flag R.LINE_FLAGS F.LINE_FLAGS_CAL_ERR).raise
      FS.LINE_CAL_ERR n 0)
  else
    .next ((s.setBit (R.LINE_CH_STAT n) F.LINE_CH_STAT_CAL_ERR false).setLineCh n
      { s.lineCh n with calOfs := offset, calGain := ratio })

/-- A measured result enters the qualification of R388. -/
def State.lineClassify (s : State) (n mag ef : Nat) : State :=
  let x := s.lineCh n
  let win := s.rd (R.LINE_CH_SUPWIN n)
  let cls := if mag < win % 2 ^ 16 then 2 else if win / 2 ^ 16 < mag then 3 else 1
  let earth := s.fld (R.LINE_CH_CFG n) F.LINE_CH_CFG_EF_SEL ≠ 31 &&
    s.fld (R.LINE_CH_SUPCFG n) F.LINE_CH_SUPCFG_EF_THR ≤ ef
  let qual := s.fld (R.LINE_CH_SUPCFG n) F.LINE_CH_SUPCFG_QUAL
  let x := { x with agree := if cls = x.cls then min 15 (x.agree + 1) else 1, cls := cls,
                    earthAgree := if earth = x.earth then min 15 (x.earthAgree + 1) else 1, earth := earth }
  let s := s.setLineCh n x
  let st := R.LINE_CH_STAT n
  let s :=
    if qual ≤ x.agree && s.fld st F.LINE_CH_STAT_SUP ≠ cls then
      let s := s.setFld st F.LINE_CH_STAT_SUP cls
      if cls = 1 then s
      else (s.flag R.LINE_FLAGS F.LINE_FLAGS_SUP_FAULT).raise (if cls = 2 then FS.LINE_SUP_SHORT else FS.LINE_SUP_OPEN) n 0
    else s
  if qual ≤ x.earthAgree && s.bit st F.LINE_CH_STAT_EARTH ≠ earth then
    let s := s.setBit st F.LINE_CH_STAT_EARTH earth
    if earth then (s.flag R.LINE_FLAGS F.LINE_FLAGS_SUP_FAULT).raise FS.LINE_SUP_EARTH n 0 else s
  else s

/-- SUPERVISION_RESULT (R387): the impedance (1/16 Ω, 1/64 degree) and the earth value of a period, or NOT_MEASURED. -/
def execSupervisionResult (n : Fin 16) (measured : Option (Nat × Int × BitVec 12)) (s : State) : Res :=
  let x := s.lineCh n
  let st := R.LINE_CH_STAT n
  match measured with
  | none => .next s
  | some (mag, phase, ef) =>
    if x.st ≠ 1 || s.holdBits x ≠ 0 || s.bit st F.LINE_CH_STAT_VS_LOSS || s.bit st F.LINE_CH_STAT_IS_LOSS then .next s
    else
      let mag := min 65535 mag
      let s := s.wrN (R.LINE_CH_ZMAG n) (wrapN 16 phase * 2 ^ 16 + mag)
      let s := if s.fld (R.LINE_CH_CFG n) F.LINE_CH_CFG_EF_SEL = 31 then s else s.wrN (R.LINE_CH_EF n) ef.toNat
      .next (s.lineClassify n mag ef.toNat)

end Sys2Proof.Machine
end

