-- ==== Sys2Proof/Machine/Quilt.lean ====
section
/-!
DEFINITION. The Quilt fabric, sample by sample (R75 to R127): the source frame, activity, generators, ramps and
factors, bus sums, the output stage, delay taps, destinations and meters.
-/

namespace Sys2Proof.Machine

def zeroI : Nat → Int := fun _ => 0

/-! ### Accessors -/

def State.busSt (s : State) (b : Nat) : BusSt := Sparse.get (fun _ => {}) s.quilt.bus b
def State.setBusSt (s : State) (b : Nat) (x : BusSt) : State :=
  { s with quilt := { s.quilt with bus := Sparse.set (fun _ => {}) s.quilt.bus b x } }

def State.tap (s : State) (t : Nat) : Tap := Sparse.get (fun _ => {}) s.quilt.taps t
def State.setTap (s : State) (t : Nat) (x : Tap) : State :=
  { s with quilt := { s.quilt with taps := Sparse.set (fun _ => {}) s.quilt.taps t x } }

/-- Settings of generator g at reset (R126). -/
def genDefault (g : Nat) : Gen := { ph := if g < 64 then 0 else g }
def State.gen (s : State) (g : Nat) : Gen := Sparse.get genDefault s.quilt.gens g
def State.setGen (s : State) (g : Nat) (x : Gen) : State :=
  { s with quilt := { s.quilt with gens := Sparse.set genDefault s.quilt.gens g x } }

def State.solo (s : State) (key : Nat) : Factor := Sparse.get (fun _ => {}) s.quilt.solo key
def State.duckOf (s : State) (key : Nat) : Factor := Sparse.get (fun _ => {}) s.alarm.duck key

/-- The attributes of a source in force (R96): the register after its block start. -/
def attrDefault : Nat → Word := fun _ => 0x0781F400#32
def State.attrOf (s : State) (src : Nat) : Nat := (Sparse.get attrDefault s.quilt.attr src).toNat

/-- Gain words of LIVE. -/
def State.setGain (s : State) (key : Nat) (c : Int) : State :=
  let gains := Sparse.set zeroW s.quilt.live.gains key (BitVec.ofInt 32 c)
  { s with quilt := { s.quilt with live := { s.quilt.live with gains := gains } } }

/-! ### Activity and solo (R93, R97) -/

/-- T of R93: round(2^27 × 10^(−THR/20)). -/
def activityThr (thr : Nat) : Nat := levelCode (-(thr : Int)) 20

/-- Source s is active at sample n. -/
def State.active (s : State) (src n : Nat) : Bool :=
  let h := Sparse.get (fun _ => 0) s.quilt.hot src
  h ≠ 0 && h ≤ n && n + 1 ≤ h + 96 * F.QUILT_SRC_ATTR_HOLD.of (s.attrOf src)

/-- The detectors see the samples of MSC n. -/
def State.noteActivity (s : State) (frame : Sparse Int) (n : Nat) : State :=
  let hot := frame.foldl (fun h e =>
    if activityThr (F.QUILT_SRC_ATTR_THR.of (s.attrOf e.1)) ≤ e.2.natAbs then Sparse.set (fun _ => 0) h e.1 (n + 1)
    else h) s.quilt.hot
  { s with quilt := { s.quilt with hot := hot } }

/-- Solo is active (R97). -/
def State.soloActive (s : State) : Bool := s.quilt.attr.any (fun e => F.QUILT_SRC_ATTR_SOLO.of e.2.toNat = 1)

/-- A stitch of a bus is solo-muted. -/
def State.soloMuted (s : State) (x : Stitch) (d : BusDesc) : Bool :=
  s.soloActive && d.soloAffect && F.QUILT_SRC_ATTR_SOLO.of (s.attrOf x.src) = 0 && !x.solosafe && !x.lifesafe

/-- The slots of a bus's list. -/
def BusDesc.keys (d : BusDesc) : List Nat := (List.range d.count).map d.slot

/-- The factors of every LIVE list stitch follow its solo-muted state from sample `n` on. -/
def State.resolo (s : State) (n : Nat) : State :=
  let len := s.fld R.QUILT_CTRL F.QUILT_CTRL_SOLO_RAMP
  if !s.soloActive && s.quilt.solo.isEmpty then s
  else
    s.quilt.live.used.foldl (fun (t : State) b =>
      let d := t.quilt.live.bus b
      d.keys.foldl (fun (u : State) key =>
        let f := u.solo key
        let want := if u.soloMuted (stitchOf (u.quilt.live.slot key)) d then 0 else factorOne
        if f.f1 = want then u
        else { u with quilt := { u.quilt with solo := Sparse.set (fun _ => {}) u.quilt.solo key (f.move want len n) } }) t) s

/-! ### Generators (R106 to R110) -/

/-- A = round(2^27 × 10^(−LEVEL/320)). -/
def genAmp (level : Nat) : Nat := levelCode (-(level : Int)) 320

def mix (x : Nat) : Nat :=
  let w := 2 ^ 64
  let z := (x + 0x9E3779B97F4A7C15) % w
  let z := (z ^^^ (z / 2 ^ 30)) * 0xBF58476D1CE4E5B9 % w
  let z := (z ^^^ (z / 2 ^ 27)) * 0x94D049BB133111EB % w
  z ^^^ (z / 2 ^ 31)

/-- sin(2π·p/2^24) in units of 2^-100, exact at the quarter turns. -/
def fxSinTurn (p : Nat) : Int :=
  let q := p / 2 ^ 22
  let r := p % 2 ^ 22
  let a (k : Nat) : Int := if k = 0 then 0 else if k = 2 ^ 22 then fxOne else fxSin (2 * fxPi * (k : Int) / (2 ^ 24 : Nat))
  match q with
  | 0 => a r
  | 1 => a (2 ^ 22 - r)
  | 2 => -a r
  | _ => -a (2 ^ 22 - r)

/-- Generator g at sample n with gain code h: the nearest word to h·r(n). -/
def genSample (g : Nat) (x : Gen) (h : Int) (n : Nat) : Int :=
  let v16 (z i : Nat) : Int := sext 16 (z / 2 ^ (16 * i))
  if g < 64 then
    rsh (h * fxSinTurn ((x.inc * n + x.ph) % 2 ^ 32 / 2 ^ 8)) 100
  else if g < 96 then
    let z := mix (x.ph % 2 ^ 16 * 2 ^ 48 + 16 * 2 ^ 43 + n % 2 ^ 43)
    rsh (h * (v16 z 0 + v16 z 1 + v16 z 2 + v16 z 3) * (isqrt (3 * 2 ^ 197) : Int)) 115
  else
    let v := (List.range 16).foldl (fun (a : Int) k =>
      a + v16 (mix (x.ph % 2 ^ 16 * 2 ^ 48 + k * 2 ^ 43 + n / 2 ^ k % 2 ^ 43)) 0) 0
    rsh (h * v * (isqrt (3 * 2 ^ 195) : Int)) 115

/-- The gain code of a generator at sample n, with its ramp. -/
def Gen.step (x : Gen) (n : Nat) : Gen :=
  match x.ramp with
  | none => x
  | some r =>
    if n < r.t0 then x
    else if r.t0 + r.len ≤ n then { x with h := r.g, ramp := none }
    else { x with h := rampWord r x.h (n - r.t0 + 1) }

/-- A generator's ramp of R106 from block start m. -/
def Gen.aim (x : Gen) (g : Int) (shape len m : Nat) : Gen :=
  if x.h = g then { x with ramp := none } else { x with ramp := some ⟨x.h, g, shape, len, m⟩ }

/-- A generator write takes effect at block start m. -/
def State.genTake (s : State) (w : GenWrite) (m : Nat) : State :=
  let x := s.gen w.g
  let len := s.fld (R.QUILT_GEN_CFG w.g) F.QUILT_GEN_CFG_RAMP
  match w.reg with
  | 0 =>
    let en := w.val / 2 ^ 31 % 2 = 1
    if en = x.en then s
    else s.setGen w.g { x.aim (if en then genAmp x.level else 0) 1 len m with en := en }
  | 1 =>
    let w32 : Int := (2 ^ 32 : Nat)
    s.setGen w.g { x with inc := w.val,
                          ph := if w.g < 64 then
                              (((x.ph : Int) + ((x.inc : Int) - (w.val : Int)) * (m : Int)) % w32).toNat
                            else x.ph }
  | 2 =>
    if x.level = w.val then s
    else if x.en then
      s.setGen w.g { x.aim (genAmp w.val) (if x.h = 0 then 1 else 2) len m with level := w.val }
    else s.setGen w.g { x with level := w.val }
  | _ => s.setGen w.g { x with ph := if w.g < 64 then w.val else w.val % 2 ^ 16 }

/-- At a block start the generator writes that are due act: frequency changes before phase writes (R107); PHSEED reads
the phase offset in force. -/
def State.gensBlockStart (s : State) : State :=
  let due := s.quilt.genPend.filter (fun w => w.due ≤ s.msc)
  let s := { s with quilt := { s.quilt with genPend := s.quilt.genPend.filter (fun w => s.msc < w.due) } }
  let order := due.filter (fun w => w.reg ≠ 3) ++ due.filter (fun w => w.reg = 3)
  order.foldl (fun (t : State) w =>
    let t := t.genTake w t.msc
    if w.g < 64 && (w.reg = 1 || w.reg = 3) && !t.quilt.genPend.any (fun p => p.g = w.g && p.reg = 3) then
      State.ccuConfigChange t (t.wrN (R.QUILT_GEN_PHSEED w.g) (t.gen w.g).ph) (R.QUILT_GEN_PHSEED w.g)
    else t) s

/-! ### The source frame (R19, R22, R23) -/

/-- Keys of two sparse maps merged by addition of entries; the maps here have no common key. -/
def addAll (m : Sparse Int) (es : List (Nat × Int)) : Sparse Int := es.foldl (fun t e => Sparse.set zeroI t e.1 e.2) m

/-- The source frame of sample n: non-zero samples by source index. -/
def State.frameAt (s : State) (n : Nat) : Sparse Int :=
  let needle := s.needle.cores.flatMap (fun e =>
    (List.range 16).map (fun j => (4096 + 16 * e.1 + j, (Sparse.get zeroW e.2.deliver (8 * j + n % 8)).toInt)))
  let gens := s.quilt.gens.map (fun e => (5696 + e.1, genSample e.1 e.2 e.2.h n))
  let pilots := (List.range 16).map (fun c => (5824 + c, pilot n))
  let returns := s.quilt.ret.map (fun e => (6144 + e.1, e.2.getD 7 0))
  let players := s.alarm.out.map (fun e => (5632 + e.1, e.2))
  addAll (addAll (addAll (addAll (addAll (addAll s.net.chan needle) s.port.src) players) gens) pilots) returns

/-! ### Products and sums (R79 to R82, R94) -/

/-- Effective gain (R80). -/
def effGain (c : Int) (solo duck : Nat) : Int :=
  if solo = factorOne && duck = factorOne then c else rsh (c * (solo : Int) * (duck : Int)) 120

/-- What one bus has summed: the sum, the count N before its clamp, and the saturated products by tile. -/
structure BusSum where
  sum : Int := 0
  count : Nat := 0
  sats : List Nat := []
  deriving DecidableEq, Repr

/-- One product enters (R81). -/
def BusSum.add (a : BusSum) (x e : Int) (counts : Bool) (tile : Nat) : BusSum :=
  let p := rsh (x * e) 28
  let q := sat32 p
  { sum := a.sum + q, count := a.count + (if counts then 1 else 0), sats := if q = p then a.sats else tile :: a.sats }

/-- The sample that a tile reads for a source: zero where its replica is uncorrectable (R120). -/
def frameRead (frame : Sparse Int) (bad : List (Nat × Nat)) (tile src : Nat) : Int :=
  if bad.contains (tile, src) then 0 else Sparse.get zeroI frame src

/-- The stitch of a LIVE slot enters the sum of bus b. -/
def State.addSlot (s : State) (frame : Sparse Int) (bad : List (Nat × Nat)) (n b : Nat) (a : BusSum) (key : Nat) :
    BusSum :=
  let x := stitchOf (s.quilt.live.slot key)
  if x.bus ≠ b then a
  else a.add (frameRead frame bad (key / 65536) x.src)
    (effGain (s.quilt.live.gain key) ((s.solo key).at n) ((s.duckOf key).at n)) (!x.nocount && s.active x.src n)
    (key / 65536)

/-- The sum of bus b at sample n over LIVE slots and the outgoing stitches (R82). -/
def State.busSum (s : State) (frame : Sparse Int) (bad : List (Nat × Nat)) (n b : Nat) (keys : List Nat) : BusSum :=
  let a := keys.foldl (s.addSlot frame bad n b) ({} : BusSum)
  s.seam.outs.foldl (fun (a : BusSum) o =>
    let x := stitchOf o.word
    if x.bus ≠ b then a
    else a.add (frameRead frame bad (o.key / 65536) x.src) (effGain o.c (o.solo.at n) (o.duck.at n)) false
      (o.key / 65536)) a

/-! ### Autoscale and trim (R95, R98, R103) -/

/-- Target of the scale word. -/
def scaleTarget (d : BusDesc) (count : Nat) : Int :=
  let n := max d.nmin (min count d.nmax)
  match d.asmode with
  | 1 => rdiv (2147483648 : Int) n
  | 2 => ((isqrt (2 ^ 64 / n) + 1) / 2 : Nat)
  | _ => 2147483648

/-- A ramp word advanced to sample n: the word and the ramp that is left. -/
def rampStep (r : Option Ramp) (v : Int) (n : Nat) : Int × Option Ramp :=
  match r with
  | none => (v, none)
  | some r =>
    if n < r.t0 then (v, some r)
    else if r.t0 + r.len ≤ n then (r.g, none)
    else (rampWord r v (n - r.t0 + 1), if n = r.t0 + r.len - 1 then none else some r)

/-- The scale word of a bus at sample n with N counted: a new target starts its ramp at the next sample; a bus that comes
into use starts at its target. -/
def BusSt.stepScale (x : BusSt) (d : BusDesc) (count n : Nat) : BusSt :=
  let target := scaleTarget d count
  if !x.used then { x with scale := target, sramp := none, used := true }
  else
    let r := rampStep x.sramp x.scale n
    let aim := match x.sramp with | some r => r.g | none => x.scale
    if target = aim then { x with scale := r.1, sramp := r.2 }
    else { x with scale := r.1, sramp := if r.1 = target then none else some ⟨r.1, target, 2, d.asramp, n + 1⟩ }

/-! ### Delay taps (R111 to R115) -/

/-- A tap writes sample n of its bus and reads the delayed one. -/
def State.tapStep (s : State) (t n : Nat) (v : Int) : State × Int :=
  let x := s.tap t
  let rlen := s.rd (R.QUILT_DLY_RLEN t)
  let base := 4096 * s.rd (R.QUILT_DLY_BASE t)
  if rlen = 0 then (s, 0)
  else
    let s := { s with mem := s.mem.dramPutWord (base + 4 * (n % rlen)) (BitVec.ofInt 32 v) }
    let at_ (dly : Nat) : Int :=
      if n < x.since + dly then 0 else (s.mem.dramWord (base + 4 * ((n - dly) % rlen))).toInt
    let now := at_ x.cur
    let y := if x.xfLen = 0 then now
      else
        let k := n - x.xfAt + 1
        if x.xfLen ≤ k then now else rdiv (at_ x.old * ((x.xfLen - k : Nat) : Int) + now * (k : Int)) x.xfLen
    (s, if x.late then 0 else y)

/-- XFADING and PENDING (R113, R127). -/
def State.syncTap (s : State) (t : Nat) : State :=
  let x := s.tap t
  (s.setBit (R.QUILT_DLY_XF t) F.QUILT_DLY_XF_XFADING (x.xfLen ≠ 0)).setBit (R.QUILT_DLY_XF t) F.QUILT_DLY_XF_PENDING
    x.held.isSome

/-- A new delay starts its crossfade at block start m. -/
def State.tapMove (s : State) (t m dly : Nat) : State :=
  let x := s.tap t
  (s.setTap t { x with old := x.cur, cur := dly, xfAt := m, xfLen := s.fld (R.QUILT_DLY_XF t) F.QUILT_DLY_XF_XF,
                       next := none }).syncTap t

/-- Taps at a block start: accepted groups and delays act; `late` lists the taps whose reads do not return, with
the address of an uncorrectable word where that is why; without one the controller has failed (R115, R556). -/
def State.tapsBlockStart (s : State) (late : List (Nat × Option Nat)) : State :=
  let s := s.quilt.taps.foldl (fun (u : State) e =>
    let t := e.1
    let x := u.tap t
    let u := match x.apply with
      | some g => (u.activateConfig [(R.QUILT_DLY_BASE t, g.1), (R.QUILT_DLY_RLEN t, g.2)]).setTap t
          { x with apply := none, since := u.msc }
      | none => u
    let x := { u.tap t with late := false }
    let u := u.setTap t x
    match x.next with
    | some dly => u.tapMove t u.msc dly
    | none => u) s
  let s := late.foldl (fun (u : State) e =>
    let u := u.setTap e.1 { u.tap e.1 with late := true }
    (u.flag R.QUILT_FLAGS F.QUILT_FLAGS_DLY_UNDERRUN).raise FS.DLY_UNDERRUN e.1 0) s
  let s := late.foldl (fun (u : State) e => match e.2 with
    | some a => u.dramUe 9 a none
    | none => u) s
  if late.any (fun e => e.2.isNone) then s.dramFail else s

/-- DLY_APPLY (R111): the group takes effect at the next block start. -/
def State.dlyApply (s : State) (t : Nat) : State :=
  let rlen := F.QUILT_DLY_RLEN_RLEN.of (s.sh (R.QUILT_DLY_RLEN t))
  let base := 4096 * s.sh (R.QUILT_DLY_BASE t)
  let named := s.quilt.live.used.any (fun b => (s.quilt.live.bus b).dlyEn && (s.quilt.live.bus b).dlytap = t)
  if rlen < 8 || s.dramUsable < base + 4 * rlen || named then
    let waits := match (s.tap t).apply with
      | some g => [(R.QUILT_DLY_BASE t, g.1), (R.QUILT_DLY_RLEN t, g.2)]
      | none => []
    ((s.reloadShadows [R.QUILT_DLY_BASE t, R.QUILT_DLY_RLEN t] waits).flag R.QUILT_FLAGS
      F.QUILT_FLAGS_APPLY_ERR).raise FS.DLY_CFG_ERR t 0
  else s.setTap t { s.tap t with apply := some (s.shadowOf (R.QUILT_DLY_BASE t), s.shadowOf (R.QUILT_DLY_RLEN t)) }

def execDlyApply (t : Fin 4096) (s : State) : Res := .next (s.dlyApply t)

/-- A write of QUILT_DLY_DELAY (R112, R113): the new delay acts at the next block start, or is held during a crossfade. -/
def State.dlyDelay (s : State) (t : Nat) (v : Nat) : State :=
  let dly := v % 2 ^ 18
  let rlen := s.rd (R.QUILT_DLY_RLEN t)
  if rlen < 8 || min 240000 (rlen - 8) < dly then
    (s.flag R.QUILT_FLAGS F.QUILT_FLAGS_DLY_ERR).raise FS.DLY_CFG_ERR t 0
  else
    let old := s
    let s := s.wrN (R.QUILT_DLY_DELAY t) dly
    let x := s.tap t
    let s := if x.xfLen = 0 then s.setTap t { x with next := some dly } else s.setTap t { x with held := some dly }
    State.ccuConfigChange old (s.syncTap t) (R.QUILT_DLY_DELAY t)

def execDlyDelayWrite (t : Fin 4096) (v : Word) (s : State) : Res := .next (s.dlyDelay t v.toNat)

/-- DLY_XF_END (R113): a crossfade has reached its new read point; a held delay starts its own. -/
def execDlyXfEnd (t : Fin 4096) (s : State) : Res :=
  let x := s.tap t
  if x.xfLen = 0 || s.msc < x.xfAt + x.xfLen then .next s
  else
    let s := (s.setTap t { x with xfLen := 0, held := none }).syncTap t
    match x.held with
    | some dly => .next (s.tapMove t s.msc dly)
    | none => .next s

/-! ### The output stage (R98 to R104) -/

/-- L of R98. -/
def limitLevel (thr : Nat) : Nat := min 0x7FFFFFFF (levelCode (96 - (thr : Int)) 80)

/-- Saturated products are counted by tile (R81). -/
def State.countSats (s : State) (sats : List Nat) : State :=
  sats.foldl (fun (t : State) tile =>
    (t.count (R.QUILT_TILE_PSAT_CNT tile)).flag R.QUILT_FLAGS F.QUILT_FLAGS_PROD_SAT) s

/-- The output stage of bus b with descriptor d at sample n: the state and the bus output. A bus that is not in use and
whose stitches still unravel has no return (R104) and loses its tap to a bus in use that names it. -/
def State.busStep (s : State) (d : BusDesc) (a : BusSum) (n b : Nat) (inUse : Bool) : State × Int :=
  let s := s.countSats a.sats
  let st := (s.busSt b).stepScale d a.count n
  let tr := rampStep st.tramp st.trim n
  let st := { st with trim := tr.1, tramp := tr.2 }
  let s := s.setBusSt b st
  let t := rsh (rsh (a.sum * st.scale) 31 * st.trim) 28
  let v := sat32 t
  let s := if v = t then s else
    ((s.count (R.QUILT_BUS_CLIP_CNT b)).flag R.QUILT_FLAGS F.QUILT_FLAGS_BUS_CLIP).raise FS.QUILT_BUS_CLIP b 0
  let s := if b < 2048 && inUse then
      let ret := Sparse.set (fun _ => []) s.quilt.ret b ((v :: Sparse.get (fun _ => []) s.quilt.ret b).take 8)
      { s with quilt := { s.quilt with ret := ret } }
    else s
  let taken : Bool := !inUse && s.quilt.live.used.any (fun c =>
    (s.quilt.live.bus c).dlyEn && (s.quilt.live.bus c).dlytap = d.dlytap)
  let r := if d.dlyEn && !taken then s.tapStep d.dlytap n v else (s, v)
  let s := r.1
  let v := r.2
  if d.clip = 1 then
    let l : Int := limitLevel d.limthr
    let w := if v < -l then -l else if l < v then l else v
    (if w = v then s else (s.count (R.QUILT_BUS_LIM_CNT b)).flag R.QUILT_FLAGS F.QUILT_FLAGS_LIMIT, w)
  else (s, v)

/-- Buses that a SEW has put out of use and whose outgoing stitches still unravel: their descriptors lie in BASTE, the
former LIVE bank (R82, R103). -/
def State.leaving (s : State) (used : List Nat) : List Nat :=
  (s.seam.outs.map (fun o => (stitchOf o.word).bus)).foldl (fun l b =>
    if used.contains b || l.contains b then l else l ++ [b]) []

/-- Overlay stitches on buses that are not in use reach no destination: of their products only saturation shows (R88). -/
def State.overlaySats (s : State) (frame : Sparse Int) (bad : List (Nat × Nat)) (n : Nat) (used : List Nat) : List Nat :=
  (s.quilt.overlay.foldl (fun (a : BusSum) key =>
    let b := (stitchOf (s.quilt.live.slot key)).bus
    if used.contains b then a else s.addSlot frame bad n b a key) ({} : BusSum)).sats

/-- Every bus in use, and those whose stitches still unravel; a bus that is not in use has a return of zero (R104), and
loses its output stage when nothing of it is left. -/
def State.busesStep (s : State) (frame : Sparse Int) (bad : List (Nat × Nat)) (n : Nat) : State × Sparse Int :=
  let used := s.quilt.live.used
  let r := used.foldl (fun (a : State × Sparse Int) b =>
    let d := a.1.quilt.live.bus b
    let o := a.1.busStep d (a.1.busSum frame bad n b (d.keys ++ a.1.quilt.overlay)) n b true
    (o.1, Sparse.set zeroI a.2 b o.2)) (s, [])
  let gone := s.leaving used
  let r := gone.foldl (fun (a : State × Sparse Int) b =>
    let o := a.1.busStep (a.1.quilt.baste.bus b) (a.1.busSum frame bad n b []) n b false
    (o.1, Sparse.set zeroI a.2 b o.2)) r
  let s := r.1.countSats (s.overlaySats frame bad n used)
  let q := s.quilt
  let ret := q.ret.filterMap (fun e =>
    if used.contains e.1 then some e
    else
      let l := ((0 : Int) :: e.2).take 8
      if l.all (· = 0) then none else some (e.1, l))
  ({ s with quilt := { q with ret := ret, bus := q.bus.filter (fun e => used.contains e.1 || gone.contains e.1) } }, r.2)

/-! ### Destinations (R86, R101, R103, R342) -/

/-- The word of a destination channel at sample n from the bus outputs: a direct route carries itself; a crossfade of
64 samples follows a change of the feeding bus. -/
def destWord (out direct : Sparse Int) (xf : Option DestXf) (now : Option Nat) (n key : Nat) : Int :=
  match direct.find? (fun e => e.1 = key) with
  | some e => e.2
  | none =>
    let v (b : Option Nat) : Int := match b with | some b => Sparse.get zeroI out b | none => 0
    match xf with
    | some x => if x.t0 ≤ n && n < x.t0 + 64 then
        let k := n - x.t0 + 1
        rsh (v x.old * ((64 - k : Nat) : Int) + v x.now * (k : Int)) 6
      else v x.now
    | none => v now

/-- The channel's word as the destination takes it at sample m (R101): the one computed as MSC m − 8. -/
def State.destSample (s : State) (key : Nat) : Int := (Sparse.get (fun _ => []) s.quilt.dest key).getD 7 0

/-- The words of sample n enter the histories of all channels that are fed, were fed or carry a direct route. -/
def State.destsStep (s : State) (out : Sparse Int) (n : Nat) : State × Sparse Int :=
  let feeds := s.quilt.live.feeds
  let direct := s.port.direct
  let keys := feeds.map (·.2) ++ direct.map (·.1) ++ s.quilt.destXf.map (·.1)
  let words := keys.foldl (fun (m : Sparse Int) key =>
    let now := (feeds.find? (fun e => e.2 = key)).map (·.1)
    Sparse.set zeroI m key (destWord out direct (Sparse.get (fun _ => none) s.quilt.destXf key) now n key)) []
  let hist := (keys ++ s.quilt.dest.map (·.1)).foldl (fun (a : Sparse (List Int) × List Nat) key =>
    if a.2.contains key then a
    else
      let l := (Sparse.get zeroI words key :: Sparse.get (fun _ => []) a.1 key).take 8
      (Sparse.set (fun _ => []) a.1 key (if l.all (· = 0) then [] else l), key :: a.2)) (s.quilt.dest, [])
  let xf := s.quilt.destXf.filter (fun e => match e.2 with | some x => decide (n + 1 < x.t0 + 64) | none => false)
  ({ s with quilt := { s.quilt with dest := hist.1, destXf := xf } }, words)

/-! ### Meters (R102) -/

/-- 10·log10(2·mean(y²)) dBFS in units of 1/256 dB, floor −128 dB, as 16 bits. -/
def rmsCode (sum samples : Nat) : Nat :=
  if sum = 0 then 0x8000
  else
    let v := fxRound (fxLn (2 * sum) (samples * 2 ^ 54) * 2560 * fxOne / fxLn 10 1)
    wrapN 16 (if v < -32768 then -32768 else v)

/-- Meter point m takes y. -/
def State.meterStep (s : State) (m : Nat) (y : Int) : State :=
  let a := R.QUILT_METER_PEAK m
  let s := if s.rd a < y.natAbs then s.wrN a y.natAbs else s
  let peaks := s.shep.telemPeak
  let s : State := if Sparse.get (fun _ => 0) peaks m < y.natAbs then
      { s with shep := { s.shep with telemPeak := Sparse.set (fun _ => 0) peaks m y.natAbs } }
    else s
  if s.quilt.meterFrom.isSome then
    let sum := Sparse.get (fun _ => 0) s.quilt.meterSum m + y.natAbs * y.natAbs
    { s with quilt := { s.quilt with meterSum := Sparse.set (fun _ => 0) s.quilt.meterSum m sum } }
  else s

/-- All meter points at sample n, and the end of a window. -/
def State.metersStep (s : State) (n : Nat) : State :=
  let pts := (s.quilt.dest.filter (fun e => 8192 * 6 ≤ e.1 && e.1 < 8192 * 7)).map (fun e => e.1)
  let s := pts.foldl (fun (t : State) key => t.meterStep (key - 8192 * 6) (s.destSample key)) s
  let win := s.quilt.meterWin
  match s.quilt.meterFrom with
  | none => s
  | some from_ =>
    if (n + 1) % 8 = 0 && from_ + win ≤ (n + 1) / 8 then
      let s := (List.range 1024).foldl (fun (t : State) m =>
        let code := rmsCode (Sparse.get (fun _ => 0) t.quilt.meterSum m) (8 * win)
        if t.rd (R.QUILT_METER_RMS m) = code then t else t.wrN (R.QUILT_METER_RMS m) code) s
      { s with quilt := { s.quilt with meterSum := [], meterFrom := some ((n + 1) / 8) } }
    else s

/-- A write that changes WIN: the window in progress is discarded (R102). -/
def State.meterCfg (s : State) (v : Nat) : State :=
  let w := F.QUILT_METER_CFG_WIN.of v
  if w = 0 || w = s.fld R.QUILT_METER_CFG F.QUILT_METER_CFG_WIN then s
  else
    let t := s.setFld R.QUILT_METER_CFG F.QUILT_METER_CFG_WIN w
    State.ccuConfigChange s { t with quilt := { t.quilt with meterFrom := none, meterSum := [] } } R.QUILT_METER_CFG

/-- Meters at a block start: a window begins at a block whose index is a multiple of WIN. -/
def State.metersBlockStart (s : State) : State :=
  let w := s.fld R.QUILT_METER_CFG F.QUILT_METER_CFG_WIN
  if s.quilt.meterFrom.isNone && s.block % w = 0 then
    { s with quilt := { s.quilt with meterWin := w, meterFrom := some s.block, meterSum := [] } }
  else s

/-- A read of QUILT_METER_PEAK restarts it. -/
def State.meterPeak (s : State) (m : Nat) : Word × State :=
  (s.reg (R.QUILT_METER_PEAK m), s.wrN (R.QUILT_METER_PEAK m) 0)

def execMeterPeakRead (m : Fin 1024) (s : State) : Res :=
  let r := s.meterPeak m
  .next { r.2 with out := { r.2.out with busData := r.1, busErr := false } }

/-! ### Source attributes (R96) -/

/-- Source attributes at a block start. -/
def State.attrsBlockStart (s : State) : State :=
  if s.quilt.attrPend.isEmpty then s
  else
    let q := s.quilt
    let a := q.attrPend.foldl (fun m src => Sparse.set attrDefault m src (s.reg (R.QUILT_SRC_ATTR src))) q.attr
    State.resolo { s with quilt := { q with attr := a, attrPend := [] } } s.msc

/-! ### LIVE ramps and memory errors (R120, R128, R146) -/

/-- The gain words of LIVE and of outgoing stitches at sample n. Outgoing stitches whose ramp has ended retire. -/
def State.rampsStep (s : State) (n : Nat) : State :=
  let s := s.seam.ramps.foldl (fun (t : State) e =>
    let r := e.2
    if n < r.t0 then t
    else if r.t0 + r.len ≤ n then t
    else t.setGain e.1 (rampWord r (t.quilt.live.gain e.1) (n - r.t0 + 1))) s
  let outs := s.seam.outs.filterMap (fun o =>
    if o.ramp.t0 + o.ramp.len ≤ n then none
    else if n < o.ramp.t0 then some o
    else some { o with c := rampWord o.ramp o.c (n - o.ramp.t0 + 1) })
  { s with seam := { s.seam with ramps := s.seam.ramps.filter (fun e => n < e.2.t0 + e.2.len), outs := outs } }

/-- The tile of a word for R121. -/
def QWord.tile : QWord → Nat
  | .slot _ key => key / 65536
  | .gain key => key / 65536
  | .frame t _ => t
  | _ => 0

/-- The LIVE pattern uses a word of a bank: a listed slot, a slot of the overlay region while an overlay record lies
there, the descriptor of a bus in use, or a map entry in the range of a bus in use. -/
def bankUses (k : Bank) (overlay : List Nat) (w : QWord) : Bool :=
  match w with
  | .slot _ key =>
    k.used.any (fun b => (k.bus b).keys.contains key) ||
      overlay.any (fun o => o / 65536 = key / 65536 && o ≤ key)
  | .desc _ i => k.used.contains (i / 4)
  | .dmap _ e => k.used.any (fun b => (k.bus b).dmapFirst ≤ e && e < (k.bus b).dmapFirst + (k.bus b).dmapCount)
  | _ => false

/-- A read of LIVE finds an uncorrectable word (R120), whoever reads. -/
def State.liveUe (s : State) (w : QWord) : State :=
  if bankUses s.quilt.live s.quilt.overlay w then s.raise FS.QUILT_LIVE_UE w.tile 0
  else
    let q := s.quilt
    let live := match w with
      | .slot _ key => { q.live with slots := Sparse.erase q.live.slots key }
      | .desc _ k => { q.live with desc := Sparse.erase q.live.desc k }
      | .dmap _ e => { q.live with dmap := Sparse.erase q.live.dmap e }
      | _ => q.live
    let s := { s with quilt := { q with live := live, ue := q.ue.filter (· ≠ w) } }
    s.raise FS.SRAM_ECC_UE 0 0

/-- An uncorrectable current gain word: a step to the target. -/
def State.gainUe (s : State) (key : Nat) : State :=
  let s := { s with seam := { s.seam with ramps := s.seam.ramps.filter (fun e => e.1 ≠ key) } }
  (s.setGain key (stitchOf (s.quilt.live.slot key)).target).raise FS.QUILT_GAIN_UE (key / 65536) 0

/-- Uncorrectable LIVE words that a reader finds (R120), with the reader's master code. -/
def State.liveUes (s : State) (master : Nat) (found : List QWord) : State :=
  found.foldl (fun (t : State) w =>
    match w with
    | .slot true _ => (t.quiltEcc w master true).liveUe w
    | .desc true _ => (t.quiltEcc w master true).liveUe w
    | .dmap true _ => (t.quiltEcc w master true).liveUe w
    | _ => t) s

/-- What the fabric finds uncorrectable at a sample; answers the bad frame replicas. -/
def State.fabricUe (s : State) (found : List QWord) : State × List (Nat × Nat) :=
  found.foldl (fun (a : State × List (Nat × Nat)) w =>
    match w with
    | .frame t src => ((a.1.quiltEcc w 9 true).raise FS.QUILT_FRAME_UE t src, (t, src) :: a.2)
    | .gain key => ((a.1.quiltEcc w 9 true).gainUe key, a.2)
    | _ => (a.1.liveUes 9 [w], a.2)) (s, [])

/-- A correctable word of the Quilt memories (R120). -/
def State.quiltCe (s : State) (w : QWord) (master : Nat) : State :=
  ((s.quiltEcc w master false).flag R.QUILT_FLAGS F.QUILT_FLAGS_ECC_CE).raise FS.QUILT_ECC_CE w.tile 0

/-! ### One sample of the fabric -/

/-- The fabric computes sample n: the words computed for the destination channels as MSC n. -/
def State.fabricStep (s : State) (n : Nat) (found : List QWord) : State × Sparse Int :=
  let u := s.fabricUe found
  let s := u.1
  let s := s.quilt.gens.foldl (fun (t : State) e => t.setGen e.1 (e.2.step n)) s
  let s := s.rampsStep n
  let frame := s.frameAt n
  let b := s.busesStep frame u.2 n
  let s := b.1.noteActivity frame n
  let s := s.metersStep n
  s.destsStep b.2 n

end Sys2Proof.Machine
end

