-- ==== Sys2Proof/Machine/Seam.lean ====
section
/-!
DEFINITION. Seam (R88 to R92, R116 to R119, R128 to R159): CHECK, duck factors at a change of patterns, the swap, unravel
and re-baste, writes to BASTE and direct stitch writes.
-/

namespace Sys2Proof.Machine

/-! ### Duck factors (R399, R407, R408) -/

/-- 10^(−c/40) in units of 2^-60; 255 is 0 (R399). -/
def duckFactor (c : Nat) : Nat :=
  if c = 255 then 0 else if c = 0 then factorOne
  else (fxExp (-(fxLn 10 1 * (c : Int) / 40)) / (2 ^ 40 : Nat)).toNat

/-- (SRC, BUS) of a record. -/
def pairOf (w : DWord) : Nat × Nat := ((stitchOf w).src, (stitchOf w).bus)

/-- f_duck target of a contributing stitch (R407). -/
def State.duckTarget (s : State) (p : Option AlarmPat) (w : DWord) (isOverlay : Bool) : Nat :=
  match p with
  | none => factorOne
  | some p =>
    let x := stitchOf w
    if isOverlay || x.lifesafe then factorOne
    else if p.overlay.any (fun o => pairOf o = pairOf w) then 0
    else if p.overlay.any (fun o => (stitchOf o).bus = x.bus) || (p.duckAll && (s.quilt.live.bus x.bus).inUse) then
      duckFactor (if F.QUILT_SRC_ATTR_PAGING.of (s.attrOf x.src) = 1 then p.page else p.prog)
    else factorOne

/-- All duck factors follow their targets from sample n on (R408). -/
def State.reduck (s : State) (n : Nat) : State :=
  let p := s.alarm.ducking
  if p.isNone && s.alarm.duck.isEmpty && s.seam.outs.all (fun o => o.duck.f1 = factorOne) then s
  else
    let len := match p with | some p => p.ramp | none => s.alarm.ramp
    let one (t : State) (key : Nat) (isOverlay : Bool) : State :=
      let f := t.duckOf key
      let want := t.duckTarget p (t.quilt.live.slot key) isOverlay
      if f.f1 = want then t
      else { t with alarm := { t.alarm with duck := Sparse.set (fun _ => {}) t.alarm.duck key (f.move want len n) } }
    let s := s.quilt.live.used.foldl (fun (t : State) b => (t.quilt.live.bus b).keys.foldl (fun u k => one u k false) t) s
    let outs := s.seam.outs.map (fun o =>
      let want := s.duckTarget p o.word false
      if o.duck.f1 = want then o else { o with duck := o.duck.move want len n })
    { s with seam := { s.seam with outs := outs } }

/-! ### Bank states (R135, R136) -/

def State.bstate (s : State) : Nat := s.fld R.SEAM_STATUS F.SEAM_STATUS_BSTATE
def State.setBstate (s : State) (b : Nat) : State := s.setFld R.SEAM_STATUS F.SEAM_STATUS_BSTATE b

/-- BASTE is writable in OPEN and CHECKED. -/
def State.basteOpen (s : State) : Bool := s.bstate = 0 || s.bstate = 2

/-- A refusal as BUSY (R136, R159). -/
def State.seamBusy (s : State) : State := s.count R.SEAM_BUSY_CNT

/-! ### The evaluation of R91 -/

/-- The list stitches of a bank: slot and record, by bus and slot. -/
def Bank.listed (k : Bank) : List (Nat × DWord) := k.used.flatMap (fun b => (k.bus b).keys.map (fun key => (key, k.slot key)))

/-- V_t against the descriptors of a bank (R88, R402). -/
def State.overlayReserve (s : State) (k : Bank) (t : Nat) : Nat :=
  s.alarm.pats.foldl (fun m e =>
    match e.2 with
    | some p => max m (p.overlay.filter (fun o => (k.bus (stitchOf o).bus).tile = t)).length
    | none => m) 0

/-- L_t and B_t of a bank. -/
def Bank.load (k : Bank) (t : Nat) : Nat :=
  k.used.foldl (fun n b => if (k.bus b).tile = t then n + (k.bus b).count else n) 0

def Bank.busesIn (k : Bank) (t : Nat) : Nat := (k.used.filter (fun b => (k.bus b).tile = t)).length

/-- A bus in use in both banks whose TILE differs (R90). -/
def changesTile (old new : Bank) (b : Nat) : Bool :=
  (old.bus b).inUse && (new.bus b).inUse && (old.bus b).tile ≠ (new.bus b).tile

/-- The record of a pair in a bank's list, with its slot. -/
def Bank.find (k : Bank) (pr : Nat × Nat) : Option (Nat × DWord) :=
  let d := k.bus pr.2
  if !d.inUse then none
  else (d.keys.map (fun key => (key, k.slot key))).find? (fun e => pairOf e.2 = pr)

/-- U_t (R89). -/
def removedIn (old new : Bank) (t : Nat) : Nat :=
  (old.listed.filter (fun e => e.1 / 65536 = t &&
    ((new.find (pairOf e.2)).isNone || changesTile old new (pairOf e.2).2))).length

/-- W_t (R89). -/
def State.tileWork (s : State) (old new : Bank) (t : Nat) : Nat :=
  8 * (new.load t + removedIn old new t + s.overlayReserve new t) + 128 * new.busesIn t

def tiles : List Nat := List.range 16

/-- The least of a list of numbers. -/
def least (l : List Nat) : Option Nat :=
  l.foldl (fun m k => match m with | none => some k | some j => some (min j k)) none

/-- The first number that stands twice in a list sorted upward. -/
def firstTwice : List Nat → Option Nat
  | [] => none
  | a :: l => if l.head? = some a then some a else firstTwice l

/-- DESC_FIELD (0x20). -/
def descBad (d : BusDesc) : Bool :=
  d.asmode = 3 || 2 ≤ d.clip || (d.asmode ≠ 0 && (d.nmin = 0 || d.nmax < d.nmin)) || 8192 < d.nmin || 8192 < d.nmax ||
    d.asramp < 8 || 96000 < d.asramp || 8192 < d.dmapFirst + d.dmapCount

/-- Code, tile and index of the rules of R91 over a staged bank, for a fold class: the failing row of lowest code. -/
def State.checkBank (s : State) (new : Bank) (cls : Nat) : Nat × Nat × Nat :=
  let old := s.quilt.live
  let used := new.used
  let listed := new.listed
  let vt (t : Nat) : Nat := s.overlayReserve new t
  let slotFail (code : Nat) (p : Nat × DWord → Bool) : Option (Nat × Nat × Nat) :=
    (least ((listed.filter p).map (·.1))).map (fun key => (code, key / 65536, key % 65536))
  let busFail (code : Nat) (p : Nat → Bool) : Option (Nat × Nat × Nat) :=
    (used.find? p).map (fun b => (code, (new.bus b).tile, b))
  let full := (tiles.find? (fun t => 65536 < new.load t + vt t)).map (fun t => (0x01, t, 0))
  let work := (tiles.find? (fun t => 1310720 < s.tileWork old new t)).map (fun t => (0x02, t, 0))
  let moves := ((used.filter (changesTile old new))[512]?).map (fun b => (0x03, 0, b))
  let range := busFail 0x10 (fun b =>
    let d := new.bus b
    8192 < d.count || (0 < d.count && 65536 - vt d.tile < d.first + d.count))
  let overlap := (firstTwice ((listed.map (·.1)).mergeSort (· ≤ ·))).map (fun key => (0x11, key / 65536, key % 65536))
  let busKeys := used.flatMap (fun b => (new.bus b).keys.map (fun key => (key, b)))
  let wrongBus := (least ((busKeys.filter (fun e => (stitchOf (new.slot e.1)).bus ≠ e.2)).map (·.1))).map
    (fun key => (0x12, key / 65536, key % 65536))
  let order := (least ((used.flatMap (fun b =>
      let d := new.bus b
      (List.range (d.count - 1)).filterMap (fun i =>
        if (stitchOf (new.slot (d.slot (i + 1)))).src ≤ (stitchOf (new.slot (d.slot i))).src then some (d.slot (i + 1))
        else none))))).map (fun key => (0x13, key / 65536, key % 65536))
  let field := slotFail 0x14 (fun e => 5 ≤ (stitchOf e.2).shape)
  let desc := busFail 0x20 (fun b => descBad (new.bus b))
  let entries := used.flatMap (fun b =>
    let d := new.bus b
    (List.range d.dmapCount).map (fun i => (b, d.dmapFirst + i)))
  let destRange := (least ((entries.filter (fun e =>
      let t := new.destOf e.2
      7 ≤ t.1 || (t.1 ≠ 0 && destLimit t.1 ≤ t.2))).map (·.2))).map (fun i => (0x21, 0, i))
  let destConf := (least ((entries.filter (fun e =>
      let t := new.destOf e.2
      t.1 ≠ 0 && entries.any (fun f => f.1 ≠ e.1 && new.destOf f.2 = t))).map (·.2))).map (fun i => (0x22, 0, i))
  let tapUsers := used.filter (fun b => (new.bus b).dlyEn)
  let tap := (least ((tapUsers.filter (fun b =>
      let t := (new.bus b).dlytap
      tapUsers.any (fun c => c ≠ b && (new.bus c).dlytap = t) ||
        s.rd (R.QUILT_DLY_RLEN t) < s.rd (R.QUILT_DLY_DELAY t) + 8)).map (fun b => (new.bus b).dlytap))).map
    (fun t => (0x23, 0, t))
  let lifesafe := if cls = 3 then none
    else (least ((old.listed.filter (fun e => (stitchOf e.2).lifesafe &&
      (match new.find (pairOf e.2) with | some f => !(stitchOf f.2).lifesafe | none => true))).map (·.1))).map
        (fun key => (0x30, key / 65536, key % 65536))
  let bad := s.quilt.ue.filter (fun w => match w with
    | .slot l _ => !l && bankUses new [] w
    | .desc l _ => !l && bankUses new [] w
    | .dmap l _ => !l && bankUses new [] w
    | _ => false)
  let badSlot := (least (bad.filterMap (fun w => match w with | .slot _ key => some key | _ => none))).map
    (fun key => (0x40, key / 65536, key % 65536))
  let badDesc := (least (bad.filterMap (fun w => match w with | .desc _ i => some (i / 4) | _ => none))).map
    (fun b => (0x40, (new.bus b).tile, b))
  let badMap := (least (bad.filterMap (fun w => match w with | .dmap _ e => some e | _ => none))).map
    (fun e => (0x40, 0, e))
  (([full, work, moves, range, overlap, wrongBus, order, field, desc, destRange, destConf, tap, lifesafe, badSlot,
    badDesc, badMap].filterMap id).head?).getD (0, 0, 0)

/-- Status of a failing code (R91): 7 NO_RESOURCE, 8 INCONSISTENT, 3 NOT_PERMITTED stand in Fold.lean. -/
inductive ChkStatus where
  | ok | noResource | inconsistent | notPermitted
  deriving DecidableEq, Repr

def chkStatus (code : Nat) : ChkStatus :=
  if code = 0 then .ok else if code ≤ 3 then .noResource else if code = 0x30 then .notPermitted else .inconsistent

/-- The result of a check enters QUILT_CHK_RESULT and the tiles' work; a LIFESAFE refusal raises its source (R91, R92). -/
def State.noteCheck (s : State) (r : Nat × Nat × Nat) (fold : Nat) : State :=
  let s := s.wrN R.QUILT_CHK_RESULT (r.1 * 2 ^ 24 + r.2.1 * 2 ^ 20 + r.2.2)
  let s := tiles.foldl (fun (t : State) k =>
    t.wrN (R.QUILT_TILE_WORK k) (min (2 ^ 22 - 1) (t.tileWork t.quilt.live t.quilt.baste k))) s
  if r.1 = 0x30 then s.raise FS.LIFESAFE_VIOL fold 0x30 else s

/-! ### The swap (R141 to R144, R77, R103, R406) -/

/-- The overlay of LIVE in the new bank: records keep their slots, but a tile that a bus of the overlay enters or leaves is
packed again downward from slot 65,535 (R144, R406). Pairs of old and new slot, in placement order. -/
def carriedSlots (old new : Bank) (overlay : List Nat) : List (Nat × Nat) :=
  let tileNow (key : Nat) : Nat :=
    let b := (stitchOf (old.slot key)).bus
    if changesTile old new b then (new.bus b).tile else key / 65536
  let touched := overlay.flatMap (fun key => if tileNow key = key / 65536 then [] else [key / 65536, tileNow key])
  (overlay.foldl (fun (a : List (Nat × Nat) × List Nat) key =>
    let t := tileNow key
    let slot := if touched.contains t then 65536 * t + 65535 - (a.2.filter (· = t)).length else key
    (a.1 ++ [(key, slot)], t :: a.2)) ([], [])).1

/-- HOLD of R77: the new record with the old GAIN, SHAPE and LEN (bits 38 to 6). -/
def heldRecord (old new : DWord) : DWord :=
  let m : Nat := (2 ^ 33 - 1) * 2 ^ 6
  (new &&& BitVec.ofNat 64 (2 ^ 64 - 1 - m)) ||| (old &&& BitVec.ofNat 64 m)

/-- What the swap has gathered. -/
structure SwapAcc where
  slots : Sparse DWord
  gains : Sparse Word
  ramps : List (Nat × Ramp)
  solo : Sparse Factor
  duck : Sparse Factor
  deriving DecidableEq, Repr

/-- One stitch of the incoming bank (R142). -/
def State.swapIn (s : State) (old new : Bank) (t : Nat) (a : SwapAcc) (key : Nat) : SwapAcc :=
  let w := new.slot key
  let x := stitchOf w
  let kept := match old.find (pairOf w) with
    | some e => if changesTile old new x.bus then none else some e
    | none => none
  let putRamp (l : List (Nat × Ramp)) (r : Option Ramp) : List (Nat × Ramp) :=
    match r with | some r => l ++ [(key, r)] | none => l
  let setG (c : Int) : Sparse Word := Sparse.set zeroW a.gains key (BitVec.ofInt 32 c)
  let setF (m : Sparse Factor) (f : Factor) : Sparse Factor := Sparse.set (fun _ => {}) m key f
  match kept with
  | some (k0, w0) =>
    let c := old.gain k0
    let now := (s.seam.ramps.find? (fun e => e.1 = k0)).map (·.2)
    let f := setF a.solo (s.solo k0)
    let g := setF a.duck (s.duckOf k0)
    if x.hold then
      { slots := Sparse.set zeroD a.slots key (heldRecord w0 w), gains := setG c, ramps := putRamp a.ramps now, solo := f,
        duck := g }
    else if x.target = (stitchOf w0).target then
      { a with gains := setG c, ramps := putRamp a.ramps now, solo := f, duck := g }
    else { a with gains := setG c, ramps := putRamp a.ramps (newRamp c x.target x.shape x.len t), solo := f, duck := g }
  | none =>
    -- an added stitch starts with its factors at their targets
    let muted := s.soloMuted x (new.bus x.bus)
    let d := s.duckTarget s.alarm.ducking w false
    let flat (v : Nat) : Factor := { f0 := v, f1 := v }
    { a with gains := setG 0, ramps := putRamp a.ramps (newRamp 0 x.target x.shape x.len t),
             solo := setF a.solo (flat (if muted then 0 else factorOne)), duck := setF a.duck (flat d) }

/-- The outgoing stitches (R142, R146): a current gain of zero retires at once. -/
def State.swapOut (s : State) (old new : Bank) (t : Nat) : List OutStitch :=
  old.listed.filterMap (fun e =>
    let x := stitchOf e.2
    let stays := (new.find (pairOf e.2)).isSome && !changesTile old new x.bus
    let c := old.gain e.1
    if stays then none
    else (newRamp c 0 x.shape x.len t).map (fun r => ⟨e.1, e.2, r, c, s.solo e.1, s.duckOf e.1⟩))

/-- Output stages at a swap (R103). -/
def State.swapBuses (s : State) (old new : Bank) (t : Nat) : State :=
  new.used.foldl (fun (u : State) b =>
    let d := new.bus b
    let g := d.trim * 256
    let x := u.busSt b
    if !x.used || !(old.bus b).inUse then u.setBusSt b { ({} : BusSt) with trim := g }
    else if (old.bus b).trim = d.trim then u
    else
      let shape := if (old.bus b).trim ≠ 0 && d.trim ≠ 0 then 2 else 1
      u.setBusSt b { x with tramp := if x.trim = g then none else some ⟨x.trim, g, shape, d.asramp, t⟩ }) s

/-- Destination crossfades at a swap (R103). -/
def swapDests (old new : Bank) (t : Nat) (xf : Sparse (Option DestXf)) : Sparse (Option DestXf) :=
  let fo := old.feeds
  let fn := new.feeds
  let of_ (l : List (Nat × Nat)) (key : Nat) : Option Nat := (l.find? (fun e => e.2 = key)).map (·.1)
  ((fo ++ fn).map (·.2)).foldl (fun m key =>
    if of_ fo key = of_ fn key then m
    else Sparse.set (fun _ => none) m key (some ⟨of_ fo key, of_ fn key, t⟩)) xf

def Bank.taps (k : Bank) : List Nat := (k.used.filter (fun b => (k.bus b).dlyEn)).map (fun b => (k.bus b).dlytap)

/-- The banks swap at sample T (R141 to R149). -/
def State.swap (s : State) (t : Nat) : State :=
  let old := s.quilt.live
  let new := s.quilt.baste
  let carried := carriedSlots old new s.quilt.overlay
  let a0 : SwapAcc := ⟨new.slots, [], [], [], []⟩
  let a := (new.listed.map (·.1)).foldl (s.swapIn old new t) a0
  -- the overlay is carried with gains, ramps and factors, and zeroed in the outgoing bank
  let a := carried.foldl (fun (a : SwapAcc) e =>
    { slots := Sparse.set zeroD a.slots e.2 (old.slot e.1)
      gains := Sparse.set zeroW a.gains e.2 (BitVec.ofInt 32 (old.gain e.1))
      ramps := a.ramps ++ (s.seam.ramps.filter (fun r => r.1 = e.1)).map (fun r => (e.2, r.2))
      solo := a.solo
      duck := Sparse.set (fun _ => {}) a.duck e.2 (s.duckOf e.1) }) a
  let outs := s.swapOut old new t
  let oldSlots := carried.foldl (fun m e => Sparse.erase m e.1) old.slots
  let live : Bank := { new with slots := a.slots, gains := a.gains }
  let q := { s.quilt with live := live, baste := { old with slots := oldSlots, gains := [] },
                          overlay := carried.map (·.2), solo := a.solo, destXf := swapDests old new t s.quilt.destXf,
                          ue := s.quilt.ue.map (fun w => match w with
                            | .slot l k => .slot (!l) k | .desc l k => .desc (!l) k | .dmap l e => .dmap (!l) e | w => w) }
  let taps := (live.taps.filter (fun k => !old.taps.contains k))
  let s := { s with quilt := q, seam := { s.seam with ramps := a.ramps, outs := outs,
                                                      keep := s.bit R.SEAM_CTRL F.SEAM_CTRL_REBASTE },
                    alarm := { s.alarm with duck := a.duck } }
  let s := taps.foldl (fun (u : State) k => u.setTap k { u.tap k with since := t }) s
  let s := (s.swapBuses old live t).resolo t
  let s := s.reduck t
  let e := outs.foldl (fun m o => max m (o.ramp.t0 + o.ramp.len)) t
  let s := (s.wr64 R.SEAM_SEW_MSC_LO R.SEAM_SEW_MSC_HI t).wr64 R.SEAM_UNRAVEL_END_LO R.SEAM_UNRAVEL_END_HI e
  let s := ((s.count R.SEAM_SEW_CNT).flag R.SEAM_FLAGS F.SEAM_FLAGS_SEW_DONE).setBit R.SEAM_FLAGS
    F.SEAM_FLAGS_LIVE_CRC_RDY false
  let s := (s.setBstate 5).setBit R.SEAM_STATUS F.SEAM_STATUS_GROUP false
  -- what SEAM_LIVE_CRC will show is the bank as it stands at T (R153)
  let s := { s with seam := { s.seam with liveCrc := some (BitVec.ofNat 32 live.crc) } }
  (s.ccuChange 0).directOverride []

/-- SEAM_LIVE_CRC is ready (R153). -/
def execLiveCrcDone (s : State) : Res :=
  match s.seam.liveCrc with
  | some c => .next (({ s with seam := { s.seam with liveCrc := none } }.wr R.SEAM_LIVE_CRC c).flag R.SEAM_FLAGS
      F.SEAM_FLAGS_LIVE_CRC_RDY)
  | none => .next s

/-! ### Unravel and re-baste (R146, R147) -/

/-- The re-baste copy (R147): LIVE without its overlay records. -/
def State.rebasteCopy (s : State) (found : List QWord) : State :=
  let s := s.liveUes 9 found
  let q := s.quilt
  let slots := q.overlay.foldl (fun m k => Sparse.erase m k) q.live.slots
  { s with quilt := { q with baste := { q.live with slots := slots, gains := [] },
                             ue := q.ue.filter (fun w => match w with
                               | .slot l _ => l | .desc l _ => l | .dmap l _ => l | _ => true) } }

/-! ### Writes to BASTE (R116, R136, R137) -/

/-- A word with the bytes that an enable mask names replaced. -/
def mergeBytes (n old new enable : Nat) : Nat :=
  (List.range n).foldl (fun a i =>
    a + (if enable / 2 ^ i % 2 = 1 then new else old) / 256 ^ i % 256 * 256 ^ i) 0

/-- BASTE replaced; a checked pattern becomes an open one. -/
def State.setBaste (s : State) (k : Bank) : State :=
  let s := { s with quilt := { s.quilt with baste := k } }
  if s.bstate = 2 then s.setBstate 0 else s

/-- A word of BASTE written, without regard to its state. -/
def State.putBaste (s : State) (w : BasteWord) (v enable : Nat) : State :=
  let k := s.quilt.baste
  let clear (q : QWord) (t : State) : State := { t with quilt := { t.quilt with ue := t.quilt.ue.filter (· ≠ q) } }
  match w with
  | .slot tile slot =>
    let key := 65536 * tile.val + slot.val
    let x := mergeBytes 8 (k.slot key).toNat v enable
    clear (.slot false key) (s.setBaste { k with slots := Sparse.set zeroD k.slots key (BitVec.ofNat 64 x) })
  | .desc bus word =>
    let i := 4 * bus.val + word.val / 2
    let o := (Sparse.get zeroD k.desc i).toNat
    let hi := word.val % 2 = 1
    let part := mergeBytes 4 (if hi then o / 2 ^ 32 else o % 2 ^ 32) v enable
    let x := if hi then o % 2 ^ 32 + part * 2 ^ 32 else o / 2 ^ 32 * 2 ^ 32 + part
    clear (.desc false i) (s.setBaste { k with desc := Sparse.set zeroD k.desc i (BitVec.ofNat 64 x) })
  | .dmap entry =>
    let x := mergeBytes 4 (Sparse.get zeroW k.dmap entry).toNat v enable
    clear (.dmap false entry) (s.setBaste { k with dmap := Sparse.set zeroW k.dmap entry (BitVec.ofNat 32 x) })

/-- A write to BASTE over the bus. -/
def State.basteWrite (s : State) (w : BasteWord) (v enable : Nat) : State :=
  if s.basteOpen then s.putBaste w v enable
  else s.seamBusy.flag R.SEAM_FLAGS F.SEAM_FLAGS_BUSY_WR

def execBasteWrite (w : BasteWord) (v : DWord) (enable : BitVec 8) (s : State) : Res :=
  .next (s.basteWrite w v.toNat enable.toNat)

/-! ### Direct stitch writes (R116 to R119) -/

/-- The slot lies in a LIVE list. -/
def Bank.inList (k : Bank) (key : Nat) : Bool := k.used.any (fun b => (k.bus b).keys.contains key)

/-- The lowest reason of R117 against a write of a record; 0 when it applies. -/
def State.dwrReason (s : State) (key : Nat) (w : DWord) : Nat :=
  let cur := s.quilt.live.slot key
  if s.bstate = 4 then 1
  else if (stitchOf cur).lifesafe then 2
  else if pairOf cur ≠ pairOf w then 3
  else if !s.quilt.live.inList key then 4
  else 0

/-- A refused write (R117). -/
def State.dwrRefuse (s : State) (key reason : Nat) : State :=
  let tile := key / 65536
  let s := s.wrN R.QUILT_DWR_STAT (reason * 2 ^ 28 + tile * 2 ^ 16 + key % 65536)
  let s := ((s.count R.QUILT_DWR_REJ_CNT).flag R.QUILT_FLAGS F.QUILT_FLAGS_DWR_REJ).raise FS.QUILT_DWR_REJECT tile reason
  if (stitchOf (s.quilt.live.slot key)).lifesafe then
    (s.flag R.QUILT_FLAGS F.QUILT_FLAGS_LS_VIOL).raise FS.LIFESAFE_VIOL tile 0
  else s

/-- An applied write (R118): record and current gain, no ramp. -/
def State.dwrApply (s : State) (key : Nat) (w : DWord) : State :=
  let k := s.quilt.live
  let changed := k.slot key ≠ w
  let q := { s.quilt with live := { k with slots := Sparse.set zeroD k.slots key w },
                          ue := s.quilt.ue.filter (· ≠ .slot true key) }
  let s := { s with quilt := q, seam := { s.seam with ramps := s.seam.ramps.filter (fun e => e.1 ≠ key) } }
  let s := (s.setGain key (stitchOf w).target).wrN R.QUILT_DWR_STAT (key / 65536 * 2 ^ 16 + key % 65536)
  let s := (s.wr64 R.QUILT_DWR_MSC_LO R.QUILT_DWR_MSC_HI s.msc).count R.QUILT_DWR_CNT
  let s := (s.resolo s.msc).reduck s.msc
  if changed then s.ccuChange 0 else s

/-- A record write acts: refused or applied. Answers the reason. -/
def State.dwrAct (s : State) (key : Nat) (w : DWord) : State × Nat :=
  let r := s.dwrReason key w
  if r = 0 then (s.dwrApply key w, 0) else (s.dwrRefuse key r, r)

/-- The low word that a tile holds goes with the write that is applied (R116). -/
def State.dropHold (s : State) (key : Nat) : State :=
  { s with quilt := { s.quilt with hold := s.quilt.hold.filter (fun e => e.1 ≠ key / 65536) } }

/-- A record write arrives: in a paired engine it acts at the second block start (R119). -/
def State.dwrRecord (s : State) (key : Nat) (w : DWord) : State × Nat :=
  let r := s.dwrReason key w
  if r ≠ 0 then (s.dwrRefuse key r, r)
  else
    let s := s.dropHold key
    if s.paired then
      ({ s with quilt := { s.quilt with paired := s.quilt.paired ++ [⟨key, w, 8 * (s.msc / 8) + 16⟩] } }, 0)
    else (s.dwrApply key w, 0)

/-- A write of any width to a LIVE slot (R116). -/
def State.directWrite (s : State) (key v enable : Nat) : State :=
  let tile := key / 65536
  let cur := (s.quilt.live.slot key).toNat
  let low := match s.quilt.hold.find? (fun e => e.1 = tile) with
    | some e => e.2.toNat
    | none => cur % 2 ^ 32
  if enable % 256 = 0 then s
  else if enable / 16 % 16 = 0 then
    let w := mergeBytes 4 low v (enable % 16)
    { s with quilt := { s.quilt with hold := (tile, BitVec.ofNat 32 w) :: s.quilt.hold.filter (fun e => e.1 ≠ tile) } }
  else
    let w := mergeBytes 8 (low + cur / 2 ^ 32 * 2 ^ 32) v enable
    (s.dwrRecord key (BitVec.ofNat 64 w)).1

def execDirectStitchWrite (tile : Fin 16) (slot : Fin 65536) (v : DWord) (enable : BitVec 8) (s : State) : Res :=
  .next (s.directWrite (65536 * tile.val + slot.val) v.toNat enable.toNat)

/-- Direct writes of a paired engine whose block start has come (R119). -/
def State.pairedWrites (s : State) : State :=
  let due := s.quilt.paired.filter (fun w => w.due ≤ s.msc)
  let s := { s with quilt := { s.quilt with paired := s.quilt.paired.filter (fun w => s.msc < w.due) } }
  due.foldl (fun (t : State) w => (t.dwrAct w.key w.word).1) s

def execDirectWritePairedApply (s : State) : Res := .next s.pairedWrites

/-! ### Computed registers (R126, R159) -/

def State.rampCount (s : State) : Nat :=
  -- in progress at the latest computed sample
  let n := s.msc - 1
  let on (r : Ramp) : Bool := r.t0 ≤ n && n < r.t0 + r.len
  (s.seam.ramps.filter (fun e => on e.2)).length + (s.seam.outs.filter (fun o => on o.ramp)).length

end Sys2Proof.Machine
end

