-- ==== Sys2Proof/Machine/Image.lean ====
section
/-!
DEFINITION. What software stores as bytes: pattern images (R122 to R125), alarm patterns (R398, R400), messages (R412,
R413) and fallback images (R420).
-/

namespace Sys2Proof.Machine

/-! ### Bytes -/

def byteAt (bs : List Byte) (i : Nat) : Nat := (bs.getD i 0#8).toNat

/-- A little-endian number of n bytes. -/
def leAt (bs : List Byte) (n i : Nat) : Nat := ofLe ((List.range n).map (fun j => byteAt bs (i + j)))

def zeroAt (bs : List Byte) (n i : Nat) : Bool := (List.range n).all (fun j => byteAt bs (i + j) = 0)

def slice (bs : List Byte) (i n : Nat) : List Byte := (bs.drop i).take n

def crcOf (bs : List Byte) : Nat := crc32c (bs.map BitVec.toNat)

/-- n bytes of NVS from an offset. -/
def Mem.nvsBytes (m : Mem) (a n : Nat) : List Byte := (List.range n).map (fun i => Sparse.get zeroByte m.nvs (a + i))

/-- Bytes stored in NVS from an offset; a word replaced wholly is no longer poisoned (R544). -/
def Mem.nvsPut (m : Mem) (a : Nat) (bs : List Byte) : Mem :=
  { m with
    nvs := (bs.foldl (fun (r : Sparse Byte × Nat) b => (Sparse.set zeroByte r.1 r.2 b, r.2 + 1)) (m.nvs, a)).1
    poison := m.poison.filter (fun e =>
      !(decide (e.1 = 10) && decide (a ≤ 8 * e.2) && decide (8 * e.2 + 8 ≤ a + bs.length))) }

def noTwice (l : List Nat) : Bool := (firstTwice (l.mergeSort (· ≤ ·))).isNone

/-! ### Alarm patterns (R398, R400) -/

def patBase (p : Nat) : Nat := 0x600000 + 0x20000 * p

def plyOf (bs : List Byte) (i : Nat) : PlyEntry :=
  ⟨byteAt bs i, byteAt bs (i + 1), leAt bs 2 (i + 2), leAt bs 2 (i + 4), leAt bs 2 (i + 6)⟩

/-- A valid pattern from its bytes; none when R400 calls it invalid. Bytes after the overlay are not read. -/
def parsePat (p : Nat) (bs : List Byte) : Option AlarmPat :=
  let ovl := leAt bs 2 0x14
  let ply := byteAt bs 0x16
  let ramp := leAt bs 4 0x10
  let size := 64 + 16 * ply + 8 * ovl
  let players := (List.range ply).map (fun i => plyOf bs (64 + 16 * i))
  let overlay : List DWord := (List.range ovl).map (fun i => BitVec.ofNat 64 (leAt bs 8 (64 + 16 * ply + 8 * i)))
  if leAt bs 4 0 = 0x54504C41 && leAt bs 2 4 = 1 && byteAt bs 6 = p && byteAt bs 7 ≤ 15 && leAt bs 4 8 ≤ 1 &&
      zeroAt bs 2 0x0E && 8 ≤ ramp && ramp ≤ 96000 && ovl ≤ 16000 && ply ≤ 64 && byteAt bs 0x17 = 0xB0 &&
      zeroAt bs 36 0x18 && size ≤ bs.length && leAt bs 4 0x3C = crcOf (slice bs 0 0x3C ++ slice bs 0x40 (size - 0x40)) &&
      players.all (fun e => e.player ≤ 63 && e.slot ≤ 511 && (e.alt ≤ 511 || e.alt = 0xFFFF)) &&
      (List.range ply).all (fun i => zeroAt bs 8 (64 + 16 * i + 8)) && noTwice (players.map (·.player)) &&
      overlay.all (fun w => (stitchOf w).lifesafe && (stitchOf w).shape < 5) &&
      noTwice (overlay.map (fun w => (pairOf w).1 * 4096 + (pairOf w).2)) then
    some ⟨byteAt bs 7, leAt bs 4 8 = 1, byteAt bs 0x0C, byteAt bs 0x0D, ramp, players, overlay⟩
  else none

/-! ### Images (R122 to R124) -/

/-- An entry of the section table. -/
structure Section where
  type : Nat
  param : Nat
  off : Nat
  len : Nat
  deriving DecidableEq, Repr

def sectionAt (bs : List Byte) (i : Nat) : Section :=
  let a := 64 + 16 * i
  ⟨byteAt bs a, byteAt bs (a + 1), leAt bs 4 (a + 4), leAt bs 4 (a + 8)⟩

/-- First, count and record size of a run. -/
def runOf (bs : List Byte) (x : Section) : Nat × Nat × Nat :=
  if x.type = 1 then (leAt bs 4 x.off, leAt bs 4 (x.off + 4), 8)
  else (leAt bs 2 x.off, leAt bs 2 (x.off + 2), if x.type = 2 then 32 else 4)

/-- The payload of a section of types 1 to 4 passes R124. -/
def runOk (bs : List Byte) (x : Section) : Bool :=
  let r := runOf bs x
  if x.type = 4 then x.len = 0 && x.param < 16
  else if x.type = 1 then 8 ≤ x.len && x.len = 8 + 8 * r.2.1 && x.param < 16 && r.1 + r.2.1 ≤ 65536
  else if x.type = 2 || x.type = 3 then
    8 ≤ x.len && x.len = 8 + r.2.2 * r.2.1 && x.param = 0 && zeroAt bs 4 (x.off + 4) &&
      r.1 + r.2.1 ≤ (if x.type = 2 then 4096 else 8192)
  else false

/-- The header and the section table of an image of `delivered` bytes pass R124; `kinds` judges a section's payload. -/
def imageSections (bs : List Byte) (magic : Nat) (header : Bool) (kinds : Section → Bool) : Option (List Section) :=
  let n := leAt bs 4 0x0C
  let len := leAt bs 4 0x38
  let ok : Bool := leAt bs 4 0 = magic && leAt bs 2 4 = 1 && leAt bs 2 6 = 64 && leAt bs 4 8 ≤ 1 && 1 ≤ n && n ≤ 4096 &&
    leAt bs 2 0x10 = 0x8400 && byteAt bs 0x12 = 0xB0 && byteAt bs 0x13 = 0 && zeroAt bs 2 0x16 && zeroAt bs 28 0x1C &&
    leAt bs 4 0x3C = crcOf (slice bs 0 0x3C) && len ≤ bs.length && 64 + 16 * n ≤ len && header
  if !ok then none
  else
    let xs := (List.range n).map (sectionAt bs)
    let good := (List.range n).all (fun i =>
      let x := sectionAt bs i
      zeroAt bs 2 (64 + 16 * i + 2) && x.off % 8 = 0 && x.off + x.len ≤ len &&
        leAt bs 4 (64 + 16 * i + 12) = crcOf (slice bs x.off x.len) && kinds x)
    if good then some xs else none

/-- A pattern image for an engine (R122 to R124). -/
def parseImage (engine : Nat) (bs : List Byte) : Option (List Section) :=
  let e := leAt bs 2 0x14
  imageSections bs 0x49544C51 (e = engine || e = 0xFFFF) (runOk bs)

/-- One section of types 1 to 4 applied to a bank (R125). -/
def Bank.applySection (k : Bank) (bs : List Byte) (x : Section) : Bank :=
  let r := runOf bs x
  if x.type = 1 then
    { k with slots := (List.range r.2.1).foldl (fun m i =>
        Sparse.set zeroD m (65536 * x.param + r.1 + i) (BitVec.ofNat 64 (leAt bs 8 (x.off + 8 + 8 * i)))) k.slots }
  else if x.type = 2 then
    { k with desc := (List.range (4 * r.2.1)).foldl (fun m i =>
        Sparse.set zeroD m (4 * r.1 + i) (BitVec.ofNat 64 (leAt bs 8 (x.off + 8 + 8 * i)))) k.desc }
  else if x.type = 3 then
    { k with dmap := (List.range r.2.1).foldl (fun m i =>
        Sparse.set zeroW m (r.1 + i) (BitVec.ofNat 32 (leAt bs 4 (x.off + 8 + 4 * i)))) k.dmap }
  else if x.type = 4 then { k with slots := k.slots.filter (fun e => e.1 / 65536 ≠ x.param) }
  else k

/-- An accepted image applied whole to a bank (R125). -/
def Bank.applyImage (k : Bank) (bs : List Byte) (xs : List Section) : Bank :=
  let k := if leAt bs 4 8 = 1 then { k with slots := [], desc := [], dmap := [] } else k
  xs.foldl (fun m x => m.applySection bs x) k

/-! ### Fallback images (R420) -/

/-- Number of register words of a port group by KIND. -/
def portGroupWords (kind : Nat) : Nat := if kind = 0 then 1 else if kind = 1 then 25 else 67

/-- A section of a fallback image passes R420 and R124. -/
def fallbackSectionOk (bs : List Byte) (x : Section) : Bool :=
  if x.type = 0x10 then
    x.param < 3 && x.len = 4 + 4 * portGroupWords x.param && leAt bs 4 x.off < (if x.param = 2 then 16 else 32)
  else if x.type = 0x11 then x.param < 16 && x.len = 24
  else if x.type = 0x12 then x.len = 4 && leAt bs 4 x.off < 65536
  else if x.type = 0x13 then
    match parsePat 0 (slice bs x.off x.len) with
    | some p => x.len = 64 + 16 * p.players.length + 8 * p.overlay.length && p.overlay.length ≤ 64 &&
        p.players.all (fun e => e.player < 8)
    | none => false
  else if x.type = 1 then x.param = 0 && runOk bs x
  else if x.type = 2 || x.type = 3 then runOk bs x
  else false

/-- What a valid fallback image holds. -/
structure FallbackImage where
  bank : Bank
  section_ : Option AlarmPat
  parts : List Section
  deriving DecidableEq, Repr

/-- A fallback image from its bytes; none when R420 calls it invalid. Its own ALARM_SECTION is the pattern whose
reservation R88 counts. -/
def State.parseFallback (s : State) (bs : List Byte) : Option FallbackImage :=
  match imageSections (bs.take 65536) 0x4D494246 (leAt bs 2 0x14 = 0xFFFF && leAt bs 4 8 = 1) (fallbackSectionOk bs) with
  | none => none
  | some xs =>
    let k := Bank.applyImage {} bs xs
    let pats := (xs.filter (fun x => x.type = 0x13)).map (fun x => parsePat 0 (slice bs x.off x.len))
    let sec := match pats.getLast? with | some p => p | none => none
    let records := (xs.filter (fun x => x.type = 1)).foldl (fun n x => n + (runOf bs x).2.1) 0
    let empty := { s with quilt := { s.quilt with live := {}, overlay := [], ue := [] },
                          alarm := { s.alarm with pats := [(0, sec)] } }
    let types := k.used.all (fun b =>
      let d := k.bus b
      !d.dlyEn && (List.range d.dmapCount).all (fun i => [0, 3, 4, 5, 6].contains (k.destOf (d.dmapFirst + i)).1))
    let tile0 := k.desc.all (fun e => (k.bus (e.1 / 4)).tile = 0)
    if records ≤ 256 && types && tile0 && (empty.checkBank k 3).1 = 0 then some ⟨k, sec, xs⟩ else none

def fallbackBase : Nat := 0x5F0000

/-- The fallback image in NVS. -/
def State.fallbackImage (s : State) : Option FallbackImage := s.parseFallback (s.mem.nvsBytes fallbackBase 65536)

/-! ### Messages (R412, R413) -/

def dirBase : Nat := 0x800000
def dataBase : Nat := 0x804000
/-- Bytes of the data area. -/
def dataSize : Nat := 0x2000000 - 0x804000

/-- The directory entry of a slot, whatever it holds: VALID bit and fields. -/
def State.msgEntry (s : State) (slot : Nat) : Bool × Msg :=
  let e := s.mem.nvsBytes (dirBase + 32 * slot) 32
  (byteAt e 8 / 128 % 2 = 1, ⟨leAt e 4 0, leAt e 4 4, byteAt e 8 % 2 = 1, byteAt e 8 / 2 % 2 = 1⟩)

def Msg.bytes (m : Msg) : Nat := m.len * (if m.wide then 3 else 2)

/-- A valid slot (R413). -/
def State.msgOf (s : State) (slot : Nat) : Option Msg :=
  let x := s.msgEntry slot
  let m := x.2
  if x.1 && m.off % 64 = 0 && 1 ≤ m.len && m.len ≤ 12574720 && m.off + m.bytes ≤ dataSize then
    let e := s.mem.nvsBytes (dirBase + 32 * slot) 32
    if leAt e 4 0x1C = crcOf (e.take 0x1C) && leAt e 4 0x0C = crcOf (s.mem.nvsBytes (dataBase + m.off) m.bytes) then some m
    else none
  else none

/-- The slots that are valid, as ALARM_MSG_STAT.VALID shows them from the chip reset, or from a write, on (R413, R417: a
slot that fails its CRC later is BAD and stays valid). -/
def State.noteSlots (s : State) : State :=
  (List.range 512).foldl (fun (t : State) k =>
    t.setBit (R.ALARM_MSG_STAT k) F.ALARM_MSG_STAT_VALID (t.msgOf k).isSome) s

/-- The message of a valid slot. -/
def State.slotMsg (s : State) (slot : Nat) : Option Msg :=
  if s.bit (R.ALARM_MSG_STAT slot) F.ALARM_MSG_STAT_VALID then some (s.msgEntry slot).2 else none

/-- The lowest place for data of `n` bytes that overlaps no other valid slot's (R413): offsets tried are 0 and the ends of
the other slots' data, rounded up to 64. -/
def State.msgPlace (s : State) (slot n : Nat) : Option Nat :=
  let others := ((List.range 512).filter (· ≠ slot)).filterMap (fun k =>
    let x := s.msgEntry k
    if x.1 then some (x.2.off, x.2.off + x.2.bytes) else none)
  let tries := 0 :: others.map (fun e => (e.2 + 63) / 64 * 64)
  least (tries.filter (fun a => a + n ≤ dataSize && others.all (fun e => a + n ≤ e.1 || e.2 ≤ a)))

end Sys2Proof.Machine
end

