-- ==== Sys2Proof/Machine/Alarm.lean ====
section
/-!
DEFINITION. Alarm operation and messages (R395 to R425): inputs, the governing pattern, entry, changeover and exit,
message players, and the fallback image.
-/

namespace Sys2Proof.Machine

/-! ### Players (R414 to R417) -/

/-- A stopped player is IDLE eight samples after its stop. -/
def Player.over (x : Player) (n : Nat) : Bool :=
  x.st = 3 && (match x.voices with
    | v :: _ => (match v.stopAt with | some t => decide (t + 8 ≤ n) | none => true)
    | [] => true)

def State.player (s : State) (p : Nat) : Player :=
  let x := Sparse.get (fun _ => {}) s.alarm.players p
  if x.over s.msc then {} else x

def State.setPlayer (s : State) (p : Nat) (x : Player) : State :=
  { s with alarm := { s.alarm with players := Sparse.set (fun _ => {}) s.alarm.players p x } }

/-- The DRAM address of a message's data: the layout of the data area from the base of ALARM_MSG_DRAM. -/
def State.msgDram (s : State) (m : Msg) : Nat := s.fld R.ALARM_MSG_DRAM F.ALARM_MSG_DRAM_BASE * 4096 + m.off

/-- A player reads NVS (R414): the voice may not use DRAM, FALLBACK resources serve, or no good copy stands. -/
def State.readsNvs (s : State) (v : Voice) : Bool :=
  v.nvs || s.fbRes || !s.bit (R.ALARM_MSG_STAT v.slot) F.ALARM_MSG_STAT_DRAM_OK

/-- Sample j of a message in Q5.27 (R51). -/
def State.msgSample (s : State) (v : Voice) (j : Nat) : Int :=
  let n := if v.msg.wide then 3 else 2
  let b (i : Nat) : Nat :=
    if s.readsNvs v then (Sparse.get zeroByte s.mem.nvs (dataBase + v.msg.off + n * j + i)).toNat
    else (s.mem.dramByte (s.msgDram v.msg + n * j + i)).toNat
  sext (8 * n) (ofLe ((List.range n).map b)) * ((2 ^ (28 - 8 * n) : Nat) : Int)

/-- What one voice sounds at sample n (R415): a 48 kHz message lies at 16 + 2·j, with positions formed between. -/
def State.voiceAt (s : State) (n : Nat) (v : Voice) : Int :=
  if n < v.start then 0
  else
    let k := n - v.start
    let x (j : Nat) : Int := if j < v.msg.len then s.msgSample v j else 0
    if v.msg.hi then x k
    else if k < 16 || 2 * v.msg.len ≤ k - 16 then 0
    else if k % 2 = 0 then x ((k - 16) / 2)
    else
      -- inputs at even positions within 16 of this one
      let i := k - 16
      sat32 (Config.upsample ((List.range 16).map (fun q => if i + 2 * q < 15 then 0 else x ((i + 2 * q - 15) / 2))))

/-- The voices of a player, newest first, at sample n (R415, R416). -/
def State.voicesAt (s : State) (n : Nat) : List Voice → Int
  | [] => 0
  | v :: rest =>
    let b := s.voiceAt n v
    let y : Int := match v.xfAt with
      | some t => if t ≤ n && n < t + 8 then
          (s.voicesAt n rest * (7 - ((n - t : Nat) : Int)) + b * (((n - t : Nat) : Int) + 1) + 4) / 8
        else b
      | none => b
    match v.stopAt with
    | some t => fadeOut y (n - t)
    | none => y

/-- Voices that still sound at sample n: those above the first whose crossfade is over. -/
def keepVoices (n : Nat) : List Voice → List Voice
  | [] => []
  | v :: rest => match v.xfAt with
    | some t => if n < t + 8 then v :: keepVoices n rest else [v]
    | none => [v]

/-- The players' samples at n; `bad` are the players whose DRAM read was uncorrectable: they go on from NVS (R414). -/
def State.playersStep (s : State) (n : Nat) (bad : List (Nat × Nat)) : State :=
  let s := bad.foldl (fun (t : State) e =>
    let p := e.1
    let x := t.player p
    match x.voices with
    | v :: rest =>
      if x.st = 0 || t.readsNvs v then t
      else
        ((t.setPlayer p { x with voices := { v with nvs := true } :: rest.map (fun w => { w with nvs := true }) }).flag
          R.ALARM_FLAGS F.ALARM_FLAGS_MSG_DRAM).raise FS.ALARM_MSG_DRAM p 0
    | [] => t) s
  let settled := s.alarm.players.filterMap (fun e =>
    if e.2.over n then none else some (e.1, { e.2 with voices := keepVoices n e.2.voices }))
  let out := settled.foldl (fun (m : Sparse Int) e => Sparse.set zeroI m e.1 (s.voicesAt n e.2.voices)) []
  let s := { s with alarm := { s.alarm with players := settled, out := out } }
  bad.foldl (fun (t : State) e => t.dramUe 9 e.2 none) s

/-- A player starts a slot's message at sample n (R415, R416). -/
def State.playerStart (s : State) (p slot : Nat) (m : Msg) (owner reps gap n : Nat) : State :=
  let x := s.player p
  let v : Voice := ⟨slot, m, n, owner = 3, if x.st = 0 then none else some n, none⟩
  s.setPlayer p { st := 1, owner := owner, reps := reps, gap := gap, gapEnd := 0,
                  voices := if x.st = 0 then [v] else v :: x.voices }

/-- A player stops at sample n (R415). -/
def State.playerStop (s : State) (p n : Nat) : State :=
  let x := s.player p
  if x.st = 1 || x.st = 2 then
    match x.voices with
    | v :: rest => s.setPlayer p { x with st := 3, voices := { v with stopAt := some n } :: rest }
    | [] => s.setPlayer p {}
  else s

def State.msgMissing (s : State) (p : Nat) : State :=
  (s.flag R.ALARM_FLAGS F.ALARM_FLAGS_MSG_MISSING).raise FS.ALARM_MSG_MISSING p 0

/-- The slot that a pattern's player entry uses (R417). -/
def State.chooseSlot (s : State) (e : PlyEntry) : Option (Nat × Msg) :=
  let use (slot : Nat) : Option (Nat × Msg) := if slot ≤ 511 then (s.slotMsg slot).map (fun m => (slot, m)) else none
  let good (slot : Nat) : Option (Nat × Msg) :=
    if s.bit (R.ALARM_MSG_STAT slot) F.ALARM_MSG_STAT_BAD then none else use slot
  match good e.slot with
  | some r => some r
  | none => match (if e.alt ≤ 511 then good e.alt else none) with
    | some r => some r
    | none => use e.slot

/-- A pattern or the fallback image starts a player. -/
def State.entryStart (s : State) (owner n : Nat) (e : PlyEntry) : State :=
  match s.chooseSlot e with
  | some r => s.playerStart e.player r.1 r.2 owner e.reps e.gap n
  | none => s.msgMissing e.player

/-- A MESSAGE event (R417): answers whether the slot was valid. -/
def State.messageEvent (s : State) (p slot reps gap n : Nat) : State × Bool :=
  match s.slotMsg slot with
  | some m => (s.playerStart p slot m 1 reps gap n, true)
  | none => (s.msgMissing p, false)

/-- First sample after a voice's message: each sample of a 48 kHz message takes two. -/
def Voice.ends (v : Voice) : Nat := v.start + (if v.msg.hi then v.msg.len else 16 + 2 * v.msg.len)

/-- The crossfade of R416 at a voice's start is over. -/
def Voice.settled (v : Voice) (n : Nat) : Bool := match v.xfAt with | some t => decide (t + 8 ≤ n) | none => true

def execPlayerMessageEnd (p : Fin 64) (s : State) : Res :=
  let x := s.player p
  match x.voices with
  | v :: _ =>
    if x.st = 1 && v.ends ≤ s.msc && v.settled s.msc then
      if x.reps = 1 then .next (s.setPlayer p {})
      else .next (s.setPlayer p { x with st := 2, reps := x.reps - 1, gapEnd := v.ends + 96 * x.gap })
    else .next s
  | [] => .next s

/-- PLAYER_GAP_END: the message plays from its sample 0; the 16 samples before a 48 kHz message belong to a start. -/
def execPlayerGapEnd (p : Fin 64) (s : State) : Res :=
  let x := s.player p
  match x.voices with
  | v :: _ =>
    if x.st = 2 && x.gapEnd ≤ s.msc then
      .next (s.setPlayer p { x with st := 1, voices := [{ v with start := if v.msg.hi then s.msc else s.msc - 16, xfAt := none, stopAt := none }] })
    else .next s
  | [] => .next s

/-! ### Active patterns and triggers (R403, R404) -/

/-- Bit p: pattern p is active. -/
def State.activeSet (s : State) : Nat :=
  s.activeInputs.foldl (fun m a => m ||| 2 ^ s.fld (R.ALARM_IN_CFG a) F.ALARM_IN_CFG_PATTERN) s.alarm.commanded

def State.cached (s : State) (p : Nat) : Option AlarmPat := Sparse.get (fun _ => none) s.alarm.pats p

/-- The governing pattern of a set of active ones: the valid one of lowest PRIO and index; with none valid, the invalid one
of lowest index. On fallback resources the ALARM_SECTION, number 16 (R422). -/
def State.governOf (s : State) (active : Nat) : Option Nat :=
  if active = 0 then none
  else if s.fbRes then s.alarm.section_.map (fun _ => 16)
  else
    let ps := (List.range 16).filter (fun p => active / 2 ^ p % 2 = 1)
    let best := least (ps.filterMap (fun p => (s.cached p).map (fun x => 16 * x.prio + p)))
    match best with
    | some k => some (k % 16)
    | none => ps.head?

/-- A valid pattern by its number. -/
def State.patOf (s : State) (g : Option Nat) : Option AlarmPat :=
  match g with
  | some 16 => s.alarm.section_
  | some p => s.cached p
  | none => none

/-- The action sample of a trigger at Q. -/
def actionSample (q : Nat) : Nat := 8 * ((q + 71) / 8)

/-- A trigger at sample Q. -/
def State.alarmTrigger (s : State) (q trigger : Nat) (on : Bool) (undo : Option Released) : State :=
  if s.mode = .boot then s
  else
    { s with alarm := { s.alarm with acts := s.alarm.acts ++ [⟨actionSample q, s.activeSet, trigger, on, undo⟩] } }

/-! ### Inputs (R395, R396, R404) -/

/-- Input a qualifies at sample Q; in BOOT it is latched (R31). -/
def State.inputQualify (s : State) (a q : Nat) : State :=
  let s := s.setBitAt R.ALARM_IN_STATE a true
  let s := if s.bit (R.ALARM_IN_CFG a) F.ALARM_IN_CFG_LATCH || s.mode = .boot then s.setBitAt R.ALARM_IN_LATCH a true else s
  s.alarmTrigger q a true none

/-- Input a is released at sample Q; its suppression ends (R411). -/
def State.inputRelease (s : State) (a q : Nat) : State :=
  ((s.setBitAt R.ALARM_IN_STATE a false).setBitAt R.ALARM_IN_SUPP a false).alarmTrigger q a false none

def State.inputDb (s : State) (a : Nat) : Nat := s.fld (R.ALARM_IN_CFG a) F.ALARM_IN_CFG_DB

def execAlarmInputQualify (a : Fin 32) (edges : Nat) (s : State) : Res :=
  .next (if s.bit (R.ALARM_IN_CFG a) F.ALARM_IN_CFG_EN && s.inputDb a ≤ edges && !s.bitAt R.ALARM_IN_STATE a then
    s.inputQualify a s.msc else s)

def execAlarmInputRelease (a : Fin 32) (edges : Nat) (s : State) : Res :=
  .next (if s.bit (R.ALARM_IN_CFG a) F.ALARM_IN_CFG_EN && s.inputDb a ≤ edges && s.bitAt R.ALARM_IN_STATE a then
    s.inputRelease a s.msc else s)

/-- The partner's qualification or release of input a at its sample Q (R404): the earlier sample counts. -/
def execPartnerAlarmMessage (a : Fin 32) (qualify : Bool) (q : Nat) (s : State) : Res :=
  if !s.paired then .next s
  else if s.alarm.acts.any (fun e => e.trigger = a.val && e.on = qualify) then
    let acts := s.alarm.acts.map (fun e =>
      if e.trigger = a.val && e.on = qualify then { e with due := min e.due (actionSample q) } else e)
    .next { s with alarm := { s.alarm with acts := acts } }
  else if !s.bit (R.ALARM_IN_CFG a) F.ALARM_IN_CFG_EN || s.bitAt R.ALARM_IN_STATE a = qualify then .next s
  else .next (if qualify then s.inputQualify a q else s.inputRelease a q)

/-- An accepted or refused write of ALARM_IN_CFG (R397); reserved DB values keep the field (R13). -/
def State.alarmInCfg (s : State) (a : Nat) (v : Word) : State :=
  if s.mode = .boot || s.mode = .commission then
    let r := R.ALARM_IN_CFG a
    let db := F.ALARM_IN_CFG_DB.of v.toNat
    let w := v.toNat &&& 0xE00FFF0F
    let w := if 8 ≤ db && db ≤ 2400 then w else F.ALARM_IN_CFG_DB.put w (s.fld r F.ALARM_IN_CFG_DB)
    State.ccuConfigChange s (s.wrN r w) r
  else s.flag R.ALARM_FLAGS F.ALARM_FLAGS_CFG_IGN

def execAlarmInCfgWrite (a : Fin 32) (v : Word) (s : State) : Res := .next (s.alarmInCfg a v)

/-! ### Overlay (R405, R406, R409, R410) -/

/-- Overlay records removed from LIVE. -/
def State.dropOverlay (s : State) : State :=
  let q := s.quilt
  let gone (k : Nat) : Bool := q.overlay.contains k
  let live := { q.live with slots := q.live.slots.filter (fun e => !gone e.1),
                            gains := q.live.gains.filter (fun e => !gone e.1) }
  { s with quilt := { q with live := live, overlay := [] },
           seam := { s.seam with ramps := s.seam.ramps.filter (fun e => !gone e.1) },
           alarm := { s.alarm with duck := s.alarm.duck.filter (fun e => !gone e.1) } }

/-- One overlay record placed at sample n, its current gain from the outgoing overlay where the pair stood there. -/
def State.placeRecord (s : State) (old : List (Nat × Int)) (n : Nat) (w : DWord) : State :=
  let q := s.quilt
  let t := (q.live.bus (stitchOf w).bus).tile
  let key := 65536 * t + 65535 - (q.overlay.filter (fun k => k / 65536 = t)).length
  let c : Int := match old.find? (fun e => e.1 = (pairOf w).1 * 4096 + (pairOf w).2) with | some e => e.2 | none => 0
  let live := { q.live with slots := Sparse.set zeroD q.live.slots key w,
                            gains := Sparse.set zeroW q.live.gains key (BitVec.ofInt 32 c) }
  let r := newRamp c (stitchOf w).target (stitchOf w).shape (stitchOf w).len n
  let ramps := match r with | some r => s.seam.ramps ++ [(key, r)] | none => s.seam.ramps
  { s with quilt := { q with live := live, overlay := q.overlay ++ [key], ue := q.ue.filter (· ≠ .slot true key) },
           seam := { s.seam with ramps := ramps } }

/-- The overlay of a pattern takes the place of what lies there, in one sample. -/
def State.placeOverlay (s : State) (p : AlarmPat) (n : Nat) : State :=
  let old := s.quilt.overlay.map (fun k =>
    let w := s.quilt.live.slot k
    ((pairOf w).1 * 4096 + (pairOf w).2, s.quilt.live.gain k))
  let s := p.overlay.foldl (fun (t : State) w => t.placeRecord old n w) s.dropOverlay
  ({ s with alarm := { s.alarm with placed := some p, retiring := false } }).syncOvl

/-- Overlay stitches whose ramps have ended retire (R146, R410). -/
def State.retireOverlay (s : State) : State :=
  if !s.alarm.retiring then s
  else
    let done (k : Nat) : Bool := !s.seam.ramps.any (fun e => e.1 = k)
    let q := s.quilt
    let gone := q.overlay.filter done
    if gone.isEmpty && !q.overlay.isEmpty then s
    else
      let left := q.overlay.filter (fun k => !done k)
      let live := { q.live with slots := q.live.slots.filter (fun e => !gone.contains e.1),
                                gains := q.live.gains.filter (fun e => !gone.contains e.1) }
      ({ s with quilt := { q with live := live, overlay := left },
                alarm := { s.alarm with retiring := !left.isEmpty, placed := if left.isEmpty then none else s.alarm.placed,
                                        duck := s.alarm.duck.filter (fun e => !gone.contains e.1) } }).syncOvl

/-- A pattern begins to govern at sample n (R403, R405, R409): overlay, ducks and players; the players named in `keep`
play on. An invalid pattern places nothing and raises its source. -/
def State.beginGovern (s : State) (g : Option Nat) (n : Nat) (keep : List Nat) : State :=
  let s := { s with alarm := { s.alarm with govern := g } }
  match s.patOf g with
  | some p =>
    let s := s.placeOverlay p n
    let s := State.reduck { s with alarm := { s.alarm with ducking := some p, ramp := p.ramp } } n
    (p.players.filter (fun e => !keep.contains e.player)).foldl (State.entryStart · (if g = some 16 then 3 else 2) n) s
  | none =>
    let s := s.dropOverlay.syncOvl
    let s := State.reduck { s with alarm := { s.alarm with ducking := none, placed := none, retiring := false } } n
    match g with
    | some p => (s.flag R.ALARM_FLAGS F.ALARM_FLAGS_PAT_INVALID).raise FS.ALARM_PAT_INVALID p 0
    | none => s

/-- Players that both patterns name with the same SLOT. -/
def keptPlayers (old new : Option AlarmPat) : List Nat :=
  match old, new with
  | some a, some b => (b.players.filter (fun e => a.players.any (fun f => f.player = e.player && f.slot = e.slot))).map
      (·.player)
  | _, _ => []

/-- The changeover's replacement at E + 8 (R409). -/
def State.changeReplace (s : State) : State :=
  match s.alarm.change with
  | some (at_, g) =>
    if at_ ≤ s.msc then
      let keep := if s.alarm.ducking.isNone then [] else keptPlayers s.alarm.ducking (s.patOf g)
      { s with alarm := { s.alarm with change := none } }.beginGovern g s.msc keep
    else s
  | none => s

def execChangeoverReplace (s : State) : Res := .next s.changeReplace

/-- Entry to ALARM at sample n (R405); an entry while the overlay retires is a changeover (R410). -/
def State.alarmEnter (s : State) (active cause n : Nat) : State :=
  let s := s.setSys .alarm s.mode s.duty s.fbRes cause
  let s := ((s.wr64 R.ALARM_ENTRY_MSC_LO R.ALARM_ENTRY_MSC_HI n).count R.ALARM_ENTRY_CNT).flag R.ALARM_FLAGS
    F.ALARM_FLAGS_ENTRY
  let g := s.governOf active
  let s := { s with alarm := { s.alarm with acted := active } }
  let s := if s.alarm.retiring then { s with alarm := { s.alarm with change := some (n + 8, g), govern := g } }
    else s.beginGovern g n []
  s.raise FS.ALARM_ENTRY 0 0

/-- A changeover begins at sample n (R409): outgoing players that the incoming pattern does not name fade out. -/
def State.changeBegin (s : State) (g : Option Nat) (n : Nat) : State :=
  let named := match s.patOf g with | some p => p.players.map PlyEntry.player | none => []
  let out := match s.alarm.ducking with | some p => p.players.map PlyEntry.player | none => []
  let s := (out.filter (fun p => !named.contains p)).foldl (fun (t : State) p => t.playerStop p n) s
  { s with alarm := { s.alarm with change := some (n + 8, g), govern := g } }

/-- ALARM is left at sample n (R410). -/
def State.alarmExit (s : State) (n : Nat) : State :=
  let s := s.setSys s.retMode s.retMode s.duty s.fbRes Cause.alarmRelease
  let out := match s.alarm.ducking with | some p => p.players.map PlyEntry.player | none => []
  let s := (out.filter (fun p => (s.player p).owner ≠ 1)).foldl (fun (t : State) p => t.playerStop p n) s
  let q := s.quilt
  let ramps := q.overlay.filterMap (fun k =>
    let x := stitchOf (q.live.slot k)
    (newRamp (q.live.gain k) 0 x.shape x.len n).map (fun r => (k, r)))
  let s := { s with seam := { s.seam with ramps := s.seam.ramps.filter (fun (e : Nat × Ramp) => !q.overlay.contains e.1) ++ ramps } }
  State.reduck { s with alarm := { s.alarm with retiring := !q.overlay.isEmpty, ducking := none, govern := none,
                                                change := none } } n

/-- What a refused release had changed comes back (R32). -/
def State.unrelease (s : State) (r : Released) : State :=
  let s := s.wr R.ALARM_IN_LATCH (s.reg R.ALARM_IN_LATCH ||| r.latch)
  let s := s.wr R.ALARM_IN_SUPP (s.reg R.ALARM_IN_SUPP &&& r.supp)
  { s with alarm := { s.alarm with commanded := s.alarm.commanded ||| r.commanded } }

/-- The Muster path acts at an action sample (R404, R32). -/
def State.alarmAct (s : State) : State :=
  let s := s.changeReplace
  let due := s.alarm.acts.filter (fun e => e.due ≤ s.msc)
  match due.getLast? with
  | none => s
  | some last =>
    let s := { s with alarm := { s.alarm with acts := s.alarm.acts.filter (fun e => s.msc < e.due) } }
    -- an entry and a release of one sample leave the engine in ALARM: the release is refused
    let refused := due.filterMap (fun e => e.undo)
    let entry := due.any (fun e => e.on && e.trigger ≤ 32)
    let active := if entry && !refused.isEmpty then
        let u := refused.foldl State.unrelease s
        u.activeSet ||| last.active
      else last.active
    let s : State := if entry then refused.foldl State.unrelease s else s
    let cause := if due.any (fun e => e.on && e.trigger < 32) then Cause.alarmInput else Cause.alarmCommand
    let reload := due.any (fun e => e.trigger = 33)
    if s.mode = .boot then s
    else if active ≠ 0 && s.mode ≠ .alarm then s.alarmEnter active cause s.msc
    else if active ≠ 0 then
      let s : State := { s with alarm := { s.alarm with acted := active } }
      let g := s.governOf active
      if g ≠ s.alarm.govern || (reload && s.patOf g ≠ s.alarm.ducking) then s.changeBegin g s.msc else s
    else
      let s : State := { s with alarm := { s.alarm with acted := 0 } }
      if s.mode = .alarm then s.alarmExit s.msc else s

/-- ALARM_ACTION: the engine acts on triggers only at block starts. -/
def execAlarmAction (s : State) : Res := .next (if s.msc % 8 = 0 then s.alarmAct else s)

/-- BOOT is left with an alarm input latched: ALARM in the same sample, one transition (R31). `ret` is the mode that R27
selects; duty and resources are already those of that mode. -/
def State.bootAlarm (s : State) (ret : Mode) (duty fb : Bool) : State :=
  let active := s.activeSet
  let s := s.setSys .alarm ret duty fb Cause.alarmInput
  let s := ((s.wr64 R.ALARM_ENTRY_MSC_LO R.ALARM_ENTRY_MSC_HI s.msc).count R.ALARM_ENTRY_CNT).flag R.ALARM_FLAGS
    F.ALARM_FLAGS_ENTRY
  let s := { s with alarm := { s.alarm with acted := active } }
  (s.beginGovern (s.governOf active) s.msc []).raise FS.ALARM_ENTRY 0 0

/-! ### Alarm commands (R403, R411) -/

/-- An alarm command activates pattern p; answers the action sample. -/
def State.alarmActivate (s : State) (p : Nat) : State × Nat :=
  let s := { s with alarm := { s.alarm with commanded := s.alarm.commanded ||| 2 ^ p } }
  (s.alarmTrigger s.msc 32 true none, actionSample s.msc)

/-- A release that shares its action sample with an entry is refused (R32). -/
def State.releaseRefused (s : State) : Bool :=
  s.alarm.acts.any (fun e => e.on && e.trigger ≤ 32 && e.due = actionSample s.msc)

/-- A release command (R411). -/
def State.alarmRelease (s : State) : State × Nat :=
  let was : Released := ⟨s.reg R.ALARM_IN_LATCH, s.reg R.ALARM_IN_SUPP, s.alarm.commanded⟩
  let held := (List.range 32).filter (fun a =>
    s.bitAt R.ALARM_IN_STATE a && s.bit (R.ALARM_IN_CFG a) F.ALARM_IN_CFG_EN && !s.bitAt R.ALARM_IN_SUPP a)
  let s := { s.wrN R.ALARM_IN_LATCH 0 with alarm := { s.alarm with commanded := 0 } }
  let s := held.foldl (fun t a => t.setBitAt R.ALARM_IN_SUPP a true) s
  let s := if held.isEmpty then s else s.flag R.ALARM_FLAGS F.ALARM_FLAGS_SUPPRESS
  (s.alarmTrigger s.msc 32 false (some was), actionSample s.msc)

/-! ### Pattern loads and the cache (R400, R401, R418) -/

/-- CACHED and INVALID of one pattern. -/
def State.notePattern (s : State) (p : Nat) (valid : Bool) : State :=
  (s.setBitAt R.ALARM_PAT_STAT p valid).setBitAt R.ALARM_PAT_STAT (16 + p) (!valid)

/-- QUILT_TILE_OVL shows V_t against LIVE (R402). -/
def State.syncTileOvl (s : State) : State :=
  tiles.foldl (fun (t : State) k => t.wrN (R.QUILT_TILE_OVL k) (t.overlayReserve t.quilt.live k)) s

/-- Every pattern is copied to SRAM as BOOT ends (R400). -/
def State.cachePatterns (s : State) : State :=
  ((List.range 16).foldl (fun (t : State) p =>
    match parsePat p (t.mem.nvsBytes (patBase p) 0x20000) with
    | some x => State.notePattern { t with alarm := { t.alarm with pats := Sparse.set (fun _ => none) t.alarm.pats p (some x) } } p true
    | none => ((t.notePattern p false).flag R.ALARM_FLAGS F.ALARM_FLAGS_PAT_INVALID).raise FS.ALARM_PAT_INVALID p 0)
    s).syncTileOvl

/-- V_t after the load would break a limit of R401. -/
def State.loadTooLarge (s : State) (p : Nat) (x : AlarmPat) : Bool :=
  let t := { s with alarm := { s.alarm with pats := Sparse.set (fun _ => none) s.alarm.pats p (some x) } }
  let k := s.quilt.live
  tiles.any (fun i => 65536 < k.load i + t.overlayReserve k i || 1310720 < t.tileWork k k i)

/-- An accepted load: NVS at once, the cache at the next block start. -/
def State.patternLoad (s : State) (p : Nat) (bs : List Byte) (x : AlarmPat) : State :=
  let s := { s with mem := s.mem.nvsPut (patBase p) bs }
  { s with alarm := { s.alarm with loads := s.alarm.loads ++ [(8 * (s.msc / 8) + 8, p, x)] } }

/-- The cache at a block start (R401); a load that changes the governing pattern's cache is a trigger (R404). -/
def State.loadsBlockStart (s : State) : State :=
  let due := s.alarm.loads.filter (fun e => e.1 ≤ s.msc)
  if due.isEmpty then s
  else
    let s := { s with alarm := { s.alarm with loads := s.alarm.loads.filter (fun e => s.msc < e.1) } }
    let s := due.foldl (fun (t : State) e =>
      let changes := s.alarm.govern = some e.2.1 && t.cached e.2.1 ≠ some e.2.2
      let t := { t with alarm := { t.alarm with pats := Sparse.set (fun _ => none) t.alarm.pats e.2.1 (some e.2.2) } }
      let t := t.notePattern e.2.1 true
      if changes then t.alarmTrigger t.msc 33 true none else t) s
    s.syncTileOvl

/-! ### Message copies and writes (R413, R414, R418) -/

/-- The write of ALARM_MSG_DRAM starts the copies. -/
def State.msgDramStart (s : State) (v : Word) : State :=
  let s := s.wrN R.ALARM_MSG_DRAM (v.toNat % 2 ^ 22)
  { s with alarm := { s.alarm with copying := true, toCopy := (List.range 512).filter (fun k => (s.msgOf k).isSome) } }

/-- A message's copy completes: DRAM_OK when the copy passes its CRC. -/
def State.msgCopy (s : State) (slot : Nat) : State :=
  if !s.alarm.toCopy.contains slot then s
  else
    let s := { s with alarm := { s.alarm with toCopy := s.alarm.toCopy.filter (· ≠ slot) } }
    match s.msgOf slot with
    | none => s
    | some m =>
      let a := s.msgDram m
      if s.dramUsable < a + m.bytes then s
      else
        let bs := s.mem.nvsBytes (dataBase + m.off) m.bytes
        let mem := (bs.foldl (fun (r : Mem × Nat) b => (r.1.dramPut r.2 b, r.2 + 1)) (s.mem, a)).1
        ({ s with mem := mem }).setBit (R.ALARM_MSG_STAT slot) F.ALARM_MSG_STAT_DRAM_OK true

def execMsgCopyDone (slot : Fin 512) (s : State) : Res := .next (s.msgCopy slot)

/-- A player uses a slot (R413). -/
def State.slotUsed (s : State) (slot : Nat) : Bool :=
  s.alarm.players.any (fun e => e.2.st ≠ 0 && !e.2.over s.msc && (keepVoices s.msc e.2.voices).any (fun v => v.slot = slot))

/-- A message stored at its place (R413): data, then the entry. -/
def State.messageWrite (s : State) (slot off fmt len : Nat) (data : List Byte) : State :=
  let nat (n v : Nat) : List Byte := (leBytes n v).map (BitVec.ofNat 8)
  let head := nat 4 off ++ nat 4 len ++ nat 1 (128 + fmt % 4) ++ nat 3 0 ++ nat 4 (crcOf data) ++ nat 12 0
  let mem := (s.mem.nvsPut (dataBase + off) data).nvsPut (dirBase + 32 * slot) (head ++ nat 4 (crcOf head))
  let s := { s with mem := mem }
  let s := s.wrN (R.ALARM_MSG_STAT slot) 1
  if s.alarm.copying then
    { s with alarm := { s.alarm with toCopy := s.alarm.toCopy.filter (· ≠ slot) ++ [slot] } }
  else s

/-- A message that fails its CRC in a scrub pass (R418): `dram` says whether its DRAM copy passes. -/
def State.messageFailed (s : State) (slot : Nat) : State :=
  let x := (s.msgEntry slot).2
  let e := s.mem.nvsBytes (dirBase + 32 * slot) 32
  let bs := (List.range x.bytes).map (fun i => s.mem.dramByte (s.msgDram x + i))
  if s.bit (R.ALARM_MSG_STAT slot) F.ALARM_MSG_STAT_DRAM_OK && leAt e 4 0x1C = crcOf (e.take 0x1C) &&
      leAt e 4 0x0C = crcOf bs then
    (({ s with mem := s.mem.nvsPut (dataBase + x.off) bs }).count R.ALARM_MSG_REPAIR_CNT).flag R.ALARM_FLAGS
      F.ALARM_FLAGS_REPAIR
  else if s.bit (R.ALARM_MSG_STAT slot) F.ALARM_MSG_STAT_BAD then s
  else
    (((s.setBit (R.ALARM_MSG_STAT slot) F.ALARM_MSG_STAT_BAD true).count R.ALARM_MSG_BAD_CNT).flag R.ALARM_FLAGS
      F.ALARM_FLAGS_MSG_CRC).raise FS.ALARM_MSG_CRC slot 0

/-- What an NVS scrub pass checks beside its words (R418). -/
def State.nvsPass (s : State) : State :=
  let s := (List.range 512).foldl (fun (t : State) k =>
    if t.bit (R.ALARM_MSG_STAT k) F.ALARM_MSG_STAT_VALID && (t.msgOf k).isNone then t.messageFailed k
    else t) s
  let s := (List.range 16).foldl (fun (t : State) p =>
    if t.bitAt R.ALARM_PAT_STAT p && (parsePat p (t.mem.nvsBytes (patBase p) 0x20000)).isNone then
      t.setBitAt R.ALARM_PAT_STAT (16 + p) true
    else t) s
  { s with boot := { s.boot with fbValid := s.fallbackImage.isSome } }

/-! ### The fallback image (R421, R422) -/

/-- The registers of a port group in offset order. -/
def portGroup (q : LocalPort) : List Nat := (q.mainGroup ++ q.csGroup).mergeSort (· ≤ ·)

/-- Words of a payload given to the shadows of registers. -/
def State.shadowWords (s : State) (bs : List Byte) (off : Nat) (g : List Nat) : State :=
  (g.foldl (fun (r : State × Nat) a => (r.1.setShadow a (BitVec.ofNat 32 (leAt bs 4 r.2)), r.2 + 4)) (s, off)).1

/-- A PORT_GROUP (R420, R421): every check but STATE, then in force at once; EN = 1 sets the port to RUNNING. -/
def State.fallbackPort (s : State) (bs : List Byte) (x : Section) : State :=
  let q := portOfKey (64 * x.param + leAt bs 4 x.off)
  let p := s.lport q
  let s := (s.setPort q { p with st := 1, pend := [], csPend := [] }).shadowWords bs (x.off + 4) (portGroup q)
  if (s.portCheck q).1 ≠ 0 then
    ((((s.reloadShadows (portGroup q) []).flag R.PORT_FLAGS F.PORT_FLAGS_APPLY_ERR).raise FS.PORT_APPLY_ERR q.unit 0).putPort
      q { p with pend := [], csPend := [] })
  else
    let s := s.takeConfig (portGroup q)
    if (s.portCfg q).en then
      let s := match q with
        | .tdm k => if (s.portCfg q).master then s.setTdmClk k true else s
        | _ => s
      (s.putPort q { ({} : LPort) with st := 2, rx := p.rx, tx := p.tx }).portStart q s.msc
    else s.putPort q {}

/-- A LINE_GROUP: the FIELD check, then in force at once. -/
def State.fallbackLine (s : State) (bs : List Byte) (x : Section) : State :=
  let g := lineGroup x.param
  let c := s.lineCh x.param
  let s := (s.setLineCh x.param { c with pend := [] }).shadowWords bs x.off g
  if s.lineCheck x.param = 1 then
    ((s.reloadShadows g []).flag R.LINE_FLAGS F.LINE_FLAGS_APPLY_ERR).raise FS.LINE_APPLY_ERR x.param 0
  else s.takeConfig g

/-- LIVE is zeroed and takes the image's content; each stitch ramps up from zero. -/
def State.fallbackLive (s : State) (k : Bank) (n : Nat) : State :=
  let ramps := k.listed.filterMap (fun e =>
    let x := stitchOf e.2
    (newRamp 0 x.target x.shape x.len n).map (fun r => (e.1, r)))
  let q := { s.quilt with live := { k with gains := [] }, overlay := [], solo := [], bus := [], destXf := [], hold := [],
                          paired := [], ue := s.quilt.ue.filter (fun w => match w with
                            | .slot l _ => !l | .desc l _ => !l | .dmap l _ => !l | .gain _ => false | .frame _ _ => true) }
  let s := { s with quilt := q, seam := { s.seam with ramps := ramps, outs := [] },
                    alarm := { s.alarm with duck := [], placed := none, retiring := false, ducking := none, change := none } }
  (s.syncOvl.swapBuses {} k n).resolo n

/-- The fallback image is applied, or LIVE left empty (R421, R422, R534). -/
def State.fallbackApply (s : State) : State :=
  let n := s.msc
  let bs := s.mem.nvsBytes fallbackBase 65536
  let img := s.fallbackImage
  let s : State := { s with alarm := { s.alarm with fade := none } }
  let s : State := match img with
    | some i =>
      let s := s.fallbackLive i.bank n
      let s := { s with alarm := { s.alarm with section_ := i.section_ } }
      let s := (i.parts.filter (fun (x : Section) => x.type = 0x10)).foldl (fun (t : State) x => t.fallbackPort bs x) s
      let s := (i.parts.filter (fun (x : Section) => x.type = 0x11)).foldl (fun (t : State) x => t.fallbackLine bs x) s
      (i.parts.filter (fun (x : Section) => x.type = 0x12)).foldl (fun (t : State) x => t.lineEnableMask (leAt bs 4 x.off)) s
    | none =>
      let s := s.fallbackLive {} n
      let s := { s with alarm := { s.alarm with section_ := none } }
      let s := s.port.ports.foldl (fun (t : State) (e : Nat × LPort) => if e.2.st = 0 then t
        else t.putPort (portOfKey e.1) { e.2 with st := 1 }) s
      s.line.chs.foldl (fun (t : State) (e : Nat × LineCh) => if e.2.st = 0 then t
        else (t.setLineCh e.1 { e.2 with st := 0, stopAt := none, cmds := [] }).lineSync e.1) s
  let s := (s.ccuFallback.syncTileOvl).directOverride []
  if s.mode = .alarm then s.beginGovern (s.governOf 1) n [] else s

/-- FALLBACK_APPLY: at the first block start after the fade. -/
def execFallbackApply (s : State) : Res :=
  match s.alarm.fade with
  | some f => .next (if s.fbRes && f + 9 ≤ s.edge && s.msc % 8 = 0 then s.fallbackApply else s)
  | none => .next s

/-! ### Computed registers (R425) -/

/-- ALARM_STATUS. -/
def State.alarmStatus (s : State) : Nat :=
  let a := s.alarm
  let gov := s.mode = .alarm && a.govern.isSome
  let p := match a.govern with | some k => if k < 16 && s.mode = .alarm then k else 0 | none => 0
  let b (v : Bool) (k : Nat) : Nat := if v then 2 ^ k else 0
  s.activeSet % 65536 * 65536 + p * 256 + b gov 7 + b a.change.isSome 6 + b a.retiring 5 +
    b (s.mode = .alarm && a.govern = some 16) 4 + b (a.copying && a.toCopy.isEmpty) 3 + b s.boot.fbValid 2

/-- ALARM_PLY_STAT. -/
def State.playerStatus (s : State) (p : Nat) : Nat :=
  let x := s.player p
  match x.voices with
  | v :: _ =>
    v.slot * 65536 + (if x.reps = 0 then 255 else min 255 x.reps) * 256 + (if s.readsNvs v then 64 else 0) + x.owner * 16 +
      x.st
  | [] => x.st

/-- ALARM_PLY_POS. -/
def State.playerPos (s : State) (p : Nat) : Nat :=
  match (s.player p).voices with
  | v :: _ =>
    let k := s.msc - v.start
    min (v.msg.len - 1) (if v.msg.hi then k else (k - 16) / 2) % 2 ^ 24
  | [] => 0

end Sys2Proof.Machine
end

