-- ==== Sys2Proof/Machine/Ccu.lean ====
section
/-!
DEFINITION. The commands of the Configuration Check Unit (R530 to R532): commits, the end of a pass over a region, and
the deadline.
-/

namespace Sys2Proof.Machine

/-- One region committed with MODE = EXPLICIT (R530). -/
def State.commitExplicit (s : State) (r : Nat) : State :=
  let s := ((s.setCcuState r 1).setCcuAdopt r false).setCcuDeadline r noDeadline
  let s := s.wr (R.CCU_ACT_REF r) (s.reg (R.CCU_REF r))
  { s with ccu := { s.ccu with adopting := s.ccu.adopting.set r false } }

/-- One region committed with MODE = MEASURED (R530): only a pass that starts later adopts. -/
def State.commitMeasured (s : State) (r : Nat) : State :=
  let s := (s.setCcuAdopt r true).setCcuDeadline r noDeadline
  { s with ccu := { s.ccu with adopting := s.ccu.adopting.set r false } }

/-- A commit of the regions of a mask. -/
def State.commitRegions (s : State) (f : State → Nat → State) (m : Nat) : State :=
  [0, 1, 2].foldl (fun t r => if m / 2 ^ r % 2 = 1 then f t r else t) s

/-- CCU_COMMIT with MODE = EXPLICIT for the regions of a mask; mask 0 is reserved and has no effect (R539). -/
def execCcuCommitExplicit (regions : BitVec 3) (s : State) : Res :=
  .next (s.commitRegions State.commitExplicit regions.toNat)

def execCcuCommitMeasured (regions : BitVec 3) (s : State) : Res :=
  .next (s.commitRegions State.commitMeasured regions.toNat)

/-- The pass over the region after `r` begins as that over `r` ends (R528). -/
def State.beginPass (s : State) (r : Nat) : State :=
  let n := (r + 1) % 3
  let c := s.ccu
  let c := { c with changed := c.changed.set n false, whole := c.whole.set n (s.ccuState n = 1),
                    adopting := c.adopting.set n (s.ccuAdopt n) }
  { s with ccu := if n = 0 then { c with ovlSeen := s.bit R.CCU_STATUS F.CCU_STATUS_OVL } else c }

/-- The pass over region `r` ends (R528, R530, R531). `read` is the CRC of the words as the CCU read them where it is
not that of the region's bytes as they stand: after an upset, or a change during the pass. `found` lists the LIVE words
that the CCU read as uncorrectable (R120). -/
def execCcuPassEnd (region : Fin 3) (read : Option Word) (found : List QWord) (s : State) : Res :=
  let r := region.val
  let s := if r = 0 then s.liveUes 6 found else s
  let crc := match read with | some w => w | none => BitVec.ofNat 32 (s.regionCrc r)
  let s := s.wr (R.CCU_LAST r) crc
  let s :=
    if s.ccuAdopt r && s.ccu.adopting.getD r false && !s.ccu.changed.getD r true then
      ((((s.setCcuState r 1).setCcuAdopt r false).setCcuDeadline r noDeadline).wr (R.CCU_ACT_REF r) crc).flag R.CCU_FLAGS F.CCU_FLAGS_ADOPTED
    else if s.ccuState r = 1 && s.ccu.whole.getD r false && (r ≠ 0 || !s.ccu.ovlSeen) && crc ≠ s.reg (R.CCU_ACT_REF r) then
      ((s.flag R.CCU_FLAGS F.CCU_FLAGS_MISMATCH).count R.CCU_MISM_CNT).raise FS.CCU_MISMATCH r 0
    else s
  let s := if r = 2 then s.count R.CCU_PASS_CNT else s
  .next (s.beginPass r)

/-- A region in GRACE with ADOPT clear reaches its deadline (R530): reported once. -/
def execCcuDeadline (region : Fin 3) (s : State) : Res :=
  let r := region.val
  if s.ccuState r = 2 && !s.ccuAdopt r && s.ccuDeadline r ≤ s.msc && !s.ccu.timedOut.getD r true then
    let s := { s with ccu := { s.ccu with timedOut := s.ccu.timedOut.set r true } }
    .next ((s.flag R.CCU_FLAGS F.CCU_FLAGS_TIMEOUT).raise FS.CCU_COMMIT_TIMEOUT r 0)
  else .next s

end Sys2Proof.Machine
end

