-- ==== Sys2Proof/Machine/Sha.lean ====
section
/-!
DEFINITION. SHA-256 and HMAC-SHA-256 (RFC 2104), which R484 names for the tag of a Dweul datagram.
-/

namespace Sys2Proof.Machine

/-- Round constants of SHA-256. -/
def shaK : List Word := [
  0x428A2F98, 0x71374491, 0xB5C0FBCF, 0xE9B5DBA5, 0x3956C25B, 0x59F111F1, 0x923F82A4, 0xAB1C5ED5,
  0xD807AA98, 0x12835B01, 0x243185BE, 0x550C7DC3, 0x72BE5D74, 0x80DEB1FE, 0x9BDC06A7, 0xC19BF174,
  0xE49B69C1, 0xEFBE4786, 0x0FC19DC6, 0x240CA1CC, 0x2DE92C6F, 0x4A7484AA, 0x5CB0A9DC, 0x76F988DA,
  0x983E5152, 0xA831C66D, 0xB00327C8, 0xBF597FC7, 0xC6E00BF3, 0xD5A79147, 0x06CA6351, 0x14292967,
  0x27B70A85, 0x2E1B2138, 0x4D2C6DFC, 0x53380D13, 0x650A7354, 0x766A0ABB, 0x81C2C92E, 0x92722C85,
  0xA2BFE8A1, 0xA81A664B, 0xC24B8B70, 0xC76C51A3, 0xD192E819, 0xD6990624, 0xF40E3585, 0x106AA070,
  0x19A4C116, 0x1E376C08, 0x2748774C, 0x34B0BCB5, 0x391C0CB3, 0x4ED8AA4A, 0x5B9CCA4F, 0x682E6FF3,
  0x748F82EE, 0x78A5636F, 0x84C87814, 0x8CC70208, 0x90BEFFFA, 0xA4506CEB, 0xBEF9A3F7, 0xC67178F2]

/-- Initial hash value of SHA-256. -/
def shaH : List Word := [
  0x6A09E667, 0xBB67AE85, 0x3C6EF372, 0xA54FF53A, 0x510E527F, 0x9B05688C, 0x1F83D9AB, 0x5BE0CD19]

/-- A message padded to whole blocks of 64 bytes. -/
def shaPad (m : List Byte) : List Byte :=
  let n := m.length
  let zeros := (119 - n % 64) % 64
  m ++ [0x80#8] ++ List.replicate zeros 0#8 ++
    (List.range 8).map (fun i => BitVec.ofNat 8 (8 * n / 2 ^ (8 * (7 - i))))

/-- Big-endian word at a byte offset. -/
def beWord (m : List Byte) (i : Nat) : Word :=
  BitVec.ofNat 32 ((List.range 4).foldl (fun v j => v * 256 + (m.getD (i + j) 0#8).toNat) 0)

def shaSmall (x : Word) (a b c : Nat) : Word := x.rotateRight a ^^^ x.rotateRight b ^^^ (x >>> c)
def shaBig (x : Word) (a b c : Nat) : Word := x.rotateRight a ^^^ x.rotateRight b ^^^ x.rotateRight c

/-- The 64 words of a block's schedule. -/
def shaSchedule (block : List Byte) : List Word :=
  (List.range 48).foldl (fun (w : List Word) _ =>
    let n := w.length
    let g (k : Nat) : Word := w.getD (n - k) 0#32
    w ++ [shaSmall (g 2) 17 19 10 + g 7 + shaSmall (g 15) 7 18 3 + g 16]) ((List.range 16).map (fun i => beWord block (4 * i)))

/-- One block compressed into the hash. -/
def shaBlock (h : List Word) (block : List Byte) : List Word :=
  let w := shaSchedule block
  let r := (List.range 64).foldl (fun (v : List Word) i =>
    let x (k : Nat) : Word := v.getD k 0#32
    let t1 := x 7 + shaBig (x 4) 6 11 25 + ((x 4 &&& x 5) ^^^ (~~~(x 4) &&& x 6)) + shaK.getD i 0#32 + w.getD i 0#32
    let t2 := shaBig (x 0) 2 13 22 + ((x 0 &&& x 1) ^^^ (x 0 &&& x 2) ^^^ (x 1 &&& x 2))
    [t1 + t2, x 0, x 1, x 2, x 3 + t1, x 4, x 5, x 6]) h
  (List.range 8).map (fun k => h.getD k 0#32 + r.getD k 0#32)

/-- SHA-256 of a list of bytes. -/
def sha256 (m : List Byte) : List Byte :=
  let p := shaPad m
  let h := (List.range (p.length / 64)).foldl (fun v i => shaBlock v ((p.drop (64 * i)).take 64)) shaH
  h.flatMap (fun x => (List.range 4).map (fun i => BitVec.ofNat 8 (x.toNat / 2 ^ (8 * (3 - i)))))

/-- HMAC-SHA-256 with a key of at most 64 bytes. -/
def hmac (key m : List Byte) : List Byte :=
  let k := key ++ List.replicate (64 - key.length) 0#8
  sha256 (k.map (· ^^^ 0x5C#8) ++ sha256 (k.map (· ^^^ 0x36#8) ++ m))

end Sys2Proof.Machine
end

