-- ==== Sys2Proof/Machine/Fold.lean ====
section
/-!
DEFINITION. Folds (R476 to R498): rings and datagrams, the intake of commands, replies and notices.
-/

namespace Sys2Proof.Machine

def State.fold (s : State) (f : Nat) : Fold := Sparse.get (fun _ => {}) s.shep.folds f

def State.setFold (s : State) (f : Nat) (x : Fold) : State :=
  { s with shep := { s.shep with folds := Sparse.set (fun _ => {}) s.shep.folds f x } }

/-! ### Fold settings -/

def State.foldEn (s : State) (f : Nat) : Bool := s.bit (R.FOLD_CFG f) F.FOLD_CFG_EN
def State.foldUdp (s : State) (f : Nat) : Bool := s.bit (R.FOLD_CFG f) F.FOLD_CFG_TRANSPORT
def State.foldClass (s : State) (f : Nat) : Nat := s.fld (R.FOLD_CFG f) F.FOLD_CFG_CLASS
def State.load (s : State) : Nat := s.fld R.FOLD_STATUS F.FOLD_STATUS_LOAD

/-- Bytes after the header of a reply or notice: the status word and its results, padded (R488). -/
def Reply.length (r : Reply) : Nat := 4 + (r.results.length + 3) / 4 * 4

/-- Ring slots of a packet with LENGTH n (R480). -/
def slotsOf (n : Nat) : Nat := (16 + n + 63) / 64

/-- OUTSTANDING, RPL_FULL, SEG_OPEN and LS_LEVEL as the registers show them. -/
def State.syncFold (s : State) (f : Nat) : State :=
  let x := s.fold f
  let a := R.FOLD_STAT f
  let s := s.setFld a F.FOLD_STAT_OUTSTANDING (min 255 (x.taken.length + x.waiting.length))
  let s := (s.setBit a F.FOLD_STAT_RPL_FULL (!x.waiting.isEmpty)).setBit a F.FOLD_STAT_SEG_OPEN x.seg.isSome
  s.setFld R.FOLD_STATUS F.FOLD_STATUS_LS_LEVEL (min 127 s.shep.lsq.length)

/-! ### The reply ring (R480, R482) -/

/-- Slots that a packet of n slots takes at the tail, with the NOP packet that fills the ring's end. -/
def ringTakes (size tail n : Nat) : Nat := if size < tail + n then (size - tail) + n else n

/-- The ring has room for n slots: the engine leaves at least one slot between its tail and the host's head. -/
def State.ringRoom (s : State) (f n : Nat) : Bool :=
  let size := 2 ^ s.fld (R.FOLD_RING_CFG f) F.FOLD_RING_CFG_RSIZE
  let tail := s.fld (R.FOLD_RTAIL f) F.FOLD_RTAIL_SLOT
  let used := (tail + size - s.fld (R.FOLD_RHEAD f) F.FOLD_RHEAD_SLOT % size) % size
  decide (used + ringTakes size tail n + 1 ≤ size)

/-- A packet written to the ring: the tail moves, and MSI-X vector f is sent when IRQ_EN is set. -/
def State.ringWrite (s : State) (f : Nat) (r : Reply) : State :=
  let size := 2 ^ s.fld (R.FOLD_RING_CFG f) F.FOLD_RING_CFG_RSIZE
  let tail := s.fld (R.FOLD_RTAIL f) F.FOLD_RTAIL_SLOT
  let n := slotsOf r.length
  let fill := ringTakes size tail n - n
  let nop : List Reply := if fill = 0 then [] else
    [{ fold := f, opcode := 0x0100, seq := 0, flags := 0x100, group := 0, status := 0, detail := 0,
       results := List.replicate (64 * fill - 20) 0#8 }]
  let s := s.setFld (R.FOLD_RTAIL f) F.FOLD_RTAIL_SLOT ((tail + fill + n) % size)
  let irq := if s.bit (R.FOLD_CFG f) F.FOLD_CFG_IRQ_EN then [f] else []
  { s with out := { s.out with replies := s.out.replies ++ nop ++ [r], msix := s.out.msix ++ irq } }

/-- Packets written while there is room; answers those left. -/
def State.ringDrain (s : State) (f : Nat) : List Reply → State × List Reply
  | [] => (s, [])
  | r :: l => if s.ringRoom f (slotsOf r.length) then (s.ringWrite f r).ringDrain f l else (s, r :: l)

/-- EN was cleared and nothing is outstanding: ring positions and notices go (R479). -/
def State.closeFold (s : State) (f : Nat) : State :=
  let x := s.fold f
  if x.closing && x.taken.isEmpty && x.waiting.isEmpty then
    let s := s.setFold f { ({} : Fold) with tokens := x.tokens, tokAt := x.tokAt }
    ((s.wrN (R.FOLD_CHEAD f) 0).wrN (R.FOLD_RTAIL f) 0).wrN (R.FOLD_RHEAD f) 0 |>.setBit (R.FOLD_STAT f)
      F.FOLD_STAT_RING_ERR false
  else s

/-- Waiting replies, then notices, go out while there is room. -/
def State.drainFold (s : State) (f : Nat) : State :=
  let x := s.fold f
  let r := s.ringDrain f x.waiting
  let s := r.1
  let n := if r.2.isEmpty then s.ringDrain f x.notices else (s, x.notices)
  (n.1.setFold f { x with waiting := r.2, notices := n.2 }).closeFold f |>.syncFold f

/-- The largest LENGTH of a UDP reply from a port (R483). -/
def State.udpLimit (s : State) (port : Nat) : Nat := if s.bit (R.NET_PORT_CFG port) F.NET_PORT_CFG_JUMBO then 4080 else 1440

/-- A reply leaves (R482, R483, R485). -/
def State.reply (s : State) (f port : Nat) (r : Reply) : State :=
  let s := if r.status = 1 then s.count (R.FOLD_BUSY_CNT f) else if r.status = 8 then s.count (R.FOLD_ERR_CNT f) else s
  if s.foldUdp f then
    let r := if s.udpLimit port < r.length then { r with status := 2, detail := 1, results := [] } else r
    let x := s.fold f
    let s := s.setFold f { x with last := (r :: x.last).take 4 }
    ({ s with out := { s.out with replies := s.out.replies ++ [r] } }.closeFold f).syncFold f
  else
    let x := s.fold f
    (s.setFold f { x with waiting := x.waiting ++ [r] }).drainFold f

/-- The reply to a command (R488). -/
def replyOf (f : Nat) (h : Hdr) (status detail : Nat) (late : Bool) (results : List Byte) : Reply :=
  { fold := f, opcode := h.opcode, seq := h.seq, flags := h.flags % 32 + 256 + (if late then 1024 else 0), group := h.group,
    status := status, detail := detail, results := results }

/-- An answer to a command: STATUS, DETAIL, whether the event fires late, and the results. -/
structure Ans where
  status : Nat := 0
  detail : Nat := 0
  late : Bool := false
  results : List Byte := []
  deriving DecidableEq, Repr

/-- The command at the head of a fold is answered: it leaves the fold and its queue, and its reply follows (R492). -/
def State.answer (s : State) (f : Nat) (h : Hdr) (a : Ans) : State :=
  let x := s.fold f
  let port := match x.taken with | e :: _ => e.port | [] => 0
  let s := s.setFold f { x with taken := x.taken.drop 1 }
  let s := { s with shep := { s.shep with lsq := s.shep.lsq.erase f, genq := s.shep.genq.erase f } }
  s.reply f port (replyOf f h a.status a.detail a.late a.results)

/-! ### Notices (R498) -/

def le (n v : Nat) : List Byte := (leBytes n v).map (BitVec.ofNat 8)

def words (l : List Nat) : List Byte := l.flatMap (le 4)

/-- A notice to a fold; a fold that is disabled receives none. -/
def State.noticeWith (s : State) (f opcode seq group status detail handle msc info : Nat) (more : List Byte) : State :=
  if 128 ≤ f || !s.foldEn f then s
  else
    let r : Reply :=
      { fold := f, opcode := opcode, seq := seq, flags := 768 + (if s.foldUdp f then 4 else 0), group := group,
        status := status, detail := detail, results := le 4 handle ++ le 8 msc ++ le 4 info ++ more }
    if s.foldUdp f then { s with out := { s.out with replies := s.out.replies ++ [r] } }
    else
      let x := s.fold f
      if 16 ≤ x.notices.length then
        (s.count (R.FOLD_NOTICE_DROP_CNT f)).flag R.FOLD_FLAGS F.FOLD_FLAGS_NOTICE_DROP
      else (s.setFold f { x with notices := x.notices ++ [r] }).drainFold f

/-- The notice of an event. -/
def State.notice (s : State) (e : Event) (status detail msc info : Nat) : State :=
  s.noticeWith e.fold e.opcode e.seq e.group status detail e.handle msc info []

/-! ### Intake (R477, R484, R485, R490, R493, R494, R496) -/

/-- The opcodes of R500. -/
def opcodes : List Nat :=
  (List.range 8).map (0x0100 + ·) ++ (List.range 8).map (0x0201 + ·) ++ (List.range 6).map (0x0301 + ·) ++
    (List.range 5).map (0x0401 + ·) ++ (List.range 6).map (0x0501 + ·) ++ (List.range 9).map (0x0601 + ·) ++
    (List.range 4).map (0x0701 + ·) ++ (List.range 6).map (0x0801 + ·) ++ (List.range 8).map (0x0901 + ·) ++
    (List.range 4).map (0x0A01 + ·) ++ (List.range 4).map (0x0B01 + ·) ++ (List.range 3).map (0x0C01 + ·) ++
    (List.range 7).map (0x0D01 + ·)

/-- Commands with a bulk block (R491, R500). -/
def bulkOpcodes : List Nat := [0x0301, 0x0401, 0x0903, 0x0904, 0x0907, 0x0D02, 0x0D03]

/-- A command that may carry a bulk block: those of bulkOpcodes, and CONFIG_COMMIT, whose block is optional. -/
def mayCarryBulk (opcode : Nat) : Bool := bulkOpcodes.contains opcode || opcode = 0x0D05

/-- The rings are read (R477): not in BOOT or FALLBACK, while firmware runs; Shepherd is held in reset on fallback
resources (R620). -/
def State.ringServed (s : State) : Bool :=
  s.mode ≠ .boot && s.mode ≠ .fallback && !s.fbRes && s.boot.fwRuns

/-- Firmware serves commands: not while it restarts its command service (R504); the fold hardware goes on (R490). -/
def State.served (s : State) : Bool := s.ringServed && !s.shep.restarting

/-- DETAIL of the header's first fault at step 1 of R490; 0 for none. -/
def State.badHeader (s : State) (f : Nat) (h : Hdr) : Nat :=
  let udp := s.foldUdp f
  let flags := h.flags
  let seg := flags / 8 % 4
  if h.version ≠ 1 then 1
  else if h.fold ≠ f then 2
  else if h.engine ≠ s.fld R.SYS_ENGINE_ID F.SYS_ENGINE_ID_ENGINE then 3
  else if 4080 < h.length || h.length % 4 ≠ 0 || (udp && s.udpLimit 0 < h.length && s.udpLimit 1 < h.length &&
      s.udpLimit 2 < h.length && s.udpLimit 3 < h.length) then 4
  else if 32 ≤ flags || flags % 4 = 3 || (flags / 4 % 2 = 1) != udp ||
      (seg ≠ 0 && (!udp || !mayCarryBulk h.opcode)) || seg = 2 ||
      (udp && bulkOpcodes.contains h.opcode && seg = 0) then 5
  else 0

/-- Tokens of a fold now (R494). -/
def State.tokens (s : State) (f : Nat) : Nat :=
  let x := s.fold f
  min 1536000 (x.tokens + s.fld (R.FOLD_RATE f) F.FOLD_RATE_RATE * (s.edge - x.tokAt))

/-- DETAIL of BUSY at step 2 of R490; 0 for none. -/
def State.busyDetail (s : State) (f : Nat) (h : Hdr) : Nat :=
  let ls := s.foldClass f = 3
  let x := s.fold f
  if s.fld (R.FOLD_CFG f) F.FOLD_CFG_CREDIT ≤ x.taken.length + x.waiting.length then 1
  else if ls && 64 ≤ s.shep.lsq.length then 1
  else if s.fld (R.FOLD_RATE f) F.FOLD_RATE_RATE ≠ 0 && s.tokens f < 96000 then 2
  else if !ls && 1 ≤ s.load && h.opcode / 256 = 0x0C then 3
  else if !ls && 2 ≤ s.load then 4
  else 0

/-- FOLD_RATE is raised at most once per second and fold. -/
def State.rateEvent (s : State) (f : Nat) : State :=
  let x := s.fold f
  let due : Bool := match x.rateAt with | some t => decide (t + 96000 ≤ s.edge) | none => true
  if due then (s.setFold f { x with rateAt := some s.edge }).raise FS.FOLD_RATE f 0 else s

/-- Steps 1 and 2 of R490, and UNKNOWN_OPCODE: a command that passes is taken. Answers whether it was. -/
def State.intake (s : State) (f port : Nat) (h : Hdr) : State × Bool :=
  let bad := s.badHeader f h
  if bad ≠ 0 then (s.reply f port (replyOf f h 8 bad false []), false)
  else
    let busy := s.busyDetail f h
    if busy ≠ 0 then
      let s := s.reply f port (replyOf f h 1 busy false [])
      (if busy = 2 then s.rateEvent f else s, false)
    else
      let t := s.tokens f
      let x := s.fold f
      let rate := s.fld (R.FOLD_RATE f) F.FOLD_RATE_RATE
      let s := s.count (R.FOLD_CMD_CNT f)
      if !opcodes.contains h.opcode then
        ((s.setFold f { x with tokens := if rate = 0 then t else t - 96000, tokAt := s.edge }).reply f port
          (replyOf f h 7 0 false []), false)
      else
        let fetch := (bulkOpcodes.contains h.opcode || (h.opcode = 0x0D05 && h.length ≠ 0)) && !s.foldUdp f
        let e : Taken := ⟨h, port, fetch, false⟩
        let s := s.setFold f { x with taken := x.taken ++ [e], tokens := if rate = 0 then t else t - 96000, tokAt := s.edge }
        let s : State := if s.foldClass f = 3 then { s with shep := { s.shep with lsq := s.shep.lsq ++ [f] } }
          else { s with shep := { s.shep with genq := s.shep.genq ++ [f] } }
        (s.syncFold f, true)

/-! ### Command rings (R481) -/

/-- A ring error. -/
def State.ringError (s : State) (f : Nat) : State :=
  ((s.setBit (R.FOLD_STAT f) F.FOLD_STAT_RING_ERR true).flag R.FOLD_FLAGS F.FOLD_FLAGS_RING_ERR).raise FS.FOLD_RING_ERR f 0

/-- The engine reads the packets that lie between its head and the tail, while the fold may take commands. -/
def State.readRing (s : State) (f : Nat) : List Hdr → State
  | [] => s
  | h :: l =>
    let size := 2 ^ s.fld (R.FOLD_RING_CFG f) F.FOLD_RING_CFG_CSIZE
    let head := s.fld (R.FOLD_CHEAD f) F.FOLD_CHEAD_SLOT
    let avail := ((s.fold f).ctail + size - head) % size
    let n := slotsOf h.length
    if s.bit (R.FOLD_STAT f) F.FOLD_STAT_RING_ERR || s.bit (R.FOLD_STAT f) F.FOLD_STAT_RPL_FULL || avail = 0 then s
    else if avail < n || size < head + n then s.ringError f
    else ((s.setFld (R.FOLD_CHEAD f) F.FOLD_CHEAD_SLOT ((head + n) % size)).intake f 0 h).1.readRing f l

/-- A write of FOLD_CDB; the packets are those that the host has placed from the engine's head on. -/
def State.doorbellFold (s : State) (f tail : Nat) (packets : List Hdr) : State :=
  if !s.foldEn f || s.foldUdp f || !s.ringServed then s
  else if 2 ^ s.fld (R.FOLD_RING_CFG f) F.FOLD_RING_CFG_CSIZE ≤ tail then s.ringError f
  else (s.setFold f { s.fold f with ctail := tail }).readRing f packets

def execFoldDoorbell (f : Fin 128) (tail : BitVec 16) (packets : List Hdr) (s : State) : Res :=
  .next (s.doorbellFold f tail.toNat packets)

/-- A write of FOLD_RHEAD frees reply slots and resumes a fold stopped on RPL_FULL (R482). -/
def State.rheadWrite (s : State) (f v : Nat) (packets : List Hdr) : State :=
  let s := s.setFld (R.FOLD_RHEAD f) F.FOLD_RHEAD_SLOT v
  if s.foldUdp f then s else (s.drainFold f).readRing f (if s.foldEn f && s.ringServed then packets else [])

def execFoldRheadWrite (f : Fin 128) (v : BitVec 16) (packets : List Hdr) (s : State) : Res :=
  .next (s.rheadWrite f v.toNat packets)

/-! ### Datagrams (R483 to R485) -/

/-- The header of a packet. -/
def hdrOf (b : List Byte) : Hdr :=
  let n (k i : Nat) : Nat := ofLe ((List.range k).map (fun j => (b.getD (i + j) 0#8).toNat))
  ⟨n 1 0, n 1 1, n 2 2, n 4 4, n 2 8, n 2 10, n 2 12, n 2 14⟩

/-- The key of a fold. -/
def State.foldKey (s : State) (f : Nat) : List Byte := (List.range 8).flatMap (fun k => le 4 (s.rd (R.FOLD_KEY f k)))

/-- The tag of a packet of a fold (R484): replies carry one formed in the same way. -/
def State.dweulTag (s : State) (f : Nat) (packet : List Byte) : List Byte := (hmac (s.foldKey f) packet).take 16

/-- A datagram that fails R484. -/
def State.authFail (s : State) (f : Nat) : State :=
  ((s.count (R.FOLD_AUTH_CNT f)).flag R.FOLD_FLAGS F.FOLD_FLAGS_AUTH).raise FS.FOLD_AUTH_FAIL f 0

/-- SEQ against the window of R485: accepted (with the window after it), a repeated reply, or dropped. -/
def Fold.window (x : Fold) (seq : Nat) : Option Fold :=
  if x.high < seq then
    let d := seq - x.high
    some { x with high := seq, seen := (if 64 ≤ d then 0 else x.seen * 2 ^ d % 2 ^ 64) + 1 }
  else if x.high < seq + 64 && x.seen / 2 ^ (x.high - seq) % 2 = 0 && 1 ≤ seq then
    some { x with seen := x.seen + 2 ^ (x.high - seq) }
  else none

/-- A datagram of header, parameters and tag arrives at a port for FOLD_NET.UDP. -/
def State.datagram (s : State) (port srcIp srcPort : Nat) (bytes : List Byte) : State :=
  if !s.served || s.fld R.FOLD_NET F.FOLD_NET_PORTS / 2 ^ port % 2 = 0 then s
  else
    let n := bytes.length - 16
    let packet := bytes.take n
    let h := hdrOf packet
    let named := h.fold < 128
    let f := if named then h.fold else 0
    if !named || !s.foldEn f || !s.foldUdp f || h.flags / 4 % 2 = 0 || bytes.length < 32 ||
        bytes.drop n ≠ s.dweulTag f packet then s.authFail f
    else
      let s := (s.wrN (R.FOLD_PEER_IP f) srcIp).wrN (R.FOLD_PEER_PORT f) srcPort
      let x := s.fold f
      match x.window h.seq with
      | some x =>
        let s := s.setFold f x
        if 16 + h.length ≠ packet.length then s.reply f port (replyOf f h 8 4 false []) else (s.intake f port h).1
      | none =>
        match (if x.high < h.seq + 64 then x.last.find? (fun r => r.seq = h.seq) else none) with
        | some r => { s with out := { s.out with replies := s.out.replies ++ [r] } }
        | none => s.count (R.FOLD_ERR_CNT f)

def execDweulDatagram (port : Fin 4) (srcIp : Word) (srcPort : BitVec 16) (bytes : List Byte) (s : State) : Res :=
  .next (s.datagram port srcIp.toNat srcPort.toNat bytes)

/-! ### Bulk fetches, service and load (R491, R495, R496) -/

/-- The Drover fetch of the first waiting command with this SEQ completes. -/
def State.fetchDone (s : State) (f seq : Nat) (ok : Bool) : State :=
  let x := s.fold f
  s.setFold f { x with taken := x.taken.map (fun e =>
    if e.needFetch && e.hdr.seq = seq then { e with needFetch := false, fetchErr := !ok } else e) }

def execBulkFetchDone (f : Fin 128) (seq : Word) (ok : Bool) (s : State) : Res := .next (s.fetchDone f seq.toNat ok)

/-- A step of the load state (R496). -/
def loadStep (load b : Nat) : Nat :=
  if load = 0 then (if 1000 < b then 1 else 0)
  else if load = 1 then (if 4000 < b then 2 else if b < 500 then 0 else 1)
  else if b < 2000 then 1 else load

/-- SHEPHERD_FRAME: the estimate of the work that waits in the general queue, and the load state. -/
def State.shepherdFrame (s : State) (backlog : Nat) : State :=
  let b := if s.shep.genq.isEmpty then 0 else backlog
  let s := s.wrN R.FOLD_BACKLOG (b % 2 ^ 24)
  let now := s.load
  let next := loadStep now b
  let s := s.setFld R.FOLD_STATUS F.FOLD_STATUS_LOAD next
  if next = 2 && now ≠ 2 then (s.flag R.FOLD_FLAGS F.FOLD_FLAGS_OVERLOAD).raise FS.FOLD_OVERLOAD 0 0 else s

def execShepherdFrame (backlog : BitVec 24) (s : State) : Res :=
  .next (if s.served then s.shepherdFrame backlog.toNat else s)

end Sys2Proof.Machine
end

