-- ==== Sys2Proof/Machine/RegRules.lean ====
section
/-!
DEFINITION. Which values of a field are no reserved encodings (R13): the stated range of every RW field that has one, and
what a software write to an RW register leaves in it.
-/

namespace Sys2Proof.Machine

/-- A field of a register row whose stated values lie from `lo` to `hi`. -/
structure FieldRange where
  base : Nat
  fld : Fld
  lo : Nat
  hi : Nat
  deriving DecidableEq, Repr

/-- The ranges of the field tables (R46, R126, R205, R266, R293, R326, R424, R455, R474, R506, R575). -/
def fieldRanges : List FieldRange := [
  ⟨R.QUILT_CTRL, F.QUILT_CTRL_SOLO_RAMP, 8, 96000⟩,
  ⟨R.QUILT_SRC_ATTR 0, F.QUILT_SRC_ATTR_THR, 0, 90⟩,
  ⟨R.QUILT_SRC_ATTR 0, F.QUILT_SRC_ATTR_HOLD, 1, 10000⟩,
  ⟨R.QUILT_DLY_XF 0, F.QUILT_DLY_XF_XF, 8, 96000⟩,
  ⟨R.QUILT_GEN_CFG 0, F.QUILT_GEN_CFG_RAMP, 8, 96000⟩,
  ⟨R.QUILT_GEN_FREQ 0, F.QUILT_GEN_FREQ_INC, 0, 0x7FFFFFFF⟩,
  ⟨R.QUILT_GEN_LEVEL 0, F.QUILT_GEN_LEVEL_LEVEL, 0, 2047⟩,
  ⟨R.NEEDLE_MEM_ADDR 0, F.NEEDLE_MEM_ADDR_SPACE, 0, 2⟩,
  ⟨R.BELL_CTRL, F.BELL_CTRL_OPEN_WD, 1, 255⟩,
  ⟨R.BELL_PHASE, F.BELL_PHASE_LOCK_WIN, 1, 65535⟩,
  ⟨R.BELL_PHASE, F.BELL_PHASE_SLOPE, 1, 10000⟩,
  ⟨R.BELL_HO, F.BELL_HO_AVG, 16, 960⟩,
  ⟨R.BELL_CROSS, F.BELL_CROSS_CROSS, 1, 1048575⟩,
  ⟨R.BELL_JUMP, F.BELL_JUMP_THR, 100, 1000000⟩,
  ⟨R.BELL_CORE_CFG, F.BELL_CORE_CFG_MODE, 0, 2⟩,
  ⟨R.BELL_REF_CFG 0, F.BELL_REF_CFG_MISS, 2, 255⟩,
  ⟨R.BELL_REF_CFG 0, F.BELL_REF_CFG_QT, 1, 4095⟩,
  ⟨R.BELL_REF_NOM 0, F.BELL_REF_NOM_NOM, 1, 25000000⟩,
  ⟨R.PTP_DOMMAP 0, F.PTP_DOMMAP_DOMAIN, 0, 127⟩,
  ⟨R.NET_CTRL, F.NET_CTRL_REALIGN_THR, 1, 255⟩,
  ⟨R.NET_PORT_CFG 0, F.NET_PORT_CFG_MODE, 0, 2⟩,
  ⟨R.TWIN_CFG, F.TWIN_CFG_HOLD_BACK, 1, 3600⟩,
  ⟨R.TWIN_CFG, F.TWIN_CFG_SETTLE, 1, 60⟩,
  ⟨R.FAULT_SRC_CFG 0, F.FAULT_SRC_CFG_N, 1, 255⟩,
  ⟨R.FAULT_SRC_WIN 0, F.FAULT_SRC_WIN_MS, 1, 3600000⟩,
  ⟨R.FAULT_SRC_QUIET 0, F.FAULT_SRC_QUIET_MS, 1, 3600000⟩,
  ⟨R.FOLD_NET, F.FOLD_NET_UDP, 1, 65535⟩,
  ⟨R.FOLD_CFG 0, F.FOLD_CFG_CREDIT, 1, 255⟩,
  ⟨R.FOLD_RING_CFG 0, F.FOLD_RING_CFG_RSIZE, 6, 16⟩,
  ⟨R.FOLD_RING_CFG 0, F.FOLD_RING_CFG_CSIZE, 6, 16⟩,
  ⟨R.DROVER_CH_CFG 0, F.DROVER_CH_CFG_BUDGET, 1, 65535⟩]

/-- A word with every field of a row outside its range put back to the value it had (R13). -/
def keepRanges (base old new : Nat) : Nat :=
  (fieldRanges.filter (fun r => r.base = base)).foldl (fun w r =>
    let x := r.fld.of w
    if r.lo ≤ x && x ≤ r.hi then w else r.fld.put w (r.fld.of old)) new

/-- A field put back unless a condition holds of it. -/
def keepUnless (f : Fld) (ok : Bool) (old new : Nat) : Nat := if ok then new else f.put new (f.of old)

/-- SADC inputs: 24 to 30 are reserved. -/
def sadcInput (v : Nat) : Bool := v < 24 || v = 31

/-- The reserved encodings that depend on more than the field (R266, R326, R393, R461). -/
def keepFields (base i old new : Nat) : Nat :=
  let w := keepRanges base old new
  if base = R.BELL_CORE_CFG then
    let d := F.BELL_CORE_CFG_DEPTH.of w
    keepUnless F.BELL_CORE_CFG_DEPTH (d ≤ (if F.BELL_CORE_CFG_MODE.of w = 2 then 10 else 20)) old w
  else if base = R.BELL_FREE_TRIM then
    keepUnless F.BELL_FREE_TRIM_TRIM (decide ((sext 32 w).natAbs ≤ 50000000)) old w
  else if base = R.NET_PORT_CFG 0 then
    let f := F.NET_PORT_CFG_FEC.of w
    keepUnless F.NET_PORT_CFG_FEC (f < 2 || (f = 2 && F.NET_PORT_CFG_MODE.of w = 2)) old w
  else if base = R.LINE_SADC_CFG then
    let w := keepUnless F.LINE_SADC_CFG_VBAT_IN (sadcInput (F.LINE_SADC_CFG_VBAT_IN.of w)) old w
    keepUnless F.LINE_SADC_CFG_VBUS_IN (sadcInput (F.LINE_SADC_CFG_VBUS_IN.of w)) old w
  else if base = R.FAULT_SRC_CFG 0 && !blkRstActs i then
    let w := keepUnless F.FAULT_SRC_CFG_SEVERE (F.FAULT_SRC_CFG_SEVERE.of w / 4 % 2 = 0) old w
    keepUnless F.FAULT_SRC_CFG_NORMAL (F.FAULT_SRC_CFG_NORMAL.of w / 4 % 2 = 0) old w
  else w

/-- Bits of an RW register that are reserved, or read only, for some indices or beside its row's mask (R12). -/
def indexMask (base i : Nat) : Nat :=
  if base = R.SCHED_CTRL then 0xFFFFFF7F
  else if base = R.BELL_REF_CFG 0 then (if i < 8 then 0xFFFFFFFF else 0xBFFFFFFF)
  else if base = R.BELL_REF_NOM 0 then (if i < 8 then 0 else 0xFFFFFFFF)
  else if base = R.QUILT_GEN_PHSEED 0 then (if i < 64 then 0xFFFFFFFF else 0xFFFF)
  else if base = R.FAULT_SRC_CFG 0 || base = R.FAULT_SRC_WIN 0 || base = R.FAULT_SRC_QUIET 0 then
    (if faultNamed i then 0xFFFFFFFF else 0)
  else if base = R.DROVER_CH_DESC_LO 0 then 0xFFFFFFE0
  else if base = R.SYS_BOOT_HADDR_LO then 0xFFFFFFC0
  else 0xFFFFFFFF

/-- Bits of `v` under `msk`, the others from `old`. -/
def mergeBits (old v msk : Nat) : Nat := (v &&& msk) ||| (old &&& (0xFFFFFFFF - (msk &&& 0xFFFFFFFF)))

/-- What a software write of the bits `msk` of `v` leaves in an RW register (R12, R13, R511). -/
def rwWord (r : RegSpec) (i old v msk : Nat) : Nat :=
  keepFields r.addr i old (mergeBits old v (msk &&& r.wmask &&& indexMask r.addr i))

/-- The first and second index of a register in its row. -/
def RegSpec.index (r : RegSpec) (a : Nat) : Nat × Nat :=
  ((a - r.addr) / r.stride, if r.count2 ≤ 1 then 0 else (a - r.addr) % r.stride / r.stride2)

/-- The flag that an event lost to a write of its counter sets (R512). -/
def lostFlag (a : Nat) : Option (Nat × Fld) :=
  match a / 0x100000 - 0x400 with
  | 0 =>
    if a = R.SYS_LOCKV_CNT then some (R.SYS_REGFLAGS, F.SYS_REGFLAGS_LOST)
    else if a = R.SYS_ECC_CE_CNT || a = R.SYS_ECC_UE_CNT then some (R.SYS_MEMFLAGS, F.SYS_MEMFLAGS_LOST) else none
  | 1 => some (R.QUILT_FLAGS, F.QUILT_FLAGS_LOST)
  | 2 => if a < R.SCHED_CTRL then some (R.SEAM_FLAGS, F.SEAM_FLAGS_LOST) else some (R.SCHED_FLAGS, F.SCHED_FLAGS_LOST)
  | 3 => some (R.NEEDLE_FLAGS, F.NEEDLE_FLAGS_LOST)
  | 4 => some (R.BELL_FLAGS, F.BELL_FLAGS_LOST)
  | 5 => some (R.PTP_FLAGS, F.PTP_FLAGS_LOST)
  | 6 => some (R.NET_FLAGS, F.NET_FLAGS_LOST)
  | 7 => some (R.PORT_FLAGS, F.PORT_FLAGS_LOST)
  | 8 => some (R.LINE_FLAGS, F.LINE_FLAGS_LOST)
  | 9 => some (R.ALARM_FLAGS, F.ALARM_FLAGS_LOST)
  | 10 => some (R.TWIN_FLAGS, F.TWIN_FLAGS_LOST)
  | 11 => some (R.FAULT_FLAGS, F.FAULT_FLAGS_LOST)
  | 12 => some (R.FOLD_FLAGS, F.FOLD_FLAGS_LOST)
  | 13 => some (R.DROVER_FLAGS, F.DROVER_FLAGS_LOST)
  | 14 => some (R.CCU_FLAGS, F.CCU_FLAGS_LOST)
  | _ => none

end Sys2Proof.Machine
end

