-- ==== Sys2Proof/Machine/FoldCfg.lean ====
section
/-!
DEFINITION. Violations of LOCK and ONCE (R518 to R520), and writes to the configuration of a fold (R478, R479, R494).
-/

namespace Sys2Proof.Machine

/-- A violation (R520): the address of the access, its master, and the kind of SYS_LOCKV_INFO. -/
def State.violate (s : State) (addr : Nat) (m : Master) (kind : Nat) : State :=
  let s := s.wrN R.SYS_LOCKV_ADDR addr
  let s := s.wrN R.SYS_LOCKV_INFO (kind * 2 ^ 28 + m.code * 2 ^ 16)
  ((s.count R.SYS_LOCKV_CNT).flag R.SYS_REGFLAGS F.SYS_REGFLAGS_LOCKV).raise FS.LOCK_VIOL m.code kind

/-- The address of a configuration word of a fold. -/
def FoldWord.addr (f : Nat) : FoldWord → Nat
  | .cfg => R.FOLD_CFG f
  | .ringCfg => R.FOLD_RING_CFG f
  | .cringLo => R.FOLD_CRING_LO f
  | .cringHi => R.FOLD_CRING_HI f
  | .rringLo => R.FOLD_RRING_LO f
  | .rringHi => R.FOLD_RRING_HI f
  | .key k => R.FOLD_KEY f k

/-- EN := 0 (R479): no new packets; what the fold has taken completes. Its subscriptions end (R503). -/
def State.disableFold (s : State) (f : Nat) : State :=
  let s := s.setBit (R.FOLD_CFG f) F.FOLD_CFG_EN false
  let s := s.setFold f { s.fold f with closing := true, subs := [] }
  (s.closeFold f).syncFold f

/-- EN := 1. -/
def State.enableFold (s : State) (f : Nat) : State :=
  let s := s.setBit (R.FOLD_CFG f) F.FOLD_CFG_EN true
  s.setFold f { s.fold f with closing := false }

/-- A write of some bits of a configuration word of a fold (R478), at an address as the master gave it. -/
def State.foldCfgWrite (s : State) (f : Nat) (w : FoldWord) (v msk : Nat) (m : Master) (addr : Nat) : State :=
  let a := w.addr f
  let old := s.rd a
  let spec := regSpec? a
  let mask := match spec with | some r => r.wmask | none => 0xFFFFFFFF
  let new := match spec with
    | some r => if w = .cfg || w = .ringCfg then rwWord r f old v msk else mergeBits old v (msk &&& mask)
    | none => mergeBits old v msk
  let en := s.foldEn f
  let en' := F.FOLD_CFG_EN.of new = 1
  let cls := s.foldClass f
  let locked := s.bit R.FOLD_CTRL F.FOLD_CTRL_LS_LOCK
  let isCfg := decide (w = .cfg)
  let isKey := match w with | .key _ => true | _ => false
  let cls' := F.FOLD_CFG_CLASS.of new
  -- what LS_LOCK refuses; a write while EN = 1 applies to EN only, and so leaves CLASS
  let refused := locked && ((isCfg && (if en then cls = 3 && !en' else (cls' = 3) != (cls = 3))) || (isKey && cls = 3))
  if refused then s.violate addr m 4
  else
    let t :=
      if en then
        let t := s.flag R.FOLD_FLAGS F.FOLD_FLAGS_CFG_IGN
        if isCfg && !en' then t.disableFold f else t
      else if isCfg then
        let t := s.wrN a (F.FOLD_CFG_EN.put new 0)
        if en' then t.enableFold f else t
      else
        let v' := if isKey then mergeBits old v msk else new
        s.wrN a v'
    State.ccuConfigChange s t a

/-- A write of FOLD_RATE: the tokens gained so far stay (R494). -/
def State.foldRateWrite (s : State) (f v : Nat) : State :=
  let t := s.setFold f { s.fold f with tokens := s.tokens f, tokAt := s.edge }
  State.ccuConfigChange s (t.wrN (R.FOLD_RATE f) v) (R.FOLD_RATE f)

end Sys2Proof.Machine
end

