-- ==== Sys2Proof/Machine/FaultCmds.lean ====
section
/-!
DEFINITION. The commands of the Fault Collector (R457, R462 to R468) and the die temperature (R614).
-/

namespace Sys2Proof.Machine

/-! ### Windows and quiet exits (R462, R463) -/

/-- FAULT_WINDOW_CLOSE: `ms` since the source's window opened. -/
def execFaultWindowClose (f : Fin 256) (ms : Nat) (s : State) : Res :=
  .next (if s.fld (R.FAULT_SRC_STAT f) F.FAULT_SRC_STAT_WCOUNT ≠ 0 && s.fld (R.FAULT_SRC_WIN f) F.FAULT_SRC_WIN_MS ≤ ms then
      s.setFld (R.FAULT_SRC_STAT f) F.FAULT_SRC_STAT_WCOUNT 0
    else s)

/-- FAULT_QUIET_EXIT: `ms` since the source's last event. -/
def execFaultQuietExit (f : Fin 256) (ms : Nat) (s : State) : Res :=
  let a := R.FAULT_SRC_STAT f
  if s.fld a F.FAULT_SRC_STAT_STATE ≠ 0 && s.fld (R.FAULT_SRC_QUIET f) F.FAULT_SRC_QUIET_MS ≤ ms then
    let s := (s.setFld a F.FAULT_SRC_STAT_STATE 0).countFld a F.FAULT_SRC_STAT_RECOV
    .next ((s.setBitAt (R.FAULT_RAISED (f / 32)) (f % 32) false).setBitAt (R.FAULT_SEVERE (f / 32)) (f % 32) false).pinReleased
  else .next s

/-! ### The record and software sources (R457, R466) -/

/-- The record closes: its fields keep their values. -/
def State.recAck (s : State) : State := s.setBit R.FAULT_STATUS F.FAULT_STATUS_REC_OPEN false

/-- FAULT_REC_ACK: a write of GO. -/
def execFaultRecAck (s : State) : Res := .next s.recAck

/-- A write of FAULT_SW_RAISE: each source named raises one event with UNIT, the lowest first. -/
def State.swRaise (s : State) (v : Nat) : State :=
  let mask := F.FAULT_SW_RAISE_SRC.of v
  ((List.range 16).filter (fun k => mask / 2 ^ k % 2 = 1)).foldl (fun (t : State) k =>
    t.raise (FS.SW0 + k) (F.FAULT_SW_RAISE_UNIT.of v) 0) s

/-- A parity error in a source's configuration word, found when an event reads it (R464): the reset configuration acts
until software rewrites the word. -/
def State.parityError (s : State) (f : Nat) : State :=
  (s.setBit (R.FAULT_SRC_STAT f) F.FAULT_SRC_STAT_PAR_ERR true).raise FS.FC_PARITY 0 0

/-- FAULT_SW_RAISE: `parity` lists the sources whose configuration words the FC finds with a parity error. -/
def execFaultSwRaise (v : Word) (parity : List (Fin 256)) (s : State) : Res :=
  let s := ((parity.map (·.val)).filter faultNamed).foldl State.parityError s
  .next (s.swRaise v.toNat)

/-! ### The pin (R467, R468) -/

/-- FAULTN_READBACK: the level at the ball has stood at `high` for `ms` milliseconds while the engine drives the pin low. -/
def execFaultnReadback (high : Bool) (ms : Nat) (s : State) : Res :=
  let s := { s with pins := { s.pins with faultIn := high } }
  if !s.pinLow then .next s.pinReleased
  else if ms = 0 then .next s
  else if high && !s.fc.rbRaised then
    .next ({ s with fc := { s.fc with rbRaised := true } }.raise FS.FAULTN_READBACK 0 0)
  else if !high then .next { s with fc := { s.fc with rbRaised := false } }
  else .next s

/-- FAULTN_MIN_LOW_END: `ms` since the pin was driven low. A pin that is released arms the readback check anew. -/
def execFaultnMinLowEnd (ms : Nat) (s : State) : Res :=
  if 10 ≤ ms && s.fc.pinMin then
    let s := { s with fc := { s.fc with pinMin := false } }
    .next s.pinReleased
  else .next s

/-! ### Registers -/

/-- FAULT_STATUS: counts of raised and severe sources, the pin, and whether the record is open. -/
def State.faultStatus (s : State) : Nat :=
  let n (a : Nat → Nat) : Nat := (List.range 8).foldl (fun k w => k + countBits (s.rd (a w))) 0
  let v := F.FAULT_STATUS_SEVERE_N.put 0 (n R.FAULT_SEVERE)
  let v := F.FAULT_STATUS_RAISED_N.put v (n R.FAULT_RAISED)
  let v := F.FAULT_STATUS_PIN_OUT.put v (if s.pinLow then 1 else 0)
  let v := F.FAULT_STATUS_PIN_IN.put v (if s.pins.faultIn then 1 else 0)
  F.FAULT_STATUS_REC_OPEN.put v (s.fld R.FAULT_STATUS F.FAULT_STATUS_REC_OPEN)

/-! ### Die temperature (R614) -/

/-- A reading of the die sensors: the highest of the four, in 1/16 °C. -/
def State.dieTemp (s : State) (t : Int) : State :=
  let old := sext 16 (s.fld R.SYS_DIE_TEMP F.SYS_DIE_TEMP_MAX)
  let top := if s.boot.tempRead && t < old then old else t
  let s := s.wrN R.SYS_DIE_TEMP (wrapN 16 t + wrapN 16 top * 2 ^ 16)
  let s := { s with boot := { s.boot with tempRead := true } }
  let warn := sext 16 (s.fld R.SYS_TEMP_LIM F.SYS_TEMP_LIM_WARN)
  let s :=
    if warn ≤ t && !s.boot.warnRaised then
      { s with boot := { s.boot with warnRaised := true } }.raise FS.DIE_TEMP 0 0
    else if t < warn - (s.fld R.SYS_TEMP_LIM F.SYS_TEMP_LIM_HYST : Int) then
      { s with boot := { s.boot with warnRaised := false } }
    else s
  if 2000 ≤ t then s.raise FS.DIE_TEMP 0 1 else s

/-- DIE_TEMP_READING. -/
def execDieTempReading (t : BitVec 16) (s : State) : Res := .next (s.dieTemp t.toInt)

end Sys2Proof.Machine
end

