-- ==== Sys2Proof/Machine/Sched.lean ====
section
/-!
DEFINITION. The event scheduler (R62 to R72): arrival, cancellation and firing of events, and what the events of each class
do (R27, R33, R35, R141, R149, R319 to R321, R351, R383, R415, R417, R450).
-/

namespace Sys2Proof.Machine

/-! ### Objects of START and STOP (R318, R319, R352) -/

/-- The state code of a flow or port: 1 is STOPPED in both. -/
def State.objState (s : State) : Obj → Nat
  | .rxFlow f => (s.rxFlow f).st
  | .txFlow f => (s.txFlow f).st
  | .arx r => (s.lport (.arx (Fin.ofNat 32 r))).st
  | .atx t => (s.lport (.atx (Fin.ofNat 32 t))).st
  | .tdm p => (s.lport (.tdm (Fin.ofNat 16 p))).st
  | _ => 0

/-- The members of a flock: flows, then local ports. -/
def State.flockObjs (s : State) (g : Nat) : List Obj :=
  (s.flockMembers g).map (fun m => if m.1 then Obj.txFlow m.2 else Obj.rxFlow m.2) ++
    (allPorts.filter (fun q => (s.lport q).st ≠ 0 && (s.portCfg q).flock = g)).map LocalPort.obj

/-- A STOP of the object is pending at a target no later than t (R319). -/
def State.stopPending (s : State) (o : Obj) (t : Nat) : Bool :=
  s.sched.events.any (fun e =>
    match e.act with
    | .stop (.flock g) => decide (e.target ≤ t) && (s.flockObjs g).contains o
    | .stop o' => decide (e.target ≤ t) && decide (o' = o)
    | _ => false)

/-- A START at t is accepted for the object (R319). -/
def State.startAccepted (s : State) (o : Obj) (t : Nat) : Bool := s.objState o = 1 || s.stopPending o t

/-- A START has been entered: what stands in STOPPED goes to PENDING. -/
def State.pendObj (s : State) : Obj → State
  | .rxFlow f => s.rxPending f
  | .txFlow f => s.txPending f
  | .arx r => s.portPending (.arx (Fin.ofNat 32 r))
  | .atx t => s.portPending (.atx (Fin.ofNat 32 t))
  | .tdm p => s.portPending (.tdm (Fin.ofNat 16 p))
  | _ => s

/-- A START has gone without acting: what stands in PENDING returns to STOPPED, unless another START names it. -/
def State.unpendObj (s : State) (o : Obj) : State :=
  if s.startNamed o then s
  else match o with
    | .rxFlow f => s.rxUnpend f
    | .txFlow f => s.txUnpend f
    | .arx r => s.portUnpend (.arx (Fin.ofNat 32 r))
    | .atx t => s.portUnpend (.atx (Fin.ofNat 32 t))
    | .tdm p => s.portUnpend (.tdm (Fin.ofNat 16 p))
    | _ => s

/-- A START fires on one object at t. -/
def State.startObj (s : State) (t : Nat) : Obj → State
  | .rxFlow f => s.rxStart f t
  | .txFlow f => s.txStart f t
  | .arx r => s.portStart (.arx (Fin.ofNat 32 r)) t
  | .atx k => s.portStart (.atx (Fin.ofNat 32 k)) t
  | .tdm p => s.portStart (.tdm (Fin.ofNat 16 p)) t
  | _ => s

/-- A STOP fires on one object at t. -/
def State.stopOne (s : State) (t : Nat) : Obj → State
  | .rxFlow f => s.rxStop f t
  | .txFlow f => s.txStop f t
  | .arx r => s.portStop (.arx (Fin.ofNat 32 r)) t
  | .atx k => s.portStop (.atx (Fin.ofNat 32 k)) t
  | .tdm p => s.portStop (.tdm (Fin.ofNat 16 p)) t
  | .player p => s.playerStop p t
  | .lines m => s.lineDisableMask m
  | .flock _ => s

def State.stopObj (s : State) (t : Nat) (o : Obj) : State :=
  match o with
  | .flock g => (s.flockObjs g).foldl (fun u m => u.stopOne t m) s
  | _ => s.stopOne t o

/-! ### Arrival (R63, R66 to R69, R439) -/

/-- The first sample that is not armed when an event reaches the scheduler at MSC m (R63). -/
def firstUnarmed (m : Nat) : Nat := 8 * (m / 8 + 2)

/-- The sample at which lateness is judged: 24 samples later while paired (R439). -/
def State.judgeAt (s : State) : Nat := s.msc + (if s.paired then 24 else 0)

/-- Whether block T >> 3 is armed (R63, R70). -/
def State.armedAt (s : State) (t : Nat) : Bool := decide (t < firstUnarmed s.msc)

/-- Whether the LATE code lets a late event of a class run (R66, R67). -/
def State.lateRuns (s : State) (code cls : Nat) : Bool :=
  if code = 1 then true else if code = 2 then false else s.fld R.SCHED_CTRL F.SCHED_CTRL_LATE_DEF / 2 ^ cls % 2 = 1

/-- The pending count at which an event is refused (R68). -/
def State.schedRoom (s : State) (cls : Nat) : Nat :=
  if cls = 3 then 4096 else 4096 - 16 * s.fld R.SCHED_CTRL F.SCHED_CTRL_LS_RESERVE

/-- What the scheduler answers to an arriving event. -/
inductive Arrival where
  | entered (e : Event)
  | late
  | rejected
  | full
  deriving DecidableEq, Repr

/-- An event with its fields but handle, sample and lateness. -/
def eventOf (act : Action) (target fold cls opcode seq group : Nat) (members : List Obj) : Event :=
  { handle := 0, act := act, target := target, fire := target, late := false, fold := fold, cls := cls,
    opcode := opcode, seq := seq, group := group, members := members }

/-- An arriving event is tested for horizon, lateness and capacity in this order, and entered (R69). -/
def State.arrive (s : State) (e : Event) (code : Nat) : State × Arrival :=
  if !(e.target - s.msc ≤ 2 ^ 40) then (s, .rejected)
  else
    let l := firstUnarmed s.judgeAt
    let late : Bool := decide (e.target < l)
    if late && !s.lateRuns code e.act.cls then
      ((s.count R.SCHED_LATE_REJ_CNT).flag R.SCHED_FLAGS F.SCHED_FLAGS_LATE_REJ, .late)
    else if s.schedRoom e.cls ≤ s.sched.events.length then
      (((s.count R.SCHED_FULL_CNT).flag R.SCHED_FLAGS F.SCHED_FLAGS_FULL).raise FS.SCHED_FULL 0 0, .full)
    else
      let s := if late then (s.count R.SCHED_LATE_EXEC_CNT).flag R.SCHED_FLAGS F.SCHED_FLAGS_LATE_EXEC else s
      let e := { e with handle := s.sched.nextHandle, fire := if late then l else e.target, late := late }
      let s := { s with sched := { s.sched with events := s.sched.events ++ [e], nextHandle := e.handle + 1 } }
      let s := match e.act with
        | .start _ => e.members.foldl State.pendObj s
        | _ => s
      (s, .entered e)

/-! ### Events that go without acting (R70, R71, R136) -/

/-- An event leaves the scheduler. -/
def State.dropEvent (s : State) (handle : Nat) : State :=
  { s with sched := { s.sched with events := s.sched.events.filter (fun e => e.handle ≠ handle) } }

/-- What an event that will not act had prepared is undone: its members leave PENDING, its bank returns to CHECKED. -/
def State.unprepare (s : State) (e : Event) : State :=
  match e.act with
  | .start _ => e.members.foldl State.unpendObj s
  | .sew _ =>
    let s := { s with seam := { s.seam with sew := none, arming := false } }
    (s.setBstate 2).setBit R.SEAM_STATUS F.SEAM_STATUS_GROUP false
  | _ => s

/-- An event that may be cancelled goes (R70). -/
def State.cancelEvent (s : State) (e : Event) : State := (s.dropEvent e.handle).unprepare e

/-! ### MODE events (R27, R33, R35) -/

/-- A SET_MODE that names a mode is a transition of R27 from m. -/
def modeRequest (m : Mode) (code : Nat) : Bool :=
  (decide (m = .commission) && (code = 2 || code = 3)) || ((decide (m = .service) || decide (m = .standby)) && code = 1)

/-- The request granted from a mode: SERVICE or STANDBY as DUTY_IN decides, or COMMISSION with duty as it was; inside
ALARM it is RET_MODE that changes. -/
def State.grantMode (s : State) (code : Nat) : State :=
  let dst : Mode := if code = 1 then .commission else if s.pins.dutyIn then .standby else .service
  let duty := match dst with | .service => true | .standby => false | _ => s.duty
  let s := if s.mode = .alarm then s.setSys .alarm dst duty s.fbRes Cause.setMode
    else s.setSys dst s.retMode duty s.fbRes Cause.setMode
  s.linesSync

/-- A MODE event at its target. -/
def State.modeEvent (s : State) (e : Event) (code : Nat) : State :=
  let from_ := s.baseMode
  let uncommitted : Bool := decide (from_ = .commission) && !s.ccuCommitted
  if s.mode = .alarm then
    if e.cls < 3 || !modeRequest from_ code then s.notice e 4 2 e.target 0
    else if uncommitted then s.notice e 2 1 e.target 0
    else s.grantMode code
  else if !modeRequest from_ code then s.notice e 2 2 e.target 0
  else if uncommitted then s.notice e 2 1 e.target 0
  else s.grantMode code

/-! ### SEW events (R140, R141, R149) -/

/-- The arming re-evaluation of the pending SEW (R140); answers whether it passes. -/
def State.armCheck (s : State) (e : Event) : State × Bool :=
  let r := s.checkBank s.quilt.baste e.cls
  let s := { s with seam := { s.seam with arming := false } }
  let s := s.noteCheck r e.fold
  if r.1 = 0 then (s, true)
  else
    let s := (s.dropEvent e.handle).setBstate 0
    let s := { s with seam := { s.seam with sew := none } }.setBit R.SEAM_STATUS F.SEAM_STATUS_GROUP false
    let s := ((s.count R.SEAM_SEW_FAIL_CNT).flag R.SEAM_FLAGS F.SEAM_FLAGS_SEW_FAIL).raise FS.SEAM_SEW_FAIL 0 r.1
    let st := match chkStatus r.1 with
      | .ok => (0, 0) | .noResource => (6, r.1) | .inconsistent => (3, r.1) | .notPermitted => (4, 3)
    (s.notice e st.1 st.2 e.target (s.rd R.QUILT_CHK_RESULT), false)

/-- A SEW event at its target: an arming check that has not been taken is taken first. -/
def State.sewEvent (s : State) (e : Event) : State :=
  let r := if s.seam.arming || s.bstate = 3 then s.armCheck e else (s, true)
  if !r.2 then r.1
  else
    let s := { r.1 with seam := { r.1.seam with sew := some e } }.swap e.fire
    s.notice e 0 0 e.fire (s.rd R.SEAM_LIVE_CRC)

/-! ### HANDOVER events (R446, R450) -/

/-- A handover or switch-over moves an engine in step to COPY (R431), and an exposure window begins in the new standby. -/
def State.twinRecopy (s : State) : State :=
  let s := if 3 ≤ s.tstate && s.tstate ≤ 6 then s.setFld R.TWIN_STATUS F.TWIN_STATUS_TSTATE 3 else s
  { s with twin := { s.twin with exposeFrom := some s.msc, healthy := false } }

/-- A HANDOVER event at H. In the duty engine duty ends and STANDBY follows; the standby notes that the loss of DUTY_IN that
follows is a handover. -/
def State.handoverEvent (s : State) (e : Event) : State :=
  if s.duty then
    if s.baseMode ≠ .service then s.notice e 4 2 e.target 0
    else if !s.partnerReady then s.notice e 2 0 e.target 0
    else
      let s := if s.mode = .alarm then s.setSys .alarm .standby false s.fbRes Cause.handover
        else s.setSys .standby s.retMode false s.fbRes Cause.handover
      s.linesSync.twinRecopy
  else if s.baseMode = .standby && s.twin.healthy then { s with twin := { s.twin with byHandover := true } }
  else s.notice e 2 0 e.target 0

/-! ### Firing (R64, R65, R71) -/

/-- What an event does at its sample. -/
def State.actEvent (s : State) (e : Event) : State :=
  match e.act with
  | .handover => s.handoverEvent e
  | .mode code => s.modeEvent e code
  | .sew _ => s.sewEvent e
  | .stop o => s.stopObj e.fire o
  | .start _ => e.members.foldl (fun (u : State) m => u.startObj e.fire m) s
  | .message p slot reps gap =>
    let r := s.messageEvent p slot reps gap e.fire
    if r.2 then r.1 else r.1.notice e 3 0 e.target slot
  | .lineEn m => s.lineEnableMask m

/-- An event fires: it frees its entry, and in ALARM only an event of a LIFE-SAFETY fold acts (R71). R33 governs MODE
events. -/
def State.fireEvent (s : State) (e : Event) : State :=
  let isMode : Bool := match e.act with | .mode _ => true | _ => false
  let s := s.dropEvent e.handle
  if s.mode = .alarm && e.cls < 3 && !isMode then (s.unprepare e).notice e 4 2 e.target 0 else s.actEvent e

/-- The order of R65 among due events: by sample, then class; the scheduler's list is in order of arrival. -/
def firesBefore (a b : Event) : Bool :=
  decide (a.fire < b.fire) || (decide (a.fire = b.fire) && decide (a.act.cls < b.act.cls))

/-- The next event that is due. -/
def State.nextDue (s : State) : Option Event :=
  s.sched.events.foldl (fun m e =>
    if s.msc < e.fire then m
    else match m with
      | none => some e
      | some x => if firesBefore e x then some e else some x) none

def State.fireDue (s : State) : Nat → State
  | 0 => s
  | n + 1 =>
    match s.nextDue with
    | some e => (s.fireEvent e).fireDue n
    | none => s

/-- EVENT_FIRE: every event whose sample is reached fires. -/
def execEventFire (s : State) : Res := .next (s.fireDue s.sched.events.length)

/-! ### Registers of the scheduler (R73) -/

/-- SCHED_STATUS with its pending count. -/
def State.schedStatus (s : State) : Nat :=
  F.SCHED_STATUS_PENDING.put (s.rd R.SCHED_STATUS) s.sched.events.length

/-- SCHED_NEXT: the earliest sample at which a pending event fires. -/
def State.schedNext (s : State) : Nat :=
  s.sched.events.foldl (fun m e => min m e.fire) (2 ^ 64 - 1)

end Sys2Proof.Machine
end

