-- ==== Sys2Proof/Machine/Twin.lean ====
section
/-!
DEFINITION. Twin operation (R426 to R456): the pair's states, duty and its loss, link faults, health reports and the commands
of TWIN_CMD.
-/

namespace Sys2Proof.Machine

/-! ### Pair states (R430, R431) -/

def State.setTstate (s : State) (t : Nat) : State := s.setFld R.TWIN_STATUS F.TWIN_STATUS_TSTATE t

/-- The engine is a standby: in STANDBY, or in ALARM with RET_MODE = STANDBY. -/
def State.isStandby (s : State) : Bool := decide (s.baseMode = .standby)

/-- The phases after LINK run while one engine holds duty and the other is a standby. -/
def State.pairs (s : State) : Bool := s.duty || s.isStandby

/-- LANES_DETECTED: SOLO to LINK. -/
def execLanesDetected (s : State) : Res := .next (if s.tstate = 0 then s.setTstate 1 else s)

/-- LINK_TRAINED: training is complete on the lanes named; `partner` says that the partner is in the complementary role. -/
def execLinkTrained (lanes : BitVec 2) (partner : Bool) (s : State) : Res :=
  if s.tstate = 1 && lanes ≠ 0#2 && partner && s.pairs then
    .next (({ s with twin := { s.twin with locked := false } }.setTstate 2).setFld R.TWIN_STATUS F.TWIN_STATUS_LANES
      lanes.toNat)
  else .next s

/-- LINK_TRAIN_TIMEOUT: `samples` since LINK was entered. -/
def execLinkTrainTimeout (samples : Nat) (s : State) : Res :=
  .next (if s.tstate = 1 && 960 ≤ samples then s.setTstate 0 else s)

/-- LINK_RETRY: `samples` since the training that failed. -/
def execLinkRetry (samples : Nat) (s : State) : Res :=
  .next (if s.tstate = 0 && 96000 ≤ samples then s.setTstate 1 else s)

/-! ### Joining a pair (R432 to R436) -/

/-- CLOCK_LOCK: the standby's media clock is in step with the duty engine's. -/
def execClockLock (s : State) : Res :=
  .next (if s.isStandby && 2 ≤ s.tstate then { s with twin := { s.twin with locked := true } } else s)

/-- The transfer of MSC to a locked standby (R433). -/
def State.mscTransfer (s : State) (msc tb : Nat) : State :=
  if s.fld R.SCHED_STATUS F.SCHED_STATUS_STATE = 0 then
    let s := ({ s with msc := msc }.setFld R.SCHED_STATUS F.SCHED_STATUS_STATE 1).setFld R.SCHED_STATUS F.SCHED_STATUS_TB tb
    s.setTstate 3
  else if s.msc = msc then s.setTstate 3
  else
    ({ s with twin := { s.twin with mscRefused := true } }.flag R.TWIN_FLAGS F.TWIN_FLAGS_MSC_DIFF).raise FS.TWIN_SYNC_FAIL 0 0

/-- MSC_TRANSFER at a block start: MSC and time base of the duty engine; in the duty engine, whether the standby has
accepted. -/
def execMscTransfer (msc : DWord) (tb : Fin 8) (accepted : Bool) (s : State) : Res :=
  if s.tstate ≠ 2 || s.msc % 8 ≠ 0 then .next s
  else if s.isStandby then
    .next (if s.twin.locked && !s.twin.mscRefused then s.mscTransfer msc.toNat tb else s)
  else .next (if s.duty && accepted then s.setTstate 3 else s)

/-- COPY_COMPLETE: the remaining changes of one block fit the delta (R434). -/
def execCopyComplete (s : State) : Res := .next (if s.tstate = 3 then s.setTstate 4 else s)

/-- PAIRED is entered: a standby's exposure window ends, and its own HEALTHY begins (R436, R442). -/
def State.enterPaired (s : State) : State :=
  let s := s.setTstate 5
  if !s.isStandby then s
  else
    let s := match s.twin.exposeFrom with
      | some m => s.wrN R.TWIN_EXPOSE ((s.msc - m) / 8)
      | none => s
    { s with twin := { s.twin with exposeFrom := none, healthy := !s.twin.bistFail } }

/-- SETTLE_END: `seconds` spent in SETTLE. -/
def execSettleEnd (seconds : Nat) (s : State) : Res :=
  .next (if s.tstate = 4 && s.fld R.TWIN_CFG F.TWIN_CFG_SETTLE ≤ seconds then s.enterPaired else s)

/-- PAIRED is left in a standby: its exposure window begins, and its own HEALTHY ends. -/
def State.leavePaired (s : State) : State :=
  let from_ := if s.tstate = 5 && s.isStandby then some s.msc else s.twin.exposeFrom
  { s with twin := { s.twin with exposeFrom := from_, healthy := false, asked := false } }

/-! ### Health reports (R442, R443) -/

/-- The pair state follows a partner that has left PAIRED or TEST (R430, R431). -/
def State.followPartner (s : State) (t : Nat) : State :=
  if s.tstate = 5 && (t = 3 || t = 6) then s.leavePaired.setTstate t
  else if s.tstate = 4 && t = 6 then s.setTstate 6
  else if s.tstate = 6 && t = 3 then s.setTstate 3
  else s

/-- HEALTH_REPORT. -/
def execHealthReport (tstate : Fin 8) (checking healthy : Bool) (mismatches : BitVec 16) (s : State) : Res :=
  if s.tstate < 2 then .next s
  else
    let w := mismatches.toNat + tstate.val * 2 ^ 16 + (if checking then 2 ^ 30 else 0) + (if healthy then 2 ^ 31 else 0)
    let s := (s.wrN R.TWIN_HEALTH w).wrN R.TWIN_HEALTH_AGE 0
    .next ({ s with twin := { s.twin with staleRaised := false } }.followPartner tstate)

/-- REPORT_STALE: once for each age that passes 16 blocks. -/
def execReportStale (s : State) : Res :=
  let age := s.fld R.TWIN_HEALTH_AGE F.TWIN_HEALTH_AGE_BLOCKS
  .next (if 17 ≤ age && age < 0xFFFF && !s.twin.staleRaised then
      { s with twin := { s.twin with staleRaised := true } }.raise FS.TWIN_REPORT_STALE 0 0
    else s)

/-! ### Return (R449 to R451) -/

/-- The role that the strap gives the engine: 0 A, 1 B. -/
def State.role (s : State) : Nat := if s.pins.roleB then 1 else 0

/-- REVERT_REQUEST: the standby that the preference names asks for duty; `seconds` of HEALTHY without a break. -/
def execRevertRequest (seconds : Nat) (s : State) : Res :=
  .next (if s.isStandby && s.bit R.TWIN_CFG F.TWIN_CFG_REVERT && s.fld R.TWIN_CFG F.TWIN_CFG_PREFER = s.role &&
      s.tstate = 5 && s.twin.healthy && s.fld R.TWIN_CFG F.TWIN_CFG_HOLD_BACK ≤ seconds then
      { s with twin := { s.twin with asked := true } }
    else s)

/-- HANDOVER_REQUEST: the duty engine enters the HANDOVER event that the standby asks for (R451), unless R450 refuses it. -/
def execHandoverRequest (s : State) : Res :=
  .next (if s.duty && s.baseMode = .service && s.tstate = 5 then
      (s.arrive (eventOf .handover (s.msc + 9600) 255 3 0 0 0 []) 0).1
    else s)

/-! ### Link faults (R453) -/

/-- LANE_LOSS: one of two lanes is lost. -/
def execLaneLoss (lane : Fin 2) (s : State) : Res :=
  let l := s.fld R.TWIN_STATUS F.TWIN_STATUS_LANES
  if l ≠ 3 then .next s
  else
    .next (((s.setFld R.TWIN_STATUS F.TWIN_STATUS_LANES (2 - lane.val)).flag R.TWIN_FLAGS F.TWIN_FLAGS_LANE_LOSS).raise
      FS.TWIN_LANE_LOSS lane 0)

/-- The selected reference is taken up at the phase `raw` (R247). -/
def State.takeUpRef (s : State) (raw : Int) : State :=
  match s.curRef with
  | some n => s.zeroError n raw
  | none => s

/-- Both lanes are lost; the standby's Bellwether takes up its own reference. -/
def State.linkLost (s : State) (raw : Int) : State :=
  if s.tstate = 0 then s
  else
    let s := if s.isStandby && 2 ≤ s.tstate then s.takeUpRef raw else s
    let s := (s.leavePaired.setTstate 0).setFld R.TWIN_STATUS F.TWIN_STATUS_LANES 0
    let s := { s with twin := { s.twin with locked := false } }
    (s.flag R.TWIN_FLAGS F.TWIN_FLAGS_LINK_DOWN).raise FS.TWIN_LINK_DOWN 0 0

/-- BOTH_LANES_LOST. -/
def execBothLanesLost (raw : Int) (s : State) : Res := .next (s.linkLost raw)

/-! ### TWIN_CMD (R456) -/

/-- A TWIN_CMD that may not act. -/
def State.twinIgnored (s : State) : State := s.flag R.TWIN_FLAGS F.TWIN_FLAGS_WR_IGN

/-- RESYNC: COPY, SETTLE or PAIRED to COPY. -/
def State.twinResync (s : State) : State :=
  if 3 ≤ s.tstate && s.tstate ≤ 5 then s.leavePaired.setTstate 3 else s.twinIgnored

/-- RELEASE: a fault release of duty to a ready partner. -/
def State.twinRelease (s : State) : State :=
  if s.duty && s.partnerReady && s.twin.release = .none then s.startRelease .standby else s.twinIgnored

/-- A memory with the words that a self-test leaves in it. -/
def testWords {α : Type} [DecidableEq α] (d : Nat → α) (size : Nat) (f : Nat → α) (l : List (Nat × Nat)) : Sparse α :=
  l.foldl (fun m e => Sparse.set d m (e.1 % size) (f e.2)) []

/-- A bank after a self-test: memories n to n + 3 of the list. -/
def testBank (n ctr : Nat) : Bank where
  slots := testWords zeroD 1048576 (BitVec.ofNat 64) (Config.selftest n ctr)
  gains := testWords zeroW 1048576 (BitVec.ofNat 32) (Config.selftest (n + 1) ctr)
  desc := testWords zeroD 16384 (BitVec.ofNat 64) (Config.selftest (n + 2) ctr)
  dmap := testWords zeroW 8192 (BitVec.ofNat 32) (Config.selftest (n + 3) ctr)

/-- The memory test overwrites the Needle and Quilt memories (R456); what it leaves is not stated. -/
def State.selftestRuns (s : State) : State :=
  let ctr := s.freeCtr
  let s := { s with quilt := { s.quilt with live := testBank 0 ctr, baste := testBank 4 ctr } }
  let s := (List.range 64).foldl (fun (t : State) c =>
    t.setCore c { t.core c with
      pmem := testWords zeroW 16384 (BitVec.ofNat 32) (Config.selftest (8 + 3 * c) ctr),
      xmem := testWords zeroW 32768 (BitVec.ofNat 32) (Config.selftest (9 + 3 * c) ctr),
      ymem := testWords zeroW 32768 (BitVec.ofNat 32) (Config.selftest (10 + 3 * c) ctr) }) s
  ((s.bump.ccuChange 0).ccuChange 1).setTstate 6

/-- SELFTEST: in the standby, from SETTLE or PAIRED. -/
def State.twinSelftest (s : State) : State :=
  if s.isStandby && (s.tstate = 4 || s.tstate = 5) then s.leavePaired.selftestRuns else s.twinIgnored

def execTwinCmdResync (s : State) : Res := .next s.twinResync
def execTwinCmdRelease (s : State) : Res := .next s.twinRelease
def execTwinCmdSelftest (s : State) : Res := .next s.twinSelftest

/-- A word written to TWIN_CMD: two or more bits set, or none, name no command. -/
def State.twinCmd (s : State) (v : Nat) : State :=
  if v % 8 = 1 then s.twinResync else if v % 8 = 2 then s.twinRelease else if v % 8 = 4 then s.twinSelftest else s

/-- SELFTEST_END, with the test's result. -/
def execSelftestEnd (pass : Bool) (s : State) : Res :=
  .next (if s.tstate = 6 && s.isStandby then { s with twin := { s.twin with bistFail := !pass } }.setTstate 3
    else if s.tstate = 6 then s.setTstate 3 else s)

/-! ### Duty (R428, R429, R444, R445) -/

/-- DUTY_IN_DEASSERT: the deassertion is qualified. -/
def execDutyInDeassert (s : State) : Res :=
  .next (if s.pins.dutyIn then
      { s with pins := { s.pins with dutyIn := false }, twin := { s.twin with dutyLost := true } }.linesSync
    else s)

/-- Both engines assert DUTY_OUT: the role-B engine gives up duty (R444). -/
def State.dualDuty (s : State) : State :=
  let s : State := match s.mode with
    | .alarm => if s.retMode = Mode.fallback then s.setSys .alarm .fallback false s.fbRes Cause.switchOver
        else s.setSys .alarm .standby false s.fbRes Cause.switchOver
    | .fallback => s.setSys .fallback s.retMode false s.fbRes Cause.switchOver
    | _ => s.setSys .standby s.retMode false s.fbRes Cause.switchOver
  (s.flag R.TWIN_FLAGS F.TWIN_FLAGS_DUAL_DUTY).raise FS.TWIN_DUAL_DUTY 0 0

/-- DUTY_IN_ASSERT: an assertion acts at once. -/
def execDutyInAssert (s : State) : Res :=
  let s := { s with pins := { s.pins with dutyIn := true }, twin := { s.twin with dutyLost := false, byHandover := false } }
  .next (if s.duty && s.pins.roleB then s.dualDuty.linesSync else s.linesSync)

/-- Whether the engine takes duty at a takeover edge: a standby after a qualified loss of DUTY_IN, and an engine in FALLBACK,
or in ALARM that returns to it, that holds no duty while DUTY_IN is deasserted (R445, R620). -/
def State.takesDuty (s : State) : Bool :=
  !s.pins.dutyIn && !s.duty && s.twin.release = .none &&
    ((s.isStandby && s.twin.dutyLost) || decide (s.baseMode = .fallback))

/-- The engine takes duty at this edge. -/
def State.takeDuty (s : State) (raw : Int) : State :=
  let byH := s.twin.byHandover
  let cause := if byH then Cause.handover else Cause.switchOver
  let inStep := s.isStandby && 2 ≤ s.tstate
  let s :=
    if s.baseMode = .fallback then s.setSys s.mode s.retMode true s.fbRes Cause.switchOver
    else if s.mode = .alarm then s.setSys .alarm .service true s.fbRes cause
    else s.setSys .service s.retMode true s.fbRes cause
  let s := (s.wr64 R.TWIN_SWITCH_MSC_LO R.TWIN_SWITCH_MSC_HI s.msc).count R.TWIN_SWITCH_CNT
  let s := s.flag R.TWIN_FLAGS F.TWIN_FLAGS_SWITCH
  let s := s.twinRecopy
  let s := { s with twin := { s.twin with dutyLost := false, byHandover := false, exposeFrom := none, asked := false } }
  let s := if inStep then s.takeUpRef raw else s
  s.linesSync.raise (if byH then FS.TWIN_HANDOVER else FS.TWIN_SWITCHOVER) 0 0

/-- TAKEOVER: the takeover edge D, with the phase of the selected reference. -/
def execTakeover (raw : Int) (s : State) : Res := .next (if s.takesDuty then s.takeDuty raw else s)

/-- MEDIA_WATCHDOG: no media clock edge for `ns` nanoseconds (R429). -/
def execMediaWatchdog (ns : Nat) (s : State) : Res :=
  .next (if 31250 ≤ ns && s.duty then (s.setSys s.mode s.retMode false s.fbRes Cause.switchOver).linesSync else s)

end Sys2Proof.Machine
end

