-- ==== Sys2Proof/Machine/Memory.lean ====
section
/-!
DEFINITION. The address space as a bus master sees it (R40 to R45, R521, R522) and the memories behind it that hold
bytes (R541, R544, R553): boot ROM, working SRAM, Shepherd SRAM, NVS and DRAM.
-/

namespace Sys2Proof.Machine

/-- What an internal address reaches. -/
inductive Target where
  /-- boot ROM; working SRAM; Shepherd SRAM; NVS: a byte offset -/
  | rom (off : Nat) | sram (off : Nat) | shep (off : Nat) | nvs (off : Nat)
  /-- a register, by its address in the privileged view -/
  | reg (a : Nat)
  /-- bit k of the word at address a of the SYS control page -/
  | alias_ (a k : Nat)
  /-- a byte of DRAM -/
  | dram (a : Nat)
  /-- a half of a slot of the LIVE or BASTE bank: slot key, upper half -/
  | slot (live : Bool) (key : Nat) (hi : Bool)
  | unmapped
  deriving DecidableEq, Repr

/-- The register at an address of the privileged view, or R42's unused offset. -/
def regTarget (a : Nat) (priv : Bool) : Target :=
  match regSpec? a with
  | some r => if priv || !r.hidden then .reg a else .unmapped
  | none => .unmapped

/-- The target of an internal address, which is that of a 32-bit word (R40, R41, R44, R45, R521). -/
def State.target (s : State) (a : Nat) : Target :=
  if a < 0x100000 then if s.bit R.SYS_REMAP F.SYS_REMAP_REMAP then .sram a else .rom a
  else if 0x10000000 ≤ a && a < 0x10400000 then .shep (a - 0x10000000)
  else if 0x20000000 ≤ a && a < 0x22000000 then .nvs (a - 0x20000000)
  else if 0x40000000 ≤ a && a < 0x40F00000 then regTarget a true
  else if 0x41000000 ≤ a && a < 0x41020000 then
    let i := (a - 0x41000000) / 4
    .alias_ (0x40000000 + 4 * (i / 32)) (i % 32)
  else if 0x42000000 ≤ a && a < 0x42F00000 then regTarget (a - 0x02000000) false
  else if 0x80000000 ≤ a && a < 0xC0000000 then
    let b := s.fld R.SYS_DRAMPAGE F.SYS_DRAMPAGE_PAGE * 2 ^ 30 + (a - 0x80000000)
    if b < s.dramUsable then .dram b else .unmapped
  else if 0xC0000000 ≤ a && a < 0xC0800000 then .slot true ((a - 0xC0000000) / 8) (a / 4 % 2 = 1)
  else if 0xC1000000 ≤ a && a < 0xC1800000 then .slot false ((a - 0xC1000000) / 8) (a / 4 % 2 = 1)
  else .unmapped

/-- The host reaches the SYS and FAULT windows only: in FALLBACK (R43), and through BAR0 in PCIe boot (R586). -/
def State.barShut (s : State) : Bool := decide (s.mode = Mode.fallback) || decide (s.boot.stage = .waitPcie)

/-- The target as a master reaches it (R43, R522, R586). -/
def State.targetFor (s : State) (m : Master) (a : Nat) : Target :=
  let open_ (base : Nat) : Bool := !s.barShut || a / 0x100000 = base / 0x100000 || a / 0x100000 = base / 0x100000 + 11
  match m with
  | .bar0 => if a / 0x1000000 = 0x40 && open_ 0x40000000 then s.target a else .unmapped
  | .bar2 =>
    if a / 0x1000000 = 0x42 && open_ 0x42000000 && !decide (s.boot.stage = .waitPcie) then s.target a else .unmapped
  | _ => s.target a

/-! ### Memories that hold bytes -/

/-- Code of SYS_ECC_INFO.MEM of a memory target and the byte offset of the target in that memory. -/
def Target.mem : Target → Option (Nat × Nat)
  | .rom o => some (0, o)
  | .sram o => some (1, o)
  | .shep o => some (if o < 0x3C0000 then 2 else 3, o)
  | .nvs o => some (10, o)
  | .dram o => some (11, o)
  | _ => none

/-- A byte of NVS as a master reads it. -/
def Mem.nvsByte (m : Mem) (o : Nat) : Byte :=
  let b := Sparse.get zeroByte m.nvs o
  if o < 0x1000 then Config.bootRecord m.boot.pref m.boot.trial m.boot.trialCnt o b else b

/-- One byte of a memory, by its code. -/
def State.memByte (s : State) (code o : Nat) : Byte :=
  if code = 0 then Config.bootRom o
  else if code = 1 then Sparse.get zeroByte s.mem.sram o
  else if code = 2 || code = 3 then Sparse.get zeroByte s.mem.shep o
  else if code = 10 then s.mem.nvsByte o
  else if code = 11 then s.mem.dramByte o
  else 0#8

/-- One byte written; the boot ROM ignores writes. -/
def State.memPut (s : State) (code o : Nat) (v : Byte) : State :=
  let m := s.mem
  if code = 1 then { s with mem := { m with sram := Sparse.set zeroByte m.sram o v } }
  else if code = 2 || code = 3 then { s with mem := { m with shep := Sparse.set zeroByte m.shep o v } }
  else if code = 10 then { s with mem := { m with nvs := Sparse.set zeroByte m.nvs o v } }
  else if code = 11 then { s with mem := m.dramPut o v }
  else s

/-- The 64-bit word that holds an offset is poisoned (R544). -/
def State.poisoned (s : State) (code o : Nat) : Bool := s.mem.poison.contains (code, o / 8)

/-- Words that a write has replaced wholly are no longer poisoned: `n` bytes from an offset. -/
def State.unpoison (s : State) (code o n : Nat) : State :=
  { s with mem := { s.mem with poison := s.mem.poison.filter (fun e =>
      !(decide (e.1 = code) && decide (o ≤ 8 * e.2) && decide (8 * e.2 + 8 ≤ o + n))) } }

/-- The address of SYS_ECC_ADDR for a byte of a memory. -/
def memAddrOf (code o : Nat) : Nat :=
  if code = 2 || code = 3 then 0x10000000 + o else if code = 10 then 0x20000000 + o else o

/-- What a read of a poisoned word records (R544, R556). -/
def State.memUe (s : State) (code o : Nat) (m : Master) : State :=
  if code = 11 then s.dramUe m.prio o (some FS.DRAM_ECC_UE)
  else s.eccResult code m.prio false (BitVec.ofNat 32 (memAddrOf code o)) true (some (memFault code true)) 0

/-- A 32-bit word of a memory, low byte first (R11). -/
def State.memWord (s : State) (code o : Nat) : Word :=
  BitVec.ofNat 32 (ofLe ((List.range 4).map (fun j => (s.memByte code (o + j)).toNat)))

/-- A word read by a master: the data, and whether the access fails. The data of a failed access is not stated. -/
def State.memRead (s : State) (code o : Nat) (m : Master) : State × Word × Bool :=
  if s.poisoned code o then ((s.memUe code o m).bump, BitVec.ofNat 32 s.freeVal, true) else (s, s.memWord code o, false)

/-- The bytes of a 32-bit word that a bit mask covers, written. A poisoned 64-bit word stays so: half of it is new. -/
def State.memWrite (s : State) (code o v msk : Nat) : State :=
  (List.range 4).foldl (fun (t : State) j =>
    if msk / 256 ^ j % 256 = 0 then t else t.memPut code (o + j) (BitVec.ofNat 8 (v / 256 ^ j))) s

/-! ### R42 -/

/-- An access outside the map. -/
def State.unmapped (s : State) : State := s.raise FS.ADDR_UNMAPPED 0 0

end Sys2Proof.Machine
end

