-- ==== Sys2Proof/Machine/Flags.lean ====
section
/-!
DEFINITION. Arithmetic and flags of the Needle cores: saturation and wrapping (R193), rounding (R194) and the flags of
each instruction (R166, R219).
-/

namespace Sys2Proof.Machine

/-- Signed value of a `w`-bit pattern taken as a number. -/
def sgnVal (w : Nat) (v : Nat) : Int :=
  if v % 2 ^ w < 2 ^ (w - 1) then ((v % 2 ^ w : Nat) : Int) else ((v % 2 ^ w : Nat) : Int) - ((2 ^ w : Nat) : Int)

/-- The two's-complement pattern of `w` bits. -/
def pattern (w : Nat) (x : Int) : Nat := (x % ((2 ^ w : Nat) : Int)).toNat

/-- Whether an exact result lies outside the signed range of `w` bits. -/
def outOfRange (w : Nat) (x : Int) : Bool :=
  decide (x < -((2 ^ (w - 1) : Nat) : Int)) || decide (((2 ^ (w - 1) : Nat) : Int) ≤ x)

/-- R193: the value written for an exact result, clamped with SAT = 1 and wrapped with SAT = 0. -/
def fit (w : Nat) (sat : Bool) (x : Int) : Int :=
  if sat then satS w x else sgnVal w (pattern w x)

/-- R194: `x` with `n` low bits dropped under a rounding mode. -/
def dropBits (rnd n : Nat) (x : Int) : Int :=
  if n = 0 then x
  else
    let q : Int := ((2 ^ n : Nat) : Int)
    match rnd with
    | 0 => (x + ((2 ^ (n - 1) : Nat) : Int)) / q
    | 1 =>
      let f := x / q
      let r := x - f * q
      if 2 * r < q then f else if q < 2 * r then f + 1 else if f % 2 = 0 then f else f + 1
    | 2 => x / q
    | _ => if 0 ≤ x then x / q else -((-x) / q)

/-- SR.SAT, SR.RND and SR.IE (R166). -/
def srSat (sr : Word) : Bool := sr.getLsbD 5
def srRnd (sr : Word) : Nat := sr.toNat / 64 % 4
def srIe (sr : Word) : Bool := sr.getLsbD 8

/-- A flag update: the flags it sets (bit 0 Z, 1 N, 2 C, 3 V) and their values. SV is set whenever V is set. -/
structure FlagSet where
  mask : Nat
  vals : Nat
  deriving DecidableEq, Repr

def b2n (b : Bool) : Nat := if b then 1 else 0

def flagsZ (v : Int) : FlagSet := ⟨1, b2n (v = 0)⟩
def flagsZN (v : Int) : FlagSet := ⟨3, b2n (v = 0) + 2 * b2n (v < 0)⟩
def flagsZNV (v : Int) (o : Bool) : FlagSet := ⟨11, b2n (v = 0) + 2 * b2n (v < 0) + 8 * b2n o⟩
def flagsZNCV (v : Int) (c o : Bool) : FlagSet := ⟨15, b2n (v = 0) + 2 * b2n (v < 0) + 4 * b2n c + 8 * b2n o⟩
def flagsV (o : Bool) : FlagSet := ⟨8, 8 * b2n o⟩

/-- One flag number after an update. -/
def flagBit (sr : Word) (f : FlagSet) (k : Nat) : Nat :=
  if f.mask / 2 ^ k % 2 = 1 then f.vals / 2 ^ k % 2 else sr.toNat / 2 ^ k % 2

/-- SR after a flag update (R166): flags outside the mask stay, SV is set when V is set and stays otherwise. -/
def applyFlags (sr : Word) (f : FlagSet) : Word :=
  let sv := if f.mask / 8 % 2 = 1 && f.vals / 8 % 2 = 1 then 1 else sr.toNat / 16 % 2
  BitVec.ofNat 32 (sr.toNat / 32 * 32 + sv * 16 + flagBit sr f 3 * 8 + flagBit sr f 2 * 4 + flagBit sr f 1 * 2 +
    flagBit sr f 0)

/-- The bits of SR that a write takes (R166). -/
def srWrite (v : Nat) : Word := BitVec.ofNat 32 (v % 512)

/-- Whether a branch condition holds (R220); none for a reserved code. -/
def condHolds (sr : Word) (cond : Nat) : Option Bool :=
  let z := sr.getLsbD 0
  let n := sr.getLsbD 1
  let c := sr.getLsbD 2
  let v := sr.getLsbD 3
  let sv := sr.getLsbD 4
  match cond with
  | 0 => some true
  | 1 => some z
  | 2 => some (!z)
  | 3 => some n
  | 4 => some (!n)
  | 5 => some (!n && !z)
  | 6 => some (n || z)
  | 7 => some c
  | 8 => some (!c)
  | 9 => some v
  | 10 => some (!v)
  | 11 => some sv
  | _ => none

/-- NORM (R218): the bits below the sign bit that equal it. -/
def normCount (x : Word) : Nat :=
  let m := if x.getLsbD 31 then (4294967295 - x.toNat) else x.toNat
  if m = 0 then 31 else 30 - Nat.log2 m

end Sys2Proof.Machine
end

