-- ==== Sys2Proof/Machine/Operands.lean ====
section
/-!
DEFINITION. Operand forms of the Needle cores: address generation with circular buffers (R212 to R215), the memory maps
of R167 with the I/O registers of R201, and reads of registers in the pipeline (R182).
-/

namespace Sys2Proof.Machine

/-- R213: a sum of address generation under Bn and Ln. -/
def wrapSum (x : Int) (b l : Nat) : Nat :=
  if l = 0 then pattern 16 x else pattern 16 ((b : Int) + (x - (b : Int)) % (l : Int))

/-- A memory operand (R211): space (false X, true Y), an absolute address or a pointer with its mode. -/
structure MemOp where
  y : Bool
  abs : Option Nat
  pn : Nat
  am : Nat
  deriving DecidableEq, Repr

def Core.dReg (k : Core) (n : Nat) : Word := k.d.getD n 0#32
def Core.pReg (k : Core) (n : Nat) : Nat := (k.p.getD n 0#16).toNat
def Core.bReg (k : Core) (n : Nat) : Nat := (k.b.getD n 0#16).toNat
def Core.lReg (k : Core) (n : Nat) : Nat := (k.l.getD n 0#16).toNat
def Core.mReg (k : Core) (n : Nat) : Int := (k.m.getD n 0#16).toInt

/-- A sum of pointer n with a signed step (R213). -/
def Core.step (k : Core) (n : Nat) (x : Int) : Nat := wrapSum ((k.pReg n : Int) + x) (k.bReg n) (k.lReg n)

/-- The address used (R212, R215). -/
def Core.memAddr (k : Core) (o : MemOp) : Nat :=
  match o.abs with
  | some a => a
  | none => if o.am = 4 then k.step o.pn (k.mReg o.pn) else k.pReg o.pn

/-- The pointer afterwards (R212): none where it is unchanged. -/
def Core.memPost (k : Core) (o : MemOp) : Option Nat :=
  match o.abs with
  | some _ => none
  | none =>
    match o.am with
    | 1 => some (k.step o.pn 1)
    | 2 => some (k.step o.pn (-1))
    | 3 => some (k.step o.pn (k.mReg o.pn))
    | 5 => some (k.step o.pn 4)
    | 6 => some (k.step o.pn (-4))
    | _ => none

/-- The four word addresses of a quad access (R214, R215). -/
def Core.quadAddrs (k : Core) (o : MemOp) : List Nat :=
  let a := k.memAddr o
  [0, 1, 2, 3].map (fun j =>
    match o.abs with
    | some b => (b + j) % 65536
    | none => wrapSum (((a + j : Nat)) : Int) (k.bReg o.pn) (k.lReg o.pn))

/-- Whether a data access to a word traps with cause ADDR (R167, R168). -/
def badWord (y : Bool) (a : Nat) : Bool := if y then 0x8800 ≤ a else 0x8120 ≤ a

/-- The same for a quad access, which may not touch the NX registers (R215). -/
def badQuad (y : Bool) (as : List Nat) : Bool := as.any (fun a => badWord y a || (!y && 0x8100 ≤ a))

def zeroWord : Nat → Word := fun _ => 0#32

/-- Word i of the half of a stream port that the core sees (R177). -/
def SpPort.coreRead (q : SpPort) (i : Nat) : Word := Sparse.get zeroWord q.buf ((if q.own then 1024 else 0) + i)

def SpPort.coreWrite (q : SpPort) (i : Nat) (v : Word) : SpPort :=
  { q with buf := Sparse.set zeroWord q.buf ((if q.own then 1024 else 0) + i) v }

def Core.sp (k : Core) (j : Nat) : SpPort := if j = 0 then k.sp0 else k.sp1

def Core.setSp (k : Core) (j : Nat) (q : SpPort) : Core := if j = 0 then { k with sp0 := q } else { k with sp1 := q }

/-- NX_SP_CTRL as it reads (R202): GO and SWAP are write-only. -/
def SpPort.ctrl (q : SpPort) : Nat := 8 * b2n q.own + 2 * b2n q.dir

/-- BUSY: a transfer is in progress. -/
def SpPort.busy (q : SpPort) : Bool := q.job.isSome

def SpPort.stat (q : SpPort) : Nat :=
  16 * b2n q.unbound + 8 * b2n q.ovr + 4 * b2n q.err + 2 * b2n q.done + b2n q.busy

/-- A load from an I/O register of core `c` (R201, R202); other words of the range are reserved and read zero. -/
def Core.nxRead (k : Core) (c tag a : Nat) : Nat :=
  let q := k.sp (if a < 0x8118 then 0 else 1)
  if a = 0x8100 then tag
  else if a = 0x8102 then k.irqEn
  else if a = 0x8103 then k.irqPend
  else if a = 0x8104 then k.dbell.toNat
  else if a = 0x8106 then min 131071 k.cyc
  else if a = 0x8107 then c
  else if a < 0x8110 then 0
  else match a % 8 with
    | 0 => q.ctrl
    | 1 => q.len
    | 2 => q.addr % 2 ^ 32
    | 3 => q.addr / 2 ^ 32
    | 4 => q.rbase
    | 5 => q.rlen
    | 6 => q.stat
    | _ => 0

/-- The word that a data access of core `c` reads (R167). -/
def Core.readWord (k : Core) (c tag : Nat) (y : Bool) (a : Nat) : Word :=
  if y then
    if a < 0x8000 then Sparse.get zeroWord k.ymem a
    else if a < 0x8400 then k.sp0.coreRead (a - 0x8000)
    else k.sp1.coreRead (a - 0x8400)
  else
    if a < 0x8000 then Sparse.get zeroWord k.xmem a
    else if a < 0x8080 then Sparse.get zeroWord k.inF (a - 0x8000)
    else if a < 0x8100 then Sparse.get zeroWord k.outA (a - 0x8080)
    else BitVec.ofNat 32 (k.nxRead c tag a)

/-- What reading a word changes: NX_DBELL clears at a read (R202). -/
def Core.afterRead (k : Core) (y : Bool) (a : Nat) : Core :=
  if !y && a = 0x8104 then { k with dbell := 0#32 } else k

/-- A store of one word (R167, R182): memory and the output frame at once, the input frame ignored, an NX register
two cycles later. -/
def Core.writeWord (k : Core) (y : Bool) (a : Nat) (v : Word) : Core :=
  let k := { k with poison := k.poison.filter (fun e => e ≠ (if y then 2 else 1, a)) }
  if y then
    if a < 0x8000 then { k with ymem := Sparse.set zeroWord k.ymem a v }
    else if a < 0x8400 then { k with sp0 := k.sp0.coreWrite (a - 0x8000) v }
    else { k with sp1 := k.sp1.coreWrite (a - 0x8400) v }
  else
    if a < 0x8000 then { k with xmem := Sparse.set zeroWord k.xmem a v }
    else if a < 0x8080 then k
    else if a < 0x8100 then { k with outA := Sparse.set zeroWord k.outA (a - 0x8080) v }
    else { k with pend := k.pend ++ [⟨.nx a, v.toNat, 2, false, k.cyc⟩] }

/-- A read word carries an uncorrectable error (R197). -/
def Core.poisoned (k : Core) (y : Bool) (a : Nat) : Bool := k.poison.contains (if y then 2 else 1, a)

/-! ### Reads of registers in the pipeline (R182) -/

/-- An accumulator as every consumer but a MAC sees it. -/
def Core.accO (k : Core) (n : Nat) : Int := (k.acc.getD n 0#72).toInt

/-- An accumulator as a MAC into it sees it: the latest issued MAC result, whether or not it has reached the others. -/
def Core.accM (k : Core) (n : Nat) : Int :=
  match (k.pend.filter (fun e => e.mac && e.loc = .acc n)).getLast? with
  | some e => sgnVal 72 e.val
  | none => k.accO n

/-- Special register of a SPEC code (R221): none for a reserved code. -/
def specLoc (spec : Nat) : Option NLoc :=
  if spec < 0x08 then some (.p spec)
  else if spec < 0x10 then some (.b (spec - 0x08))
  else if spec < 0x18 then some (.l (spec - 0x10))
  else if spec < 0x20 then some (.m (spec - 0x18))
  else if spec = 0x20 then some .sr
  else if spec = 0x21 then some .lr
  else if spec = 0x22 then some .ipc
  else if spec = 0x23 then some .istat
  else if 0x30 ≤ spec && spec % 4 ≠ 3 && spec < 0x40 then some (.part ((spec - 0x30) / 4) (spec % 4))
  else none

/-- The word that a special register gives (R165, R221). -/
def Core.specRead (k : Core) (l : NLoc) : Word :=
  match l with
  | .p n => BitVec.ofNat 32 (k.pReg n)
  | .b n => BitVec.ofNat 32 (k.bReg n)
  | .l n => BitVec.ofNat 32 (k.lReg n)
  | .m n => BitVec.ofNat 32 (pattern 32 (k.mReg n))
  | .sr => k.sr
  | .lr => BitVec.ofNat 32 k.lr.toNat
  | .ipc => BitVec.ofNat 32 k.ipc.toNat
  | .istat => k.istat
  | .part n p =>
    let a := (k.acc.getD n 0#72).toNat
    match p with
    | 0 => BitVec.ofNat 32 a
    | 1 => BitVec.ofNat 32 (a / 2 ^ 32)
    | _ => BitVec.ofNat 32 (pattern 32 (sgnVal 8 (a / 2 ^ 64)))
  | .d n => k.dReg n
  | _ => 0#32

/-- Latency of a MOVS write (R182, R221). -/
def specLatency : NLoc → Nat
  | .p _ | .b _ | .l _ | .m _ => 3
  | .sr => 2
  | _ => 1

/-- Latency of an LDS write: that of the SPEC table, and 2 for a part of an accumulator, which R182 names. -/
def specLoadLatency : NLoc → Nat
  | .part .. => 2
  | l => specLatency l

/-- A result that becomes visible after `left` cycles. -/
def Core.post (k : Core) (l : NLoc) (v left : Nat) : Core :=
  { k with pend := k.pend ++ [⟨l, v, left, false, k.cyc⟩] }

def Core.postD (k : Core) (n : Nat) (v : Word) (left : Nat) : Core := k.post (.d n) v.toNat left

/-- A MAC result: other consumers see it three cycles later. -/
def Core.postMac (k : Core) (n : Nat) (v : Int) : Core :=
  { k with pend := k.pend ++ [⟨.acc n, pattern 72 v, 3, true, k.cyc⟩] }

/-- A flag update, seen after three cycles. -/
def Core.postFlags (k : Core) (f : FlagSet) : Core := k.post .flags (f.vals + 16 * f.mask) 3

/-- The pointer update of an access, seen by the next instruction. -/
def Core.postPtr (k : Core) (n : Nat) (v : Option Nat) : Core :=
  match v with
  | some a => k.post (.p n) a 1
  | none => k

end Sys2Proof.Machine
end

