-- ==== Sys2Proof/Machine/NeedleIsa.lean ====
section
/-!
DEFINITION. The Needle instruction set: the fields of each instruction and the decoder of R208 to R211 and R216 to R225.
A word that matches no encoding decodes to none: a reserved encoding (R209).
-/

namespace Sys2Proof.Machine

/-- The operand fields of a dual access (R211): store marks, D registers, pointers and modes of the X and Y side. -/
structure DualOp where
  xst : Bool
  xd : Nat
  xp : Nat
  xam : Nat
  yst : Bool
  yd : Nat
  yp : Nat
  yam : Nat
  deriving DecidableEq, Repr

/-- The operand fields of a quad MAC from memory. -/
structure MacmOp where
  xp : Nat
  xam : Nat
  yp : Nat
  yam : Nat
  bc : Bool
  deriving DecidableEq, Repr

/-- A decoded Needle instruction, one constructor per row of the opcode table that names one. -/
inductive NI where
  | nop | wait | waits (port : Nat) | halt
  | add (dd da db : Nat) | sub (dd da db : Nat) | neg (dd da : Nat) | abs (dd da : Nat)
  | min (dd da db : Nat) | max (dd da db : Nat) | cmp (da db : Nat)
  | and (dd da db : Nat) | or (dd da db : Nat) | xor (dd da db : Nat) | not (dd da : Nat)
  | shl (dd da sh : Nat) | shr (dd da sh : Nat) | lsr (dd da sh : Nat) | rshr (dd da sh : Nat)
  | shlv (dd da db : Nat) | shrv (dd da db : Nat) | mov (dd da : Nat) | norm (dd da : Nat)
  | addi (dd da imm : Nat) | cmpi (da imm : Nat) | ldi (dd imm : Nat) | ldi32 (dd : Nat) (imm : Word)
  | lds (spec : NLoc) (o : MemOp) | sts (spec : NLoc) (o : MemOp)
  | ld (r : Nat) (o : MemOp) | st (r : Nat) (o : MemOp)
  | ldq (r : Nat) (o : MemOp) | stq (r : Nat) (o : MemOp)
  | dls (o : DualOp) | movs (toD : Bool) (dx : Nat) (spec : NLoc)
  | seta (kind n imm : Nat) | addp (n imm : Nat)
  | mac (op an da db : Nat) | qmac (op da db : Nat) (bc : Bool) | qmacm (op : Nat) (o : MacmOp)
  | macdl (op an da db : Nat) (o : DualOp)
  | ext (dd an sh : Nat) | qext (dd sh : Nat) | qexts (dd sh : Nat) (o : MemOp)
  | aclr (an : Nat) | aadd (an as' : Nat) | asub (an as' : Nat) | amov (an as' : Nat) | aneg (an : Nat)
  | ashl (an sh : Nat) | ashr (an sh : Nat)
  | br (cond target : Nat) | call (target : Nat) | jr (dx : Nat) | ret | rti | callr (dx : Nat)
  | repImm (n : Nat) | repReg (dx : Nat)
  deriving DecidableEq, Repr

/-- Words of an instruction from its first word (R208). -/
def nWidth (w0 : Word) : Nat := if 0x30 ≤ w0.toNat / 2 ^ 26 then 2 else 1

/-- Bits [hi:lo] of a word. -/
def bits (w : Word) (hi lo : Nat) : Nat := w.toNat / 2 ^ lo % 2 ^ (hi + 1 - lo)

/-- Keeps a decoding when its fixed fields hold. -/
def guardN {α : Type} (c : Bool) (i : α) : Option α := if c then some i else none

/-- The memory operand of a MEM word (R211); none where its fixed fields or its mode are reserved. -/
def decMem (w : Word) : Option MemOp :=
  let y := bits w 19 19 = 1
  if bits w 18 18 = 0 then
    guardN (bits w 11 0 = 0 && bits w 14 12 ≠ 7) ⟨y, none, bits w 17 15, bits w 14 12⟩
  else guardN (bits w 17 16 = 0) ⟨y, some (bits w 15 0), 0, 0⟩

/-- The two accesses of a DUAL word: modes 7 are reserved, bits [3:0] are 0, two loads name different D registers. -/
def decDual (w : Word) : Option DualOp :=
  let o : DualOp := ⟨bits w 25 25 = 1, bits w 24 20, bits w 19 18, bits w 17 15, bits w 14 14 = 1, bits w 13 9,
    bits w 8 7 + 4, bits w 6 4⟩
  guardN (bits w 3 0 = 0 && o.xam ≠ 7 && o.yam ≠ 7 && !(!o.xst && !o.yst && o.xd = o.yd)) o

/-- The ALU functions of major opcode 0x01 (R218). -/
def decAlu (w : Word) : Option NI :=
  let dd := bits w 25 21
  let da := bits w 20 16
  let db := bits w 15 11
  let sh := bits w 10 6
  match bits w 5 0 with
  | 0x00 => guardN (sh = 0) (.add dd da db)
  | 0x01 => guardN (sh = 0) (.sub dd da db)
  | 0x02 => guardN (sh = 0 && db = 0) (.neg dd da)
  | 0x03 => guardN (sh = 0 && db = 0) (.abs dd da)
  | 0x04 => guardN (sh = 0) (.min dd da db)
  | 0x05 => guardN (sh = 0) (.max dd da db)
  | 0x06 => guardN (sh = 0 && dd = 0) (.cmp da db)
  | 0x08 => guardN (sh = 0) (.and dd da db)
  | 0x09 => guardN (sh = 0) (.or dd da db)
  | 0x0A => guardN (sh = 0) (.xor dd da db)
  | 0x0B => guardN (sh = 0 && db = 0) (.not dd da)
  | 0x0C => guardN (db = 0) (.shl dd da sh)
  | 0x0D => guardN (db = 0) (.shr dd da sh)
  | 0x0E => guardN (db = 0) (.lsr dd da sh)
  | 0x0F => guardN (db = 0) (.rshr dd da sh)
  | 0x10 => guardN (sh = 0) (.shlv dd da db)
  | 0x11 => guardN (sh = 0) (.shrv dd da db)
  | 0x12 => guardN (sh = 0 && db = 0) (.mov dd da)
  | 0x13 => guardN (sh = 0 && db = 0) (.norm dd da)
  | _ => none

/-- The accumulator functions of major opcode 0x15 (R224). -/
def decAcc (w : Word) : Option NI :=
  let an := bits w 25 24
  let a2 := bits w 23 22
  let sh := bits w 21 16
  if bits w 15 6 ≠ 0 then none
  else match bits w 5 0 with
    | 0x00 => guardN (a2 = 0 && sh = 0) (.aclr an)
    | 0x01 => guardN (sh = 0) (.aadd an a2)
    | 0x02 => guardN (sh = 0) (.asub an a2)
    | 0x03 => guardN (sh = 0) (.amov an a2)
    | 0x04 => guardN (a2 = 0 && sh = 0) (.aneg an)
    | 0x05 => guardN (a2 = 0) (.ashl an sh)
    | 0x06 => guardN (a2 = 0) (.ashr an sh)
    | _ => none

/-- A LD, ST, LDQ or STQ: REG is a D index, a multiple of 4 for the quad forms (R209, R211). -/
def decLdSt (quad : Bool) (w : Word) (f : Nat → MemOp → NI) : Option NI :=
  let r := bits w 25 20
  match decMem w with
  | some o => guardN (r < 32 && (!quad || r % 4 = 0)) (f r o)
  | none => none

/-- A LDS or STS: REG is a SPEC code (R211, R221). -/
def decSpec (w : Word) (f : NLoc → MemOp → NI) : Option NI :=
  match specLoc (bits w 25 20), decMem w with
  | some l, some o => some (f l o)
  | _, _ => none

/-- An instruction from its word 0 and the word that follows it (R208 to R211, R216). -/
def decodeNeedle (w w1 : Word) : Option NI :=
  match bits w 31 26 with
  | 0x00 =>
    if bits w 19 1 ≠ 0 then none
    else match bits w 25 20 with
      | 0 => guardN (bits w 0 0 = 0) .nop
      | 1 => guardN (bits w 0 0 = 0) .wait
      | 2 => some (.waits (bits w 0 0))
      | 3 => guardN (bits w 0 0 = 0) .halt
      | _ => none
  | 0x01 => decAlu w
  | 0x02 => some (.addi (bits w 25 21) (bits w 20 16) (bits w 15 0))
  | 0x03 => guardN (bits w 25 21 = 0) (.cmpi (bits w 20 16) (bits w 15 0))
  | 0x04 => guardN (bits w 20 16 = 0) (.ldi (bits w 25 21) (bits w 15 0))
  | 0x06 => decSpec w .lds
  | 0x07 => decSpec w .sts
  | 0x08 => decLdSt false w .ld
  | 0x09 => decLdSt false w .st
  | 0x0A => decLdSt true w .ldq
  | 0x0B => decLdSt true w .stq
  | 0x0C => (decDual w).map .dls
  | 0x0D =>
    match specLoc (bits w 19 14) with
    | some l => guardN (bits w 13 0 = 0) (.movs (bits w 25 25 = 1) (bits w 24 20) l)
    | none => none
  | 0x0E => guardN (bits w 20 16 = 0) (.seta (bits w 25 24) (bits w 23 21) (bits w 15 0))
  | 0x0F => guardN (bits w 20 16 = 0 && bits w 25 24 = 0) (.addp (bits w 23 21) (bits w 15 0))
  | 0x10 => guardN (bits w 11 0 = 0) (.mac (bits w 23 22) (bits w 25 24) (bits w 21 17) (bits w 16 12))
  | 0x11 =>
    guardN (bits w 25 24 = 0 && bits w 10 0 = 0 && bits w 21 17 % 4 = 0 && (bits w 11 11 = 1 || bits w 16 12 % 4 = 0))
      (.qmac (bits w 23 22) (bits w 21 17) (bits w 16 12) (bits w 11 11 = 1))
  | 0x12 =>
    guardN (bits w 25 24 = 0 && bits w 10 0 = 0 && bits w 19 17 ≠ 7 && bits w 14 12 ≠ 7)
      (.qmacm (bits w 23 22) ⟨bits w 21 20, bits w 19 17, bits w 16 15 + 4, bits w 14 12, bits w 11 11 = 1⟩)
  | 0x13 => guardN (bits w 12 0 = 0 && bits w 18 13 ≤ 40) (.ext (bits w 25 21) (bits w 20 19) (bits w 18 13))
  | 0x14 =>
    guardN (bits w 12 0 = 0 && bits w 18 13 ≤ 40 && bits w 20 19 = 0 && bits w 25 21 % 4 = 0)
      (.qext (bits w 25 21) (bits w 18 13))
  | 0x15 => decAcc w
  | 0x18 => guardN (bits w 21 14 = 0 && bits w 25 22 < 12) (.br (bits w 25 22) (bits w 13 0))
  | 0x19 => guardN (bits w 25 14 = 0) (.call (bits w 13 0))
  | 0x1A =>
    if bits w 23 21 ≠ 0 || bits w 15 0 ≠ 0 then none
    else match bits w 25 24 with
      | 0 => some (.jr (bits w 20 16))
      | 1 => guardN (bits w 20 16 = 0) .ret
      | 2 => guardN (bits w 20 16 = 0) .rti
      | _ => some (.callr (bits w 20 16))
  | 0x1C => guardN (bits w 25 16 = 0 && bits w 15 0 ≠ 0) (.repImm (bits w 15 0))
  | 0x1D => guardN (bits w 25 21 = 0 && bits w 15 0 = 0) (.repReg (bits w 20 16))
  | 0x30 => guardN (bits w 20 0 = 0) (.ldi32 (bits w 25 21) w1)
  | 0x31 =>
    match decDual w1 with
    | some o =>
      guardN (bits w 11 0 = 0 && bits w1 31 26 = 0)
        (.macdl (bits w 23 22) (bits w 25 24) (bits w 21 17) (bits w 16 12) o)
    | none => none
  | 0x32 =>
    match decMem w1 with
    | some o =>
      guardN (bits w 12 0 = 0 && bits w 18 13 ≤ 40 && bits w 20 19 = 0 && bits w 25 21 % 4 = 0 && bits w1 31 20 = 0)
        (.qexts (bits w 25 21) (bits w 18 13) o)
    | none => none
  | _ => none

/-- Flow instructions (R184). -/
def NI.isFlow : NI → Bool
  | .br .. | .call _ | .jr _ | .ret | .rti | .callr _ => true
  | _ => false

/-- Instructions forbidden in a delay slot and as the body of a REP (R184, R185). -/
def NI.noSlot : NI → Bool
  | .wait | .waits _ | .halt | .repImm _ | .repReg _ => true
  | i => i.isFlow

end Sys2Proof.Machine
end

