-- ==== Sys2Proof/Machine/NeedleCore.lean ====
section
/-!
DEFINITION. A Needle core as a sequencer: results that become visible (R182, R183), I/O register effects (R201, R202),
stream port commands (R177 to R180), traps (R197), fetch and issue with delay slots and REP (R184, R185, R208 to
R210).
-/

namespace Sys2Proof.Machine

/-- RUNNING or WAITING (R195). -/
def Core.active (k : Core) : Bool := k.st = .running || k.st = .waiting

/-! ### Results becoming visible (R182, R183) -/

/-- One result written to its place. -/
def Core.land (k : Core) (e : NPend) : Core :=
  match e.loc with
  | .d n => { k with d := k.d.setIfInBounds n (BitVec.ofNat 32 e.val) }
  | .acc n => { k with acc := k.acc.setIfInBounds n (BitVec.ofNat 72 e.val) }
  | .part n p =>
    let a := (k.acc.getD n 0#72).toNat
    let a' := match p with
      | 0 => a / 2 ^ 32 * 2 ^ 32 + e.val % 2 ^ 32
      | 1 => a / 2 ^ 64 * 2 ^ 64 + e.val % 2 ^ 32 * 2 ^ 32 + a % 2 ^ 32
      | _ => e.val % 2 ^ 8 * 2 ^ 64 + a % 2 ^ 64
    { k with acc := k.acc.setIfInBounds n (BitVec.ofNat 72 a') }
  | .p n => { k with p := k.p.setIfInBounds n (BitVec.ofNat 16 e.val) }
  | .b n => { k with b := k.b.setIfInBounds n (BitVec.ofNat 16 e.val) }
  | .l n => { k with l := k.l.setIfInBounds n (BitVec.ofNat 16 e.val) }
  | .m n => { k with m := k.m.setIfInBounds n (BitVec.ofNat 16 e.val) }
  | .flags => { k with sr := applyFlags k.sr ⟨e.val / 16, e.val % 16⟩ }
  | .sr => { k with sr := srWrite e.val }
  | .lr => { k with lr := BitVec.ofNat 14 e.val }
  | .ipc => { k with ipc := BitVec.ofNat 14 e.val }
  | .istat => { k with istat := BitVec.ofNat 32 e.val }
  | .nx _ => k

/-- One cycle passes: results with no cycle left are written in the order of issue. Answers the I/O register stores
that take effect. -/
def Core.cycle (k : Core) : Core × List NPend :=
  let due := k.pend.filter (fun e => e.left ≤ 1)
  let rest := (k.pend.filter (fun e => !(e.left ≤ 1))).map (fun e => { e with left := e.left - 1 })
  let k := { k with pend := rest, cyc := k.cyc + 1,
                    blockAge := if k.irqPend % 2 = 1 then k.blockAge + 1 else k.blockAge }
  (due.foldl Core.land k, due.filter (fun e => match e.loc with | .nx _ => true | _ => false))

/-! ### I/O registers and stream ports -/

/-- R178: the mapping of a byte address into the ring. -/
def SpJob.ring (q : SpJob) (a : Nat) : Nat :=
  if q.rlen = 0 then a % 2 ^ 34
  else
    let rb : Int := (4096 * q.rbase : Nat)
    (rb + ((a : Int) - rb) % ((4096 * q.rlen : Nat) : Int)).toNat

/-- R179: the transfer is refused. -/
def SpPort.refused (q : SpPort) (usable : Nat) : Bool :=
  q.len = 0 || 1024 < q.len ||
    (if q.rlen = 0 then usable < q.addr + 4 * q.len
     else usable < 4096 * (q.rbase + q.rlen) || q.addr < 4096 * q.rbase || 4096 * (q.rbase + q.rlen) ≤ q.addr)

/-- A port of core `c` sets ERR (R179). -/
def State.spErr (s : State) (c j : Nat) : State :=
  let k := s.core c
  ((s.setCore c (k.setSp j { k.sp j with err := true })).flag R.NEEDLE_FLAGS F.NEEDLE_FLAGS_STREAM_ERR).raise
    FS.NEEDLE_STREAM_ERR c 0

/-- GO written to NX_SP_CTRL of a port (R178 to R180). -/
def State.spGo (s : State) (c j : Nat) : State :=
  let k := s.core c
  let q := k.sp j
  if q.busy then s.setCore c (k.setSp j { q with ovr := true })
  else
    let q := { q with done := false, err := false, ovr := false, unbound := false }
    if q.refused s.dramUsable then (s.setCore c (k.setSp j q)).spErr c j
    else
      let t : SpJob := ⟨q.dir, q.len, q.addr, q.rbase, q.rlen⟩
      s.setCore c (k.setSp j { q with job := some t, started := q.started + 1, unbound := decide (2 ≤ q.started) })

/-- SWAP written to NX_SP_CTRL of a port (R177). -/
def State.spSwap (s : State) (c j : Nat) : State :=
  let k := s.core c
  let q := k.sp j
  if q.busy then s.setCore c (k.setSp j { q with ovr := true })
  else s.setCore c (k.setSp j { q with own := !q.own })

/-- NX_DONE (R173, R174): a matching tag marks the frame ready, another is counted; `cyc` is NX_CYCLE at the store. -/
def State.nxDone (s : State) (c v cyc : Nat) : State :=
  let k := s.core c
  if v % 65536 ≠ s.needle.tag then s.count (R.NEEDLE_LATE_CNT c)
  else if k.ready then s
  else
    let n := min 131071 cyc
    let s := (s.setCore c { k with ready := true, readyOnce := true }).setFld (R.NEEDLE_CYC_LAST c)
      F.NEEDLE_CYC_LAST_CYCLES n
    if s.fld (R.NEEDLE_CYC_MAX c) F.NEEDLE_CYC_MAX_CYCLES < n then
      s.setFld (R.NEEDLE_CYC_MAX c) F.NEEDLE_CYC_MAX_CYCLES n
    else s

/-- A store of a core to an I/O register takes effect (R201, R202); stores to RO registers are ignored. -/
def State.nxStore (s : State) (c a v cyc : Nat) : State :=
  let k := s.core c
  if a = 0x8101 then s.nxDone c v cyc
  else if a = 0x8102 then s.setCore c { k with irqEn := v % 16 }
  else if a = 0x8103 then s.setCore c { k with irqPend := k.irqPend - (k.irqPend &&& v) }
  else if a = 0x8105 then s.wrN (R.NEEDLE_TOHOST c) v
  else if a < 0x8110 then s
  else
    let j := if a < 0x8118 then 0 else 1
    let q := k.sp j
    match a % 8 with
    | 0 =>
      let s := s.setCore c (k.setSp j { q with dir := v / 2 % 2 = 1 })
      let s := if v / 4 % 2 = 1 then s.spSwap c j else s
      if v % 2 = 1 then s.spGo c j else s
    | 1 => s.setCore c (k.setSp j { q with len := v % 2048 })
    | 2 => s.setCore c (k.setSp j { q with addr := q.addr / 2 ^ 32 * 2 ^ 32 + v % 2 ^ 32 / 4 * 4 })
    | 3 => s.setCore c (k.setSp j { q with addr := v % 4 * 2 ^ 32 + q.addr % 2 ^ 32 })
    | 4 => s.setCore c (k.setSp j { q with rbase := v % 2 ^ 22 })
    | 5 => s.setCore c (k.setSp j { q with rlen := v % 2 ^ 22 })
    | _ => s

/-- `n` cycles of a core pass, with the effects of the I/O stores that take effect in them. -/
def State.cycles (s : State) (c : Nat) : Nat → State
  | 0 => s
  | n + 1 =>
    let r := (s.core c).cycle
    let s := r.2.foldl (fun t e => match e.loc with | .nx a => t.nxStore c a e.val e.stamp | _ => t)
      (s.setCore c r.1)
    s.cycles c n

/-- At least three cycles pass, so that nothing is left to become visible, and `n` in all are counted. -/
def State.stall (s : State) (c n : Nat) : State :=
  let s := s.cycles c (min 3 n)
  let k := s.core c
  s.setCore c { k with cyc := k.cyc + (n - 3) }

/-! ### Traps (R197) -/

def State.trapCore (s : State) (c cause : Nat) : State :=
  let k := s.core c
  let s := s.setCore c { k with st := .trapped, cause := cause, haltPc := k.pc, pend := [], flow := .none, slots := 0,
                                rep := 0, wait := .none, halting := false, haltAtClose := false, fadeOut := true }
  let s := s.setBitAt (if c < 32 then R.NEEDLE_TRAP_LO else R.NEEDLE_TRAP_HI) (c % 32) true
  let s := s.raise FS.NEEDLE_TRAP c 0
  if cause = 4 then s.raise FS.NEEDLE_ECC_UE c 0 else s

/-- The address recorded for a word of a core's memories: space (0 P, 1 X, 2 Y) and word address. -/
def needleEccAddr (c space a : Nat) : Word := Config.eccAddr 7 (2 ^ 18 * c + 2 ^ 16 * space + a)

/-- A core meets an uncorrectable word of its memories: it is recorded (R544), and the core traps (R197). -/
def State.eccTrap (s : State) (c : Nat) (addr : Word) : State := (s.eccResult 7 9 false addr true none c).trapCore c 4

/-! ### Fetch and issue -/

/-- A program word (R167): the PC wraps at 16,384. -/
def Core.fetch (k : Core) (a : Nat) : Word := Sparse.get zeroWord k.pmem (a % 16384)

/-- The source that the core takes next among those pending and enabled (R186, R187). -/
def Core.irqNext (k : Core) : Option Nat :=
  let m := k.irqPend &&& k.irqEn
  if m % 2 = 1 then some 0 else if m / 2 % 2 = 1 then some 1 else if m / 4 % 2 = 1 then some 2
  else if m / 8 % 2 = 1 then some 3 else none

/-- R188: a clean point. -/
def Core.clean (k : Core) : Bool :=
  k.st = .waiting || (k.st = .running && k.slots = 0 && k.rep = 0 && k.pend.isEmpty)

/-- R187: the core takes an interrupt here. -/
def Core.takesIrq (k : Core) : Bool := k.clean && !k.halting && srIe k.sr && k.irqNext.isSome

/-- The core issues an instruction next: it runs, has not halted, and no interrupt comes first. -/
def Core.issues (k : Core) : Bool := k.st = .running && !k.halting && !k.takesIrq

/-- What executing an instruction answers: the core with its results posted; a trap for an address outside the map; a trap
for an uncorrectable word of X (space 1) or Y (2). -/
inductive NRes where
  | ok (k : Core)
  | badAddr
  | badWord (space addr : Nat)
  deriving DecidableEq, Repr

/-- The address after the second delay slot of the instruction at the PC (R225). -/
def Core.returnAddr (k : Core) : Nat :=
  let a := k.pc + 1
  let b := a + nWidth (k.fetch a)
  (b + nWidth (k.fetch b)) % 16384

/-- Where the PC stands after an instruction (R184, R185, R208): a REP repeats, the second delay slot of a flow
instruction ends in its target. `old` is the core before the issue, `k` after execution. -/
def Core.advance (old k : Core) (w : Nat) (isRep : Bool) : Core :=
  let next := (old.pc + w) % 16384
  if isRep then
    -- a zero count skips the repeated instruction
    if k.rep = 0 then { k with pc := (next + nWidth (old.fetch next)) % 16384 } else { k with pc := next }
  else if 1 < old.rep then { k with rep := old.rep - 1 }
  else
    let k := { k with rep := 0, pc := next }
    if old.slots = 0 then k
    else if old.slots = 1 then
      match old.flow with
      | .to a => { k with pc := a % 16384, flow := .none, slots := 0 }
      | .rti => { k with pc := k.ipc.toNat, sr := srWrite k.istat.toNat, flow := .none, slots := 0 }
      | .none => { k with slots := 0 }
    else { k with slots := old.slots - 1 }

/-- Core `c` issues the instruction at its PC. `f` is the meaning of the command's instruction: it answers none when
another instruction stands at the PC, and the command is then no event of this core. An uncorrectable word and a
reserved encoding trap whatever the command. -/
def State.issue (s : State) (c : Nat) (e : Ecc) (f : NI → Core → Option NRes) : State :=
  let k := s.core c
  if !k.issues then s
  else
    match e with
    | .uncorrectable a => s.eccTrap c a
    | _ =>
      let s0 := s
      let s := match e with
        | .correctable a =>
          (s.eccResult 7 9 false a false (some FS.NEEDLE_ECC_CE) c).flag R.NEEDLE_FLAGS F.NEEDLE_FLAGS_ECC_CE
        | _ => s
      let w0 := k.fetch k.pc
      let wide := nWidth w0 = 2
      let pc1 := (k.pc + 1) % 16384
      if k.poison.contains (0, k.pc) then s.eccTrap c (needleEccAddr c 0 k.pc)
      else if wide && k.poison.contains (0, pc1) then s.eccTrap c (needleEccAddr c 0 pc1)
      else
        match decodeNeedle w0 (k.fetch (k.pc + 1)) with
        | none => s.trapCore c 1
        | some i =>
          match f i k with
          | none => s0
          | some r =>
            if i.noSlot && (k.slots ≠ 0 || k.rep ≠ 0) then s.trapCore c 2
            else match r with
              | .badAddr => s.trapCore c 3
              | .badWord space a => s.eccTrap c (needleEccAddr c space a)
              | .ok k' =>
                let isRep := match i with | .repImm _ | .repReg _ => true | _ => false
                -- WAITS stays at its own address while it stalls (R181)
                let k' := if k'.st = .waiting && k'.wait ≠ .wait then k' else Core.advance k k' (nWidth w0) isRep
                (s.setCore c k').cycles c 1

end Sys2Proof.Machine
end

