-- ==== Sys2Proof/Machine/NeedleFlow.lean ====
section
/-!
DEFINITION. The Needle system and flow instructions, interrupts and stalls (R171, R181, R184 to R191, R217, R220,
R225).
-/

namespace Sys2Proof.Machine

/-! ### System functions (R217) -/

def execAlNeedleNop (c : Fin 64) (e : Ecc) (s : State) : Res :=
  .next (s.issue c e fun i k => match i with
    | .nop => some (.ok k)
    | _ => none)

/-- R191: one cycle when an enabled source is pending, a stall otherwise. -/
def execAlWait (c : Fin 64) (e : Ecc) (s : State) : Res :=
  .next (s.issue c e fun i k => match i with
    | .wait => some (.ok (if k.irqNext.isSome then k else { k with st := .waiting, wait := .wait }))
    | _ => none)

/-- R181: a stall until the port is not BUSY; the core stays at the WAITS. -/
def execAlWaits (c : Fin 64) (e : Ecc) (s : State) : Res :=
  .next (s.issue c e fun i k => match i with
    | .waits p => some (.ok (if (k.sp p).busy then { k with st := .waiting, wait := .waits p } else k))
    | _ => none)

/-- R196, R217: no further instruction issues, and the core halts at the next window close. -/
def execAlHalt (c : Fin 64) (e : Ecc) (s : State) : Res :=
  .next (s.issue c e fun i k => match i with
    | .halt => some (.ok { k with halting := true, haltAtClose := true })
    | _ => none)

/-! ### Flow (R184, R225) -/

/-- A flow instruction has issued: two delay slots follow. -/
def Core.flowTo (k : Core) (f : NFlow) : Core := { k with flow := f }

/-- Marks the two delay slots once the PC has moved on. -/
def flowIssue (s : State) (c : Nat) (e : Ecc) (f : NI → Core → Option (Core × NFlow)) : State :=
  let t := s.issue c e fun i k => (f i k).map (fun r => .ok (r.1.flowTo r.2))
  let k := t.core c
  if k.flow ≠ .none && k.slots = 0 && k.st = .running then t.setCore c { k with slots := 2 } else t

def execAlBr (c : Fin 64) (e : Ecc) (s : State) : Res :=
  .next (flowIssue s c e fun i k => match i with
    | .br cond target =>
      -- an untaken branch has its two delay slots too: it goes on after them
      some (k, if condHolds k.sr cond = some true then .to target else .to k.returnAddr)
    | _ => none)

def execAlCall (c : Fin 64) (e : Ecc) (s : State) : Res :=
  .next (flowIssue s c e fun i k => match i with
    | .call target => some (k.post .lr k.returnAddr 1, .to target)
    | _ => none)

def execAlJr (c : Fin 64) (e : Ecc) (s : State) : Res :=
  .next (flowIssue s c e fun i k => match i with
    | .jr dx => some (k, .to ((k.dReg dx).toNat % 16384))
    | _ => none)

def execAlRet (c : Fin 64) (e : Ecc) (s : State) : Res :=
  .next (flowIssue s c e fun i k => match i with
    | .ret => some (k, .to k.lr.toNat)
    | _ => none)

def execAlRti (c : Fin 64) (e : Ecc) (s : State) : Res :=
  .next (flowIssue s c e fun i k => match i with
    | .rti => some (k, .rti)
    | _ => none)

def execAlCallr (c : Fin 64) (e : Ecc) (s : State) : Res :=
  .next (flowIssue s c e fun i k => match i with
    | .callr dx => some (k.post .lr k.returnAddr 1, .to ((k.dReg dx).toNat % 16384))
    | _ => none)

/-! ### REP (R185) -/

def execAlRepImm (c : Fin 64) (e : Ecc) (s : State) : Res :=
  .next (s.issue c e fun i k => match i with
    | .repImm n => some (.ok { k with rep := n })
    | _ => none)

def execAlRepReg (c : Fin 64) (e : Ecc) (s : State) : Res :=
  .next (s.issue c e fun i k => match i with
    | .repReg dx => some (.ok { k with rep := (k.dReg dx).toNat % 65536 })
    | _ => none)

/-! ### Interrupts and stalls (R186 to R191) -/

/-- The vector of a source (R169, R186). -/
def irqVector (src : Nat) : Nat := if src = 0 then 4 else if src = 3 then 12 else 8

/-- R189: interrupt entry at a clean point; the first vector instruction issues six cycles later. `stall` counts the
cycles that the core has stalled in WAIT or WAITS. -/
def execInterruptEntry (c : Fin 64) (stall : Nat) (s : State) : Res :=
  let k := s.core c
  match k.takesIrq, k.irqNext with
  | true, some src =>
    let s := if k.st = .waiting then s.stall c stall else s
    let k' := s.core c
    let age := if k.st = .waiting then 0 else k'.blockAge
    let s := s.setCore c { k' with ipc := BitVec.ofNat 14 k'.pc, istat := k'.sr, sr := k'.sr &&& ~~~ 0x100#32,
                                   irqPend := k'.irqPend &&& (15 - 2 ^ src), pc := irqVector src, st := .running,
                                   wait := .none, blockAge := if src = 0 then 0 else k'.blockAge }
    let s := s.stall c 6
    .next (if src = 0 && s.fld (R.NEEDLE_LAT_MAX c) F.NEEDLE_LAT_MAX_CYCLES < min 131071 (age + 6) then
      s.setFld (R.NEEDLE_LAT_MAX c) F.NEEDLE_LAT_MAX_CYCLES (min 131071 (age + 6)) else s)
  | _, _ => .next s

/-- R191: with SR.IE = 0 the core goes on after the WAIT once an enabled source is pending; with SR.IE = 1 it takes the
interrupt (INTERRUPT_ENTRY). -/
def execWaitEnd (c : Fin 64) (stall : Nat) (s : State) : Res :=
  let k := s.core c
  if k.st = .waiting && k.wait = .wait && k.irqNext.isSome && !srIe k.sr then
    .next ((s.setCore c { k with st := .running, wait := .none }).stall c stall)
  else .next s

/-- R181: the stall of a WAITS ends when its port is not BUSY; the core goes on behind it. -/
def execWaitsEnd (c : Fin 64) (stall : Nat) (s : State) : Res :=
  let k := s.core c
  match k.wait with
  | .waits p =>
    if k.st = .waiting && !(k.sp p).busy && !k.takesIrq then
      .next ((s.setCore c { k with st := .running, wait := .none, pc := (k.pc + 1) % 16384 }).stall c stall)
    else .next s
  | _ => .next s

end Sys2Proof.Machine
end

