-- ==== Sys2Proof/Machine/NeedleCtl.lean ====
section
/-!
DEFINITION. Windows, frames and the deadline of the Needle cores (R161, R162, R172 to R176), stream port transfers (R178
to R180), core commands (R195, R196, R198) and host access (R203 to R206).
-/

namespace Sys2Proof.Machine

def State.allCores (s : State) (f : State → Nat → State) : State := (List.range 64).foldl f s

/-! ### Window opening (R172, R198, R203) -/

/-- The bus samples of the block just computed for a Needle input (R162): sample n of destination channel 16·c + i. -/
def State.needleInput (s : State) (c i n : Nat) : Word :=
  let h := Sparse.get (fun _ => ([] : List Int)) s.quilt.dest (2 * 8192 + 16 * c + i)
  BitVec.ofInt 32 (h.getD (7 - n) 0)

/-- The input frame of core `c` (R172). -/
def State.inputFrame (s : State) (c : Nat) : Sparse Word :=
  (List.range 128).foldl (fun m a => Sparse.set zeroWord m a (s.needleInput c (a / 8) (a % 8))) []

/-- A host write applied (R203): X and Y below 0x8000, P below 0x4000, other addresses ignored. The word's error is
cleared (R204). -/
def Core.hostWrite (k : Core) (space addr : Nat) (v : Word) : Core :=
  let k := { k with poison := k.poison.filter (fun e => e ≠ (space, addr)) }
  match space with
  | 0 => if addr < 0x4000 then { k with pmem := Sparse.set zeroWord k.pmem addr v } else k
  | 1 => if addr < 0x8000 then { k with xmem := Sparse.set zeroWord k.xmem addr v } else k
  | 2 => if addr < 0x8000 then { k with ymem := Sparse.set zeroWord k.ymem addr v } else k
  | _ => k

/-- The registers of a stream port at their reset values; its buffer, and a transfer in progress, stay. -/
def SpPort.restart (q : SpPort) : SpPort := { buf := q.buf, job := q.job, started := q.started }

/-- Every register at its reset value, and the pipeline empty; memories and buffers stay (R164, R198). -/
def Core.restart (k : Core) : Core :=
  let z : Core := {}
  { k with d := z.d, acc := z.acc, p := z.p, b := z.b, l := z.l, m := z.m, sr := z.sr, pc := 0, lr := z.lr,
           ipc := z.ipc, istat := z.istat, pend := [], flow := .none, slots := 0, rep := 0, wait := .none,
           halting := false, haltAtClose := false, readyOnce := false, missed := false, irqEn := 0, irqPend := 0,
           dbell := 0#32, sp0 := k.sp0.restart, sp1 := k.sp1.restart }

/-- What a window opening does to a core: input buffers exchange, queued writes and doorbells act, a core in its start
window starts, then BLOCK becomes pending (R172, R198, R203). -/
def State.openCore (s : State) (c : Nat) : State :=
  let k := s.core c
  let k : Core := { k with inF := s.inputFrame c, cyc := 0, ready := false,
                           sp0 := { k.sp0 with started := 0 }, sp1 := { k.sp1 with started := 0 } }
  let due := k.queue.filter (fun w => w.left ≤ 1)
  let k : Core := due.foldl (fun k w => k.hostWrite w.space w.addr w.val) k
  let k : Core := { k with queue := (k.queue.filter (fun w => !(w.left ≤ 1))).map (fun w => { w with left := w.left - 1 }) }
  let k : Core := if k.st = .starting then
      if k.startIn ≤ 1 then { k.restart with st := .running, startIn := 0 } else { k with startIn := k.startIn - 1 }
    else k
  let rung := k.bells.filter (fun b => b.2 ≤ 1)
  let k : Core := { k with dbell := rung.foldl (fun v b => v ||| b.1) k.dbell,
                           irqPend := if rung.any (fun b => b.1 ≠ 0#32) then k.irqPend ||| 8 else k.irqPend,
                           bells := (k.bells.filter (fun b => !(b.2 ≤ 1))).map (fun b => (b.1, b.2 - 1)) }
  let age := if k.irqPend % 2 = 1 then k.blockAge else 0
  s.setCore c { k with irqPend := k.irqPend ||| 1, blockAge := age }

/-- Window k opens when the bus samples of block k have been formed (R161). -/
def execNeedleWindowOpen (s : State) : Res :=
  let s := { s with needle := { s.needle with tag := (s.msc / 8 - 1) % 65536 } }
  .next (s.allCores State.openCore)

/-! ### Window close (R173, R175, R196) -/

/-- A frame with a weight per sample: y(n) = (x·w(n) + 4) >> 3 of R175. -/
def fadeFrame (f : Sparse Word) (x : Nat → Nat) (w : Nat → Int) : Sparse Word :=
  (List.range 128).foldl (fun m a =>
    let v := (Sparse.get zeroWord f (x a)).toInt
    Sparse.set zeroWord m a (BitVec.ofInt 32 ((v * w (a % 8) + 4) / 8))) []

/-- Fade-out of the outputs from the last delivered sample of each (R175). -/
def Core.fadeOutFrame (k : Core) : Sparse Word :=
  fadeFrame k.deliver (fun a => a / 8 * 8 + 7) (fun n => 7 - (n : Int))

/-- What a window close does to a core; whether it missed the window so that an overrun counts. -/
def Core.close (k : Core) : Core × Bool :=
  let swap (k : Core) : Core := { k with outA := k.outB, outB := k.outA }
  if k.haltAtClose then
    (swap { k with deliver := k.fadeOutFrame, st := .halted, haltPc := k.pc, haltAtClose := false, halting := false,
                   pend := [], flow := .none, slots := 0, rep := 0, wait := .none, startIn := 0,
                   fadeOut := false, missed := false }, false)
  else if k.active then
    if k.ready then
      let f := if k.missed then fadeFrame k.outA (fun a => a) (fun n => (n : Int) + 1) else k.outA
      (swap { k with deliver := f, missed := false, fadeOut := false }, false)
    else if k.readyOnce then
      (swap { k with deliver := if k.missed then [] else k.fadeOutFrame, missed := true, fadeOut := false }, true)
    else (swap { k with deliver := if k.fadeOut then k.fadeOutFrame else [], fadeOut := false }, false)
  else
    -- HALTED, STARTING, TRAPPED: zero, after the fade of a stop
    ({ k with deliver := if k.fadeOut then k.fadeOutFrame else [], fadeOut := false }, false)

def State.closeCore (s : State) (c : Nat) : State :=
  let r := (s.core c).close
  let s := s.setCore c r.1
  if r.2 then
    (((s.count (R.NEEDLE_OVR_CNT c)).setBitAt (if c < 32 then R.NEEDLE_OVR_LO else R.NEEDLE_OVR_HI) (c % 32)
      true)).raise FS.NEEDLE_OVERRUN c 0
  else s

/-- Window k closes (R173, R175, R196); `cycles` is the number of core cycles counted in it. -/
def execNeedleWindowClose (cycles : BitVec 17) (s : State) : Res :=
  let s := s.setFld R.NEEDLE_WIN_CYC F.NEEDLE_WIN_CYC_CYCLES cycles.toNat
  .next (s.allCores State.closeCore)

/-! ### I/O registers as events of their own (R173, R174, R177, R178, R202) -/

/-- A core that executes stores to NX_DONE (R173, R174). -/
def execNxDoneStore (c : Fin 64) (v : Word) (s : State) : Res :=
  .next (if (s.core c).active then s.nxStore c 0x8101 v.toNat (s.core c).cyc else s)

def execNxTohostStore (c : Fin 64) (v : Word) (s : State) : Res :=
  .next (if (s.core c).active then s.nxStore c 0x8105 v.toNat (s.core c).cyc else s)

/-- The bits read are those of NX_DBELL before the read. -/
def execNxDbellRead (c : Fin 64) (s : State) : Res :=
  .next (if (s.core c).active then s.setCore c ((s.core c).afterRead false 0x8104) else s)

def execSpGo (c : Fin 64) (p : Fin 2) (s : State) : Res :=
  .next (if (s.core c).active then s.spGo c p else s)

def execSpSwap (c : Fin 64) (p : Fin 2) (s : State) : Res :=
  .next (if (s.core c).active then s.spSwap c p else s)

/-- The words of a transfer moved (R178): DRAM to the port's half, a word of `bad` as zero, or the half to DRAM. -/
def State.spMove (s : State) (c j : Nat) (t : SpJob) (bad : List Nat) : State :=
  let k := s.core c
  let q := k.sp j
  let half := if q.own then 0 else 1024
  if t.dir then
    let m := (List.range t.len).foldl
      (fun m i => m.dramPutWord (t.ring (t.addr + 4 * i)) (Sparse.get zeroWord q.buf (half + i))) s.mem
    { s with mem := m }
  else
    let b := (List.range t.len).foldl (fun b i =>
      Sparse.set zeroWord b (half + i) (if bad.contains i then 0#32 else s.mem.dramWord (t.ring (t.addr + 4 * i)))) q.buf
    s.setCore c (k.setSp j { q with buf := b })

/-- A transfer completes (R178 to R180): the words move, NX_SP_ADDR follows, DONE and the STREAM request are set. `bad`
lists the words that DRAM returned with an uncorrectable error. -/
def execSpTransferDone (c : Fin 64) (p : Fin 2) (bad : List (Fin 1024)) (s : State) : Res :=
  let j := p.val
  match ((s.core c).sp j).job with
  | none => .next s
  | some t =>
    let hit := (bad.map (·.val)).filter (fun i => i < t.len && !t.dir)
    let s := s.spMove c j t hit
    let k := s.core c
    let q := { k.sp j with job := none, done := true, addr := t.ring (t.addr + 4 * t.len) }
    let s := s.setCore c { k.setSp j q with irqPend := k.irqPend ||| 2 ^ (1 + j) }
    let s := if hit.isEmpty then s else s.spErr c j
    .next (hit.foldl (fun (u : State) i => u.dramUe 9 (t.ring (t.addr + 4 * i)) none) s)

/-! ### Core commands (R196, R198) -/

/-- CMD = RUN (R196): a halted or trapped core starts, at the second opening when paired (R198). -/
def State.needleRun (s : State) (c : Nat) : State :=
  let k := s.core c
  if k.st = .halted || k.st = .trapped then
    s.setCore c { k with st := .starting, cause := 0, startIn := if s.paired then 2 else 1 }
  else s.flag R.NEEDLE_FLAGS F.NEEDLE_FLAGS_CMD_IGN

/-- CMD = HALT (R196). -/
def State.needleHalt (s : State) (c : Nat) : State :=
  let k := s.core c
  if k.st = .halted || k.st = .trapped then s else s.setCore c { k with haltAtClose := true }

def execNeedleCtrlRun (c : Fin 64) (s : State) : Res := .next (s.needleRun c)
def execNeedleCtrlHalt (c : Fin 64) (s : State) : Res := .next (s.needleHalt c)

/-! ### Host access (R203 to R206) -/

/-- A host write of one word (R203). -/
def State.needleWrite (s : State) (c space addr : Nat) (v : Word) : State :=
  let k := s.core c
  if space = 0 then
    if k.st = .halted || k.st = .trapped then
      let k' := k.hostWrite 0 addr v
      let s' := s.setCore c k'
      if k'.pmem = k.pmem then s' else s'.ccuChange 1
    else s.flag R.NEEDLE_FLAGS F.NEEDLE_FLAGS_P_DENIED
  else if space = 3 || 0x8000 ≤ addr then s
  else if !k.active then s.setCore c (k.hostWrite space addr v)
  else if 256 ≤ k.queue.length then
    (s.flag R.NEEDLE_FLAGS F.NEEDLE_FLAGS_WQ_FULL).raise FS.NEEDLE_WQ_FULL c 0
  else s.setCore c { k with queue := k.queue ++ [⟨space, addr, v, if s.paired then 2 else 1⟩] }

/-- ADDR of NEEDLE_MEM_ADDR steps after each access with INC = 1 (R206). -/
def State.memAddrStep (s : State) (c : Nat) : State :=
  let r := R.NEEDLE_MEM_ADDR c
  if s.bit r F.NEEDLE_MEM_ADDR_INC then s.setFld r F.NEEDLE_MEM_ADDR_ADDR (s.fld r F.NEEDLE_MEM_ADDR_ADDR + 1) else s

/-- A write to NEEDLE_MEM_DATA. -/
def State.memDataWrite (s : State) (c : Nat) (v : Word) : State :=
  let r := R.NEEDLE_MEM_ADDR c
  (s.needleWrite c (s.fld r F.NEEDLE_MEM_ADDR_SPACE) (s.fld r F.NEEDLE_MEM_ADDR_ADDR) v).memAddrStep c

/-- A word as the host reads it (R203, R206): zero outside the memories. -/
def Core.hostRead (k : Core) (space addr : Nat) : Word :=
  match space with
  | 0 => if addr < 0x4000 then Sparse.get zeroWord k.pmem addr else 0#32
  | 1 => if addr < 0x8000 then Sparse.get zeroWord k.xmem addr else 0#32
  | 2 => if addr < 0x8000 then Sparse.get zeroWord k.ymem addr else 0#32
  | _ => 0#32

/-- A host read of one word: a running core stalls for one cycle (R204); an uncorrectable word completes with a bus
error (R544), and its data is not stated. Answers the word and whether the access failed. -/
def State.needleRead (s : State) (c space addr : Nat) (m : Master) (e : Ecc) : State × Word × Bool :=
  let k := s.core c
  let w := k.hostRead space addr
  let s := if k.active then s.stall c 1 else s
  match e with
  | .uncorrectable a =>
    ((s.eccResult 7 m.prio false a true (some FS.SRAM_ECC_UE) 0).bump, BitVec.ofNat 32 s.freeVal, true)
  | .correctable a =>
    ((s.eccResult 7 m.prio false a false (some FS.NEEDLE_ECC_CE) c).flag R.NEEDLE_FLAGS F.NEEDLE_FLAGS_ECC_CE, w, false)
  | .clean =>
    if k.poison.contains (space, addr) then
      let a := needleEccAddr c space addr
      ((s.eccResult 7 m.prio false a true (some FS.SRAM_ECC_UE) 0).bump, BitVec.ofNat 32 s.freeVal, true)
    else (s, w, false)

/-- A read of NEEDLE_MEM_DATA. -/
def State.memDataRead (s : State) (c : Nat) (m : Master) (e : Ecc) : State × Word × Bool :=
  let r := R.NEEDLE_MEM_ADDR c
  let t := s.needleRead c (s.fld r F.NEEDLE_MEM_ADDR_SPACE) (s.fld r F.NEEDLE_MEM_ADDR_ADDR) m e
  (t.1.memAddrStep c, t.2)

/-- The data and the error of a bus read, as the master sees them. -/
def State.busAnswer (r : State × Word × Bool) : State :=
  { r.1 with out := { r.1.out with busData := r.2.1, busErr := r.2.2 } }

def execNeedleMemWrite (c : Fin 64) (v : Word) (s : State) : Res := .next (s.memDataWrite c v)

def execNeedleMemRead (c : Fin 64) (m : Master) (e : Ecc) (s : State) : Res :=
  .next (State.busAnswer (s.memDataRead c m e))

/-- Doorbell bits written (W1S): they wait for the next opening, the second when paired (R203). -/
def State.doorbell (s : State) (c : Nat) (v : Word) : State :=
  let k := s.core c
  s.setCore c { k with bells := k.bells ++ [(v, if s.paired then 2 else 1)] }

def execNeedleDoorbellWrite (c : Fin 64) (v : Word) (s : State) : Res := .next (s.doorbell c v)

/-- NEEDLE_TOHOST reads and clears (RC). -/
def execNeedleTohostRead (c : Fin 64) (s : State) : Res :=
  let w := s.reg (R.NEEDLE_TOHOST c)
  .next (State.busAnswer (s.wrN (R.NEEDLE_TOHOST c) 0, w, false))

/-! ### Computed registers (R206) -/

def CoreState.code : CoreState → Nat
  | .halted => 0 | .starting => 1 | .running => 2 | .waiting => 3 | .trapped => 4

def Core.statusWord (k : Core) : Nat := k.haltPc % 16384 * 65536 + k.cause * 16 + k.st.code

/-- NEEDLE_RUN_LO and _HI: bit c mod 32 for a core in RUNNING or WAITING. -/
def State.runWord (s : State) (h : Nat) : Nat :=
  (List.range 32).foldl (fun v j => v + b2n (s.core (32 * h + j)).active * 2 ^ j) 0

/-- NEEDLE_DOORBELL: the bits awaiting delivery. -/
def Core.bellWord (k : Core) : Word := k.bells.foldl (fun v b => v ||| b.1) 0#32

end Sys2Proof.Machine
end

