-- ==== Sys2Proof/Machine/Pattern.lean ====
section
/-!
DEFINITION. The cycle of the BASTE bank (R136 to R140, R146 to R152, R155): CHECK, SEW, DISCARD and FORCE, the arming of a
SEW, the end of the unravel and the re-baste copy.
-/

namespace Sys2Proof.Machine

/-! ### CHECK (R136, R138, R139) -/

/-- CHECK begins for a class, with the command to answer and the SEW behind it. -/
def State.startCheck (s : State) (cls : Nat) (h : Option Hdr) (ask : Option SewAsk) : State :=
  { s with seam := { s.seam with checking := some (cls, h, ask) } }.setBstate 1

/-- Uncorrectable words found in BASTE (R120): they stay poisoned until rewritten. -/
def State.basteUe (s : State) (master : Nat) (found : List QWord) : State :=
  found.foldl (fun (t : State) w =>
    let note (t : State) : State :=
      let t := t.quiltEcc w master true
      { t with quilt := { t.quilt with ue := if t.quilt.ue.contains w then t.quilt.ue else t.quilt.ue ++ [w] } }.raise
        FS.QUILT_BASTE_UE w.tile 0
    match w with
    | .slot false _ => note t
    | .desc false _ => note t
    | .dmap false _ => note t
    | _ => t) s

/-- Status and DETAIL of a failing code of R91. -/
def chkAnswer (code : Nat) : Nat × Nat :=
  match chkStatus code with
  | .ok => (0, 0)
  | .noResource => (6, code)
  | .inconsistent => (3, code)
  | .notPermitted => (4, 3)

/-- The results of CHECK. -/
def State.chkResults (s : State) : List Byte := words [s.rd R.QUILT_CHK_RESULT, s.rd R.SEAM_CHK_CRC]

/-- The answer of the scheduler as a reply (R497). -/
def Arrival.ans : Arrival → Ans
  | .entered e => { status := 0, late := e.late, results := le 4 e.handle ++ le 8 e.fire }
  | .late => { status := 5 }
  | .rejected => { status := 2 }
  | .full => { status := 6 }

/-- A SEW has arrived at the scheduler: when entered, BASTE is ARMED for it. -/
def sewArrived (grouped : Bool) (r : State × Arrival) : State × Ans :=
  match r.2 with
  | .entered e =>
    let s := { r.1 with seam := { r.1.seam with sew := some e } }
    let s := (s.setBstate 3).setBit R.SEAM_STATUS F.SEAM_STATUS_GROUP grouped
    (s.wr64 R.SEAM_SEW_MSC_LO R.SEAM_SEW_MSC_HI e.target, r.2.ans)
  | _ => (r.1, r.2.ans)

/-- A SEW of a CHECKED bank (R136, R152, R155): entered, or refused with the bank as it was. -/
def State.enterSew (s : State) (a : SewAsk) : State × Ans :=
  if s.paired && s.seam.partnerCrc ≠ some (s.reg R.SEAM_CHK_CRC) then (s.seamBusy, { status := 1, detail := 5 })
  else if a.crc.isSome && a.crc ≠ some (s.rd R.SEAM_CHK_CRC) then (s, { status := 3 })
  else
    let grouped := a.crc.isSome
    let e := eventOf (.sew grouped) a.target a.hdr.fold a.cls a.hdr.opcode a.hdr.seq a.hdr.group []
    sewArrived grouped (s.arrive e (a.hdr.flags % 4))

/-- A CHECK in progress completes over the words read; a SEW behind a pass goes on to the scheduler (R139). -/
def State.checkDone (s : State) (found : List QWord) : State :=
  match s.seam.checking with
  | none => s
  | some (cls, h, ask) =>
    let s := (s.liveUes 9 found).basteUe 9 found
    if s.seam.checking.isNone then s
    else
      let s := { s with seam := { s.seam with checking := none } }
      let r := s.checkBank s.quilt.baste cls
      let s := s.noteCheck r (match h with | some h => h.fold | none => 0)
      if r.1 = 0 then
        let s := ((s.setBstate 2).wrN R.SEAM_CHK_CRC s.quilt.baste.crc).setFld R.SEAM_STATUS F.SEAM_STATUS_CHK_CLASS cls
        match h, ask with
        | some h, some a =>
          let r := s.enterSew a
          r.1.answer h.fold h r.2
        | some h, none => s.answer h.fold h { results := s.chkResults }
        | none, _ => s
      else
        let s := s.setBstate 0
        match h with
        | some h =>
          let c := chkAnswer r.1
          s.answer h.fold h { status := c.1, detail := c.2, results := if c.1 = 4 then [] else s.chkResults }
        | none => s

/-- CHECK_DONE: `found` are the uncorrectable words that the check has read. -/
def execCheckDone (found : List QWord) (s : State) : Res := .next (s.checkDone found)

/-! ### Arming (R63, R140) -/

/-- At a block start the SEW whose block is armed arms with it. -/
def State.armSew (s : State) : State :=
  match s.seam.sew with
  | some e =>
    if s.bstate = 3 && s.armedAt e.fire then { s with seam := { s.seam with arming := true } }.setBstate 4 else s
  | none => s

/-- SEW_ARM_CHECK_DONE. -/
def execSewArmCheckDone (s : State) : Res :=
  match s.seam.sew with
  | some e => .next (if s.seam.arming && s.bstate = 4 then (s.armCheck e).1 else s)
  | none => .next s

/-! ### Unravel and re-baste (R146, R147, R149) -/

/-- BSTATE returns to OPEN; after a swap the flag is set and the second notice follows. -/
def State.basteReturned (s : State) : State :=
  let s := s.setBstate 0
  match s.seam.sew with
  | some e =>
    let s := { s with seam := { s.seam with sew := none } }.flag R.SEAM_FLAGS F.SEAM_FLAGS_REBASTE_DONE
    s.notice e 0 0 s.msc (s.rd R.SEAM_LIVE_CRC)
  | none => s

/-- The unravel is over: the copy starts, or BASTE opens under KEEP. -/
def State.unravelOver (s : State) : State :=
  let s := { s with seam := { s.seam with outs := [] } }
  if s.seam.keep then s.basteReturned else s.setBstate 6

/-- UNRAVEL_END at E. -/
def execUnravelEnd (s : State) : Res :=
  .next (if s.bstate = 5 && s.rd64 R.SEAM_UNRAVEL_END_LO R.SEAM_UNRAVEL_END_HI ≤ s.msc then s.unravelOver else s)

/-- REBASTE_DONE: `found` are uncorrectable LIVE words that the copy has read (R148). -/
def execRebasteDone (found : List QWord) (s : State) : Res :=
  if s.bstate = 6 then
    let t := s.rebasteCopy found
    .next (if t.bstate = 6 then t.basteReturned else t)
  else .next s

/-- FORCE (R146): every outgoing stitch retires as a step. -/
def State.forceUnravel (s : State) : State :=
  let s := { s with seam := { s.seam with outs := [] } }.unravelOver
  (s.flag R.SEAM_FLAGS F.SEAM_FLAGS_FORCED).raise FS.SEAM_FORCED 0 0

/-! ### DISCARD (R136) -/

/-- DISCARD, with FORCE granted or not; answers the status and DETAIL. -/
def State.discard (s : State) (force : Bool) : State × Nat × Nat :=
  let b := s.bstate
  if b = 0 || b = 2 then ({ s with seam := { s.seam with sew := none } }.setBstate 6, 0, 0)
  else if b = 3 then
    let s := match s.seam.sew with | some e => s.cancelEvent e | none => s
    (s.setBstate 6, 0, 0)
  else if b = 4 then (s, 5, 0)
  else if b = 5 && force then (s.forceUnravel, 0, 0)
  else (s.seamBusy, 1, 5)

/-- A CHECK through SEAM_CMD on behalf of a class. -/
def execSeamCmdCheck (cls : Fin 4) (s : State) : Res :=
  .next (if s.basteOpen then s.startCheck cls.val none none else s.seamBusy)

/-- A DISCARD through SEAM_CMD without FORCE. -/
def execSeamCmdDiscard (_cls : Fin 4) (s : State) : Res := .next (s.discard false).1

/-- A DISCARD with FORCE through SEAM_CMD: below class 3 FORCE is ignored (R159). -/
def execSeamCmdForce (cls : Fin 4) (s : State) : Res := .next (s.discard (cls.val = 3)).1

end Sys2Proof.Machine
end

