-- ==== Sys2Proof/Machine/Bus.lean ====
section
/-!
DEFINITION. Writes on the internal bus (R42 to R45, R437, R438, R440, R508 to R527, R571): what a write of some bits of a
word does at every target, with the side effects of each register.
-/

namespace Sys2Proof.Machine

/-! ### Small register effects -/

/-- The mask of the bits that byte enables cover. -/
def enableMask (enable : Nat) : Nat := (List.range 4).foldl (fun x j => x + (enable / 2 ^ j % 2) * 255 * 256 ^ j) 0

/-- The byte enables that a bit mask covers. -/
def maskEnable (msk : Nat) : Nat := (List.range 4).foldl (fun x j => x + (if msk / 256 ^ j % 256 = 0 then 0 else 2 ^ j)) 0

/-- SYS_FRESH.REQ (R527): DONE is set again at the second slow-clock edge. -/
def State.freshReq (s : State) : State :=
  { s with boot := { s.boot with freshLeft := 2 } }.setBit R.SYS_FRESH F.SYS_FRESH_DONE false

/-- SYS_BOOT.CONFIRM (R585): the trial flag is cleared and the rollback count raised to the running SECVER. -/
def State.bootConfirm (s : State) : State :=
  let m := s.mem
  { s with mem := { m with boot := { m.boot with trial := false, trialCnt := 0 },
                           otp := { m.otp with rollback := max m.otp.rollback (s.fld R.SYS_BOOT F.SYS_BOOT_SECVER) } } }

/-- CCU_COMMIT (R539): the regions of the mask, by MODE. -/
def State.ccuCommit (s : State) (v : Nat) : State :=
  s.commitRegions (if F.CCU_COMMIT_MODE.of v = 0 then State.commitExplicit else State.commitMeasured)
    (F.CCU_COMMIT_REGION.of v)

/-- A write of SCHED_ANCHOR that covers GO and TB (R56, R58). -/
def State.anchorWrite (s : State) (v : Nat) (m : Master) (addr : Nat) : State :=
  let go := F.SCHED_ANCHOR_GO.of v = 1
  let tb := F.SCHED_ANCHOR_TB.of v
  if s.fld R.SCHED_STATUS F.SCHED_STATUS_STATE = 1 then
    if go || tb ≠ s.fld R.SCHED_ANCHOR F.SCHED_ANCHOR_TB then s.violate addr m 3 else s
  else
    let s := s.setFld R.SCHED_ANCHOR F.SCHED_ANCHOR_TB tb
    if go then { s with sched := { s.sched with anchorReq := true } } else s

/-- The block start at which a write of a generator register acts (R106, R110); a write from the copy acts at the
present one (R438). -/
def State.writeDue (s : State) (m : Master) : Nat := if m = .praphor then s.msc else s.lineDue

/-- A write of a generator register (R106 to R110): the register takes the value at once, but for the phase of a tone. -/
def State.genWrite (s : State) (g reg new : Nat) (m : Master) : State :=
  let a := R.QUILT_GEN_CFG g + 4 * reg
  let t := if reg = 3 && g < 64 then s else s.wrN a new
  let t := { t with quilt := { t.quilt with genPend := t.quilt.genPend ++ [⟨g, reg, new, s.writeDue m⟩] } }
  State.ccuConfigChange s t a

/-- SEAM_CMD (R136, R146, R159). -/
def State.seamCmd (s : State) (v : Nat) : State :=
  let check := F.SEAM_CMD_CHECK.of v = 1
  let disc := F.SEAM_CMD_DISCARD.of v = 1
  let cls := F.SEAM_CMD_CLASS.of v
  if check && disc then s
  else if check then (if s.basteOpen then s.startCheck cls none none else s.seamBusy)
  else if disc then (s.discard (F.SEAM_CMD_FORCE.of v = 1 && cls = 3)).1
  else s

/-- NEEDLE_CTRL.CMD (R198). -/
def State.needleCmd (s : State) (c v : Nat) : State :=
  match v % 4 with
  | 1 => s.needleRun c
  | 2 => s.needleHalt c
  | _ => s

/-- LINE_CH_CMD (R382 to R385): one bit. -/
def State.lineCmd (s : State) (n v : Nat) (m : Master) : State :=
  let x := s.lineCh n
  match v % 8 with
  | 1 => s.setLineCh n { x with cmds := x.cmds ++ [⟨true, s.writeDue m⟩] }
  | 2 => s.setLineCh n { x with cmds := x.cmds ++ [⟨false, s.writeDue m⟩] }
  | 4 => s.lineClear n
  | _ => s

/-- NET_PORT_CFG (R296): MODE and FEC keep their values while a flow that is not OFF names the port. -/
def State.netPortCfg (s : State) (p new : Nat) : State :=
  let a := R.NET_PORT_CFG p
  let old := s.rd a
  let moves := F.NET_PORT_CFG_MODE.of new ≠ F.NET_PORT_CFG_MODE.of old || F.NET_PORT_CFG_FEC.of new ≠ F.NET_PORT_CFG_FEC.of old
  if moves && s.portNamed p then s.flag R.NET_FLAGS F.NET_FLAGS_APPLY_ERR else s.wrN a new

/-! ### Drover commands (R571, R572) -/

def State.drv (s : State) (c : Nat) : DroverCh := Sparse.get (fun _ => {}) s.drover c

def State.setDrv (s : State) (c : Nat) (x : DroverCh) : State :=
  { s with drover := Sparse.set (fun _ => {}) s.drover c x }

/-- Code of DROVER_CH_STAT.STATE (R572). -/
def State.drvState (s : State) (c : Nat) : Nat := s.fld (R.DROVER_CH_STAT c) F.DROVER_CH_STAT_STATE

/-- A channel enters a state for a cause. -/
def State.drvEnter (s : State) (c st cause : Nat) : State :=
  let a := R.DROVER_CH_STAT c
  let s := (s.setFld a F.DROVER_CH_STAT_STATE st).setFld a F.DROVER_CH_STAT_CAUSE cause
  if st = 1 then s else s.setDrv c {}

/-- CMD.START: the channel fetches from DROVER_CH_DESC (R567, R572). -/
def State.droverStart (s : State) (c : Nat) : State :=
  if s.drvState c = 1 then s.flag R.DROVER_FLAGS F.DROVER_FLAGS_CMD_IGN
  else
    let s := (s.wrN (R.DROVER_CH_STAT c) 1).setDrv c
      { next := s.rd64 (R.DROVER_CH_DESC_LO c) (R.DROVER_CH_DESC_HI c) }
    (s.wrN (R.DROVER_CH_DESC_CNT c) 0).wrN (R.DROVER_CH_BYTES c) 0

/-- CMD.ABORT: acts at the next burst boundary; ignored when the channel is not RUNNING. -/
def State.droverAbort (s : State) (c : Nat) : State :=
  if s.drvState c = 1 then s.setDrv c { s.drv c with abort := true } else s

/-- Channel 15 takes writes from Shepherd only (R571). -/
def droverShut (c : Nat) (m : Master) : Bool := c = 15 && m ≠ .shepherd

/-- DROVER_CH_CMD; both bits set is a reserved encoding (R576). -/
def State.droverCmd (s : State) (c v : Nat) : State :=
  match v % 4 with
  | 1 => s.droverStart c
  | 2 => s.droverAbort c
  | _ => s

/-! ### Registers -/

/-- A WO register (R508, R511): it acts when the byte with its acting field's least significant bit is written. -/
def State.woWrite (s : State) (base i j v msk : Nat) (m : Master) (addr : Nat) : State :=
  -- an acting field in the low byte, and GO at bit 31
  let low : Bool := msk % 2 = 1
  let go : Bool := msk / 2 ^ 31 % 2 = 1 && v / 2 ^ 31 % 2 = 1
  let x := v &&& msk
  if base = R.QUILT_DLY_APPLY then (if go then s.dlyApply (F.QUILT_DLY_APPLY_TAP.of x) else s)
  else if base = R.SEAM_CMD then (if low then s.seamCmd x else s)
  else if base = R.NEEDLE_CTRL 0 then (if low then s.needleCmd i x else s)
  else if base = R.BELL_DIV_UPDATE then (if low && x % 2 = 1 then s.divUpdate else s)
  else if base = R.BELL_REF_APPLY then (if go then s.refLimitApply (F.BELL_REF_APPLY_REF.of x) else s)
  else if base = R.PTP_TB_CMD 0 then
    if low then
      let t := if F.PTP_TB_CMD_APPLY.of x = 1 then s.tbApply i else s
      if F.PTP_TB_CMD_STEP.of x = 1 then t.tbStep i else t
    else s
  else if base = R.NET_APPLY then
    (if go then s.netApply (F.NET_APPLY_DIR.of x = 1) (F.NET_APPLY_FLOW.of x) else s)
  else if base = R.PORT_APPLY then
    if go then
      let k := F.PORT_APPLY_INDEX.of x
      match F.PORT_APPLY_KIND.of x with
      | 0 => s.portApply (.arx (Fin.ofNat 32 k))
      | 1 => s.portApply (.atx (Fin.ofNat 32 k))
      | 2 => if k < 16 then s.portApply (.tdm (Fin.ofNat 16 k)) else s
      | _ => s
    else s
  else if base = R.LINE_APPLY then (if go then s.lineApply (F.LINE_APPLY_CH.of x) else s)
  else if base = R.LINE_CH_CMD 0 then (if low then s.lineCmd i x m else s)
  else if base = R.TWIN_CMD then (if low then s.twinCmd x else s)
  else if base = R.FAULT_REC_ACK then (if low && x % 2 = 1 then s.recAck else s)
  else if base = R.FAULT_SW_RAISE then (if low || msk / 256 % 2 = 1 then s.swRaise x else s)
  else if base = R.FOLD_CDB 0 then (if low then s.doorbellFold i (F.FOLD_CDB_TAIL.of x) [] else s)
  else if base = R.FOLD_KEY 0 0 then s.foldCfgWrite i (.key (Fin.ofNat 8 j)) v msk m addr
  else if base = R.CCU_COMMIT then (if low then s.ccuCommit x else s)
  else if base = R.DROVER_CH_CMD 0 then
    if droverShut i m then s.flag R.DROVER_FLAGS F.DROVER_FLAGS_CH15_IGN else if low then s.droverCmd i x else s
  else s

/-- An RW register: its stored value under R12 and R13, and what its own chapter does at a write. -/
def State.rwWrite (s : State) (r : RegSpec) (a i j v msk : Nat) (m : Master) (addr hw : Nat) : State :=
  let base := r.addr
  let old := s.rd a
  let new := rwWord r i old v msk
  let merged := mergeBits old v msk
  let plain := State.ccuConfigChange s (s.wrN a new) a
  if base = R.SYS_BGCFG then
    if msk % 256 = 0 then s
    else
      let t := plain.setBit a F.SYS_BGCFG_PENDING true
      { t with sched := { t.sched with bgPending := true } }
  else if base = R.SYS_FRESH then (if (v &&& msk) % 2 = 1 then s.freshReq else s)
  else if base = R.SYS_BOOT then (if F.SYS_BOOT_CONFIRM.of (v &&& msk) = 1 then s.bootConfirm else s)
  else if base = R.SYS_RST_CNT then s.wrN a (if hw = 0 then new else min 0xFFFFFFFF (new + 1))
  else if base = R.SCHED_ANCHOR then (if msk % 2 = 1 then s.anchorWrite v m addr else s)
  else if base = R.QUILT_METER_CFG then s.meterCfg merged
  else if base = R.QUILT_SRC_ATTR 0 then
    { plain with quilt := { plain.quilt with attrPend := plain.quilt.attrPend.filter (· ≠ i) ++ [i] } }
  else if base = R.QUILT_DLY_DELAY 0 then (if msk &&& r.wmask = 0 then s else s.dlyDelay i merged)
  else if base = R.QUILT_GEN_CFG 0 then s.genWrite i 0 new m
  else if base = R.QUILT_GEN_FREQ 0 then s.genWrite i 1 new m
  else if base = R.QUILT_GEN_LEVEL 0 then s.genWrite i 2 new m
  else if base = R.QUILT_GEN_PHSEED 0 then s.genWrite i 3 new m
  else if base = R.QUILT_DESC_BASTE 0 0 then
    s.basteWrite (.desc (Fin.ofNat 4096 i) (Fin.ofNat 8 j)) v (maskEnable msk)
  else if base = R.QUILT_DMAP_BASTE 0 then s.basteWrite (.dmap (Fin.ofNat 8192 i)) v (maskEnable msk)
  else if base = R.NEEDLE_MEM_DATA 0 then
    let ra := R.NEEDLE_MEM_ADDR i
    let cur := (s.core i).hostRead (s.fld ra F.NEEDLE_MEM_ADDR_SPACE) (s.fld ra F.NEEDLE_MEM_ADDR_ADDR)
    if msk = 0 then s else s.memDataWrite i (BitVec.ofNat 32 (mergeBits cur.toNat v msk))
  else if base = R.BELL_CTRL then
    let o := F.BELL_CTRL_OPEN.of new = 1
    let t := (State.ccuConfigChange s (s.wrN a (F.BELL_CTRL_OPEN.put new (F.BELL_CTRL_OPEN.of old))) a).syncBw
    if o = (F.BELL_CTRL_OPEN.of old = 1) then t else (t.bump).openWrite o (Config.free t.freeCtr : Nat)
  else if base = R.BELL_SEL then
    let t := State.ccuConfigChange s (s.wrN a (F.BELL_SEL_REF_SEL.put new (F.BELL_SEL_REF_SEL.of old))) a
    if msk % 2 = 1 then State.ccuConfigChange t (t.refSelWrite (F.BELL_SEL_REF_SEL.of new)) a else t
  else if base = R.BELL_FREQ then (if msk = 0 then s else s.freqWrite (BitVec.ofNat 32 merged))
  else if base = R.BELL_REF_CFG 0 then (plain.syncTbRef i).syncQtLeft i
  else if base = R.NET_PORT_CFG 0 then State.ccuConfigChange s (s.netPortCfg i new) a
  else if base = R.LINE_CTRL then State.ccuConfigChange s (s.lineCtrlWrite (BitVec.ofNat 32 merged)) a
  else if base = R.ALARM_IN_CFG 0 then s.alarmInCfg i (BitVec.ofNat 32 merged)
  else if base = R.FAULT_CTRL then plain.pinSync.pinReleased
  else if base = R.FAULT_SRC_CFG 0 then
    (plain.setBit (R.FAULT_SRC_STAT i) F.FAULT_SRC_STAT_PAR_ERR false).pinSync.pinReleased
  else if base = R.FAULT_SRC_WIN 0 || base = R.FAULT_SRC_QUIET 0 then
    plain.setBit (R.FAULT_SRC_STAT i) F.FAULT_SRC_STAT_PAR_ERR false
  else if base = R.FOLD_CTRL then
    if msk % 2 = 0 then s
    else if old % 2 = 1 && v % 2 = 0 then s.violate addr m 0
    else State.ccuConfigChange s (s.wrN a (old ||| v % 2)) a
  else if base = R.FOLD_CFG 0 then s.foldCfgWrite i .cfg v msk m addr
  else if base = R.FOLD_RING_CFG 0 then s.foldCfgWrite i .ringCfg v msk m addr
  else if base = R.FOLD_CRING_LO 0 then s.foldCfgWrite i .cringLo v msk m addr
  else if base = R.FOLD_CRING_HI 0 then s.foldCfgWrite i .cringHi v msk m addr
  else if base = R.FOLD_RRING_LO 0 then s.foldCfgWrite i .rringLo v msk m addr
  else if base = R.FOLD_RRING_HI 0 then s.foldCfgWrite i .rringHi v msk m addr
  else if base = R.FOLD_RATE 0 then s.foldRateWrite i new
  else if base = R.FOLD_RHEAD 0 then s.rheadWrite i (new % 65536) []
  else if (base = R.DROVER_CH_CFG 0 || base = R.DROVER_CH_DESC_LO 0 || base = R.DROVER_CH_DESC_HI 0) && droverShut i m then
    s.flag R.DROVER_FLAGS F.DROVER_FLAGS_CH15_IGN
  else if r.counter && hw ≠ 0 then
    match lostFlag a with
    | some e => plain.flag e.1 e.2
    | none => plain
  else plain

/-- A software write of the bits `msk` of `v` to the register at privileged address `a` (R511 to R520), with the bits or
the event that hardware writes in the same cycle (R512); `addr` is the address of the access. -/
def State.writeReg (s : State) (a v msk : Nat) (m : Master) (addr hw : Nat) : State :=
  match regSpec? a with
  | none => s
  | some r =>
    let ij := r.index a
    match r.acc with
    | .ro => s
    | .rc => s
    | .w1c => s.wrN a ((s.rd a &&& (0xFFFFFFFF - (v &&& msk &&& r.cmask))) ||| (hw &&& r.cmask))
    | .w1s => s.doorbell ij.1 (BitVec.ofNat 32 (v &&& msk))
    | .lock =>
      if msk % 2 = 0 then s
      else if s.rd a % 2 = 1 && v % 2 = 0 then s.violate addr m 0
      else s.wrN a (s.rd a ||| v % 2)
    | .once =>
      if s.boot.onceUsed.contains a then s.violate addr m 1
      else
        let s := { s with boot := { s.boot with onceUsed := a :: s.boot.onceUsed } }
        let new := mergeBits (s.rd a) v (msk &&& r.wmask)
        if a = R.ALARM_MSG_DRAM then s.msgDramStart (BitVec.ofNat 32 new) else s.wrN a new
    | .stg => s.setShadow a (BitVec.ofNat 32 (mergeBits (s.shadowOf a).toNat v (msk &&& r.wmask)))
    | .wo => s.woWrite r.addr ij.1 ij.2 v msk m addr
    | .rw => s.rwWrite r a ij.1 ij.2 v msk m addr hw

/-! ### Twin copies (R437, R438, R440) -/

/-- A register of a copied window that is no counter and no sticky flag (R437). -/
def copiedReg (a : Nat) : Bool :=
  let w := a / 0x100000
  let own := match regSpec? a with
    | some r => r.counter || decide (r.acc = .w1c)
    | none => false
  let netOwn := 0x40600100 ≤ a && a < 0x40600200 && (a % 64 = 4 || a % 64 = 8 || a % 64 = 12)
  !own && !netOwn && a ≠ R.SYS_ENGINE_ID &&
    (w = 0x400 || w = 0x401 || w = 0x402 || w = 0x403 || w = 0x404 || w = 0x406 || w = 0x407 || w = 0x408 || w = 0x409)

/-- A target whose writes the per-block copy carries. -/
def Target.copied : Target → Bool
  | .reg a => copiedReg a
  | .alias_ a _ => copiedReg a
  | .slot _ _ _ => true
  | _ => false

/-- A write acts at its target. -/
def State.putTarget (s : State) (t : Target) (v msk : Nat) (m : Master) (addr hw : Nat) : State :=
  match t with
  | .reg a => s.writeReg a v msk m addr hw
  | .alias_ a k =>
    match regSpec? a with
    | some r =>
      -- a reserved bit ignores the write (R524)
      if r.acc = .once && r.wmask / 2 ^ k % 2 = 0 then s else s.writeReg a (v % 2 * 2 ^ k) (2 ^ k) m addr hw
    | none => s
  | .slot true key hi => s.directWrite key (if hi then v * 2 ^ 32 else v) (maskEnable msk * (if hi then 16 else 1))
  | .slot false key hi =>
    s.basteWrite (.slot (Fin.ofNat 16 (key / 65536)) (Fin.ofNat 65536 key)) (if hi then v * 2 ^ 32 else v)
      (maskEnable msk * (if hi then 16 else 1))
  | .unmapped => s
  | t => match t.mem with
    | some e => s.memWrite e.1 e.2 v msk
    | none => s

/-- A write over the bus by a master; answers whether it has a bus error (R42). -/
def State.busWrite (s : State) (m : Master) (addr v msk hw : Nat) : State × Bool :=
  let addr := addr / 4 * 4
  let t := s.targetFor m addr
  if t = .unmapped then (s.unmapped, true)
  else if m = .bar0 && s.bit R.SYS_VIEW_LOCK F.SYS_VIEW_LOCK_BAR0_RO then (s.violate addr m 2, false)
  else if t.copied && s.paired && s.isStandby && m ≠ .praphor then (s.twinIgnored, false)
  else if t.copied && s.paired && s.duty then
    let n := s.twin.delta + Config.copyBytes addr
    if 65536 < n then
      -- held until the next block begins
      let s := { s with twin := { s.twin with held := s.twin.held ++ [({ master := m, addr := addr, val := v, mask := msk } : BusWrite)] } }
      ((s.flag R.TWIN_FLAGS F.TWIN_FLAGS_DELTA_FULL).raise FS.TWIN_DELTA_FULL 0 0, false)
    else ({ s with twin := { s.twin with delta := n } }.putTarget t v msk m addr hw, false)
  else (s.putTarget t v msk m addr hw, false)

/-- Held writes are served when a block begins, oldest first (R438). -/
def State.serveHeld (s : State) : State :=
  s.twin.held.foldl (fun (t : State) w => (t.busWrite w.master w.addr w.val w.mask 0).1)
    { s with twin := { s.twin with held := [] } }

/-! ### Commands -/

/-- REGISTER_WRITE: a master's write of a word with byte enables; `hw` is what hardware writes to the same register in
the same cycle. -/
def execRegisterWrite (m : Master) (addr v : Word) (enable : BitVec 4) (hw : Word) (s : State) : Res :=
  let r := s.busWrite m addr.toNat v.toNat (enableMask enable.toNat) hw.toNat
  .next { r.1 with out := { r.1.out with busErr := r.2 } }

/-- The address by which a master reaches a register: BAR2 has the unprivileged view only (R43). -/
def Master.regAddr (m : Master) (a : Nat) : Nat := if m = .bar2 then a + 0x02000000 else a

/-- A master's write of a whole register, which answers whether it has a bus error. -/
def State.writeAs (s : State) (m : Master) (a v : Nat) : State :=
  let r := s.busWrite m (m.regAddr a) v 0xFFFFFFFF 0
  { r.1 with out := { r.1.out with busErr := r.2 } }

/-- ANCHOR_GO: a write of SCHED_ANCHOR (R56, R58). -/
def execAnchorGo (m : Master) (v : Word) (s : State) : Res := .next (s.writeAs m R.SCHED_ANCHOR v.toNat)

/-- REMAP_WRITE: a write of SYS_REMAP (R45, R518, R552). -/
def execRemapWrite (m : Master) (v : Word) (s : State) : Res := .next (s.writeAs m R.SYS_REMAP v.toNat)

/-- MSG_DRAM_WRITE: a write of ALARM_MSG_DRAM (R414, R519). -/
def execMsgDramWrite (m : Master) (v : Word) (s : State) : Res := .next (s.writeAs m R.ALARM_MSG_DRAM v.toNat)

/-- FOLD_CFG_WRITE: a master's write of a configuration word of a fold (R478). -/
def execFoldCfgWrite (m : Master) (f : Fin 128) (w : FoldWord) (v : Word) (enable : BitVec 4) (s : State) : Res :=
  let r := s.busWrite m (m.regAddr (w.addr f)) v.toNat (enableMask enable.toNat) 0
  .next { r.1 with out := { r.1.out with busErr := r.2 } }

def execSysFreshReq (s : State) : Res := .next s.freshReq

/-- FRESH_DONE: `edges` slow-clock edges since the latest REQ; the second sets DONE. -/
def execFreshDone (edges : Nat) (s : State) : Res :=
  if s.boot.freshLeft ≠ 0 && s.boot.freshLeft ≤ edges then
    .next ({ s with boot := { s.boot with freshLeft := 0 } }.setBit R.SYS_FRESH F.SYS_FRESH_DONE true)
  else .next s

/-- BUS_TIMEOUT: an access of a master without a response for 20 µs (R551): a write may have taken effect, which `took`
says; a read returns 0. -/
def execBusTimeout (m : Master) (addr : Word) (write : Option (Word × BitVec 4)) (took : Bool) (s : State) : Res :=
  let s := match write with
    | some w => if took then (s.busWrite m addr.toNat w.1.toNat (enableMask w.2.toNat) 0).1 else s
    | none => s
  let s := (s.wr R.SYS_BUS_TO_ADDR addr).flag R.SYS_MEMFLAGS F.SYS_MEMFLAGS_TIMEOUT
  let s := s.raise FS.BUS_TIMEOUT m.code 0
  .next { s with out := { s.out with busData := 0#32, busErr := true } }

def execBootConfirm (s : State) : Res := .next s.bootConfirm

/-- DROVER_START: a write of DROVER_CH_CMD.START. -/
def execDroverStart (m : Master) (c : Fin 16) (s : State) : Res := .next (s.writeAs m (R.DROVER_CH_CMD c) 1)

end Sys2Proof.Machine
end

