-- ==== Sys2Proof/Machine/Committed.lean ====
section
/-!
DEFINITION. The committed configuration (R588 to R590): its record in NVS, the record that a commit writes, and what firmware
restores of it at boot.
-/

namespace Sys2Proof.Machine

/-- A valid copy of the record: ENGINE, SERIAL, BODY_CRC and its entries. -/
structure CfgRec where
  engine : Nat
  serial : Nat
  bodyCrc : Nat
  entries : List (Nat × Nat)
  deriving DecidableEq, Repr

/-- NVS offset of a copy. -/
def cfgBase (copy : Nat) : Nat := if copy = 0 then 0x1000 else 0x80800

/-- The fold whose registers hold the address. -/
def foldOfAddr (a : Nat) : Option Nat :=
  if 0x40C10000 ≤ a && a < 0x40C10000 + 128 * 128 then some ((a - 0x40C10000) / 128) else none

def isFoldKey (a : Nat) : Bool :=
  match regSpec? a with
  | some r => r.addr = R.FOLD_KEY 0 0
  | none => false

/-- A record holds a FOLD_CFG entry with CLASS = LIFE-SAFETY for the fold. -/
def lsEntry (es : List (Nat × Nat)) (f : Nat) : Bool :=
  es.any (fun e => e.1 = R.FOLD_CFG f && F.FOLD_CFG_CLASS.of e.2 = 3)

/-- What an entry of a record may name (R588). -/
def entryOk (es : List (Nat × Nat)) (e : Nat × Nat) : Bool :=
  isConfig e.1 || (isFoldKey e.1 && (match foldOfAddr e.1 with | some f => lsEntry es f | none => false))

def ascending (es : List (Nat × Nat)) : Bool := (es.zip es.tail).all (fun p => decide (p.1.1 < p.2.1))

def entriesOk (es : List (Nat × Nat)) : Bool := ascending es && es.all (entryOk es)

/-- Entries of 8 bytes. -/
def entriesOf (bs : List Byte) : List (Nat × Nat) :=
  (List.range (bs.length / 8)).map (fun i => (leAt bs 4 (8 * i), leAt bs 4 (8 * i + 4)))

def entryBytes (es : List (Nat × Nat)) : List Byte := es.flatMap (fun e => le 4 e.1 ++ le 4 e.2)

/-- A copy, when it is valid (R588). -/
def Mem.cfgRec (m : Mem) (copy : Nat) : Option CfgRec :=
  let h := m.nvsBytes (cfgBase copy) 32
  let count := leAt h 4 0x10
  if leAt h 4 0 = 0x47464343 && leAt h 2 4 = 1 && leAt h 2 6 = 0x8400 && byteAt h 8 = 0xB0 &&
      crcOf (slice h 0 0x1C) = leAt h 4 0x1C && 1 ≤ count && count ≤ 65276 then
    let body := m.nvsBytes (cfgBase copy + 32) (8 * count)
    let es := entriesOf body
    if crcOf body = leAt h 4 0x14 && entriesOk es then
      some ⟨leAt h 2 0x0A % 4096, leAt h 4 0x0C, leAt h 4 0x14, es⟩
    else none
  else none

/-- The committed configuration and its copy. -/
def Mem.committed (m : Mem) : Option (Nat × CfgRec) :=
  match m.cfgRec 0, m.cfgRec 1 with
  | some a, some b => if a.serial < b.serial then some (1, b) else some (0, a)
  | some a, none => some (0, a)
  | none, some b => some (1, b)
  | none, none => none

/-! ### CONFIG_COMMIT (R590) -/

/-- The LIFE-SAFETY fold entries of a record. -/
def CfgRec.lsEntries (r : CfgRec) : List (Nat × Nat) :=
  r.entries.filter (fun e => match foldOfAddr e.1 with | some f => lsEntry r.entries f | none => false)

/-- The entries of a new record: every CONFIG register with its active value, except the registers of LIFE-SAFETY folds,
and the fold entries given, which stand in place of an active value at their address. -/
def State.commitEntries (s : State) (folds : List (Nat × Nat)) : List (Nat × Nat) :=
  let own := configAddrs.filter (fun a =>
    (match foldOfAddr a with | some f => s.foldClass f ≠ 3 | none => true) && !folds.any (fun e => e.1 = a))
  (own.map (fun a => (a, s.configWord a)) ++ folds).mergeSort (fun x y => x.1 ≤ y.1)

/-- The record as it stands in NVS. -/
def recordBytes (engine serial : Nat) (es : List (Nat × Nat)) : List Byte :=
  let body := entryBytes es
  let h := le 4 0x47464343 ++ le 2 1 ++ le 2 0x8400 ++ le 1 0xB0 ++ le 1 0 ++ le 2 engine ++ le 4 serial ++
    le 4 es.length ++ le 4 (crcOf body) ++ le 4 0
  h ++ le 4 (crcOf h) ++ body

/-- A commit with the fold entries of its section, or with those of the committed configuration; answers the new BODY_CRC and
SERIAL, or none when the entries break R588. -/
def State.configCommit (s : State) (folds : Option (List (Nat × Nat))) : State × Option (Nat × Nat) :=
  let old := s.mem.committed
  let ls := match folds, old with
    | some l, _ => l
    | none, some r => r.2.lsEntries
    | none, none => []
  let es := s.commitEntries ls
  let section_ := folds.getD []
  let inFolds := section_.all (fun e => decide (0x40C00000 ≤ e.1) && decide (e.1 < 0x40D00000))
  if !inFolds || !ascending section_ || !entriesOk es || 65276 < es.length then (s, none)
  else
    let serial := match old with | some r => r.2.serial + 1 | none => 1
    let copy := match old with | some r => 1 - r.1 | none => 0
    let bs := recordBytes (s.rd R.SYS_ENGINE_ID % 4096) serial es
    ({ s with mem := s.mem.nvsPut (cfgBase copy) bs }, some (crcOf (entryBytes es), serial % 2 ^ 32))

/-! ### Restoring at boot (R589) -/

/-- An APPLY with its result: whether the unit's APPLY_ERR flag was not set by it. -/
def State.tryApply (s : State) (a : Nat) (f : Fld) (act : State → State) : State × Bool :=
  let was := s.bit a f
  let t := act (s.setBit a f false)
  let bad := t.bit a f
  (t.setBit a f (was || bad), !bad)

/-- One APPLY of each group that an entry names, of one unit. -/
def State.applyGroups {α : Type} (s : State) (es : List (Nat × Nat)) (groups : List (List Nat × α)) (a : Nat) (f : Fld)
    (act : α → State → State) : State × Bool :=
  groups.foldl (fun (r : State × Bool) g =>
    if es.any (fun e => g.1.contains e.1) then
      let t := r.1.tryApply a f (act g.2)
      (t.1, r.2 && t.2)
    else r) (s, true)

/-- Step 3: the groups in the order of the rows of R517. -/
def State.restoreGroups (s : State) (es : List (Nat × Nat)) : State × Bool :=
  let taps := (List.range 4096).map (fun t => ([R.QUILT_DLY_BASE t, R.QUILT_DLY_RLEN t], t))
  let refs := (List.range 16).map (fun n => ([R.BELL_REF_ACCEPT n, R.BELL_REF_REJECT n], n))
  let rx := (List.range 1024).map (fun f => (rxGroup f, f))
  let tx := (List.range 1024).map (fun f => (txGroup f, f))
  let ports := allPorts.map (fun q => (q.mainGroup ++ q.csGroup, q))
  let lines := (List.range 16).map (fun n => (lineGroup n, n))
  let r1 := s.applyGroups es taps R.QUILT_FLAGS F.QUILT_FLAGS_APPLY_ERR (fun t u => u.dlyApply t)
  let r2 := r1.1.applyGroups es [((List.range 6).map R.BELL_DIV, ())] R.BELL_FLAGS F.BELL_FLAGS_APPLY_ERR
    (fun _ u => u.divUpdate)
  let r3 := r2.1.applyGroups es refs R.BELL_FLAGS F.BELL_FLAGS_APPLY_ERR (fun n u => u.refLimitApply n)
  let r4 := r3.1.applyGroups es rx R.NET_FLAGS F.NET_FLAGS_APPLY_ERR (fun f u => u.netApply false f)
  let r5 := r4.1.applyGroups es tx R.NET_FLAGS F.NET_FLAGS_APPLY_ERR (fun f u => u.netApply true f)
  let r6 := r5.1.applyGroups es ports R.PORT_FLAGS F.PORT_FLAGS_APPLY_ERR (fun q u => u.portApply q)
  let r7 := r6.1.applyGroups es lines R.LINE_FLAGS F.LINE_FLAGS_APPLY_ERR (fun n u => u.lineApply n)
  (r7.1, r1.2 && r2.2 && r3.2 && r4.2 && r5.2 && r6.2 && r7.2)

/-- Steps 1 and 2: ENGINE and the entries, without FOLD_CTRL and with every fold disabled. -/
def State.restoreEntries (s : State) (r : CfgRec) : State :=
  let s := (s.busWrite .shepherd R.SYS_ENGINE_ID r.engine 0xFFFFFFFF 0).1
  r.entries.foldl (fun (t : State) e =>
    if e.1 = R.FOLD_CTRL then t
    else
      let v := match foldOfAddr e.1 with
        | some f => if e.1 = R.FOLD_CFG f then F.FOLD_CFG_EN.put e.2 0 else e.2
        | none => e.2
      (t.busWrite .shepherd e.1 v 0xFFFFFFFF 0).1) s

/-- R589: the committed configuration is applied, and FOLD_CTRL.LS_LOCK set. -/
def State.restoreConfig (s : State) : State :=
  match s.mem.committed with
  | none =>
    let s : State := { s with boot := { s.boot with cfgValid := false } }
    (s.setBit R.SYS_BOOT F.SYS_BOOT_CFG_ERR true).setBit R.FOLD_CTRL F.FOLD_CTRL_LS_LOCK true
  | some r =>
    let s := s.restoreEntries r.2
    let g := s.restoreGroups r.2.entries
    let s : State := { g.1 with boot := { g.1.boot with cfgValid := g.2 } }
    let s := (s.setBit R.SYS_BOOT F.SYS_BOOT_CFG_ERR (!g.2)).setFld R.SYS_BOOT F.SYS_BOOT_CFG_COPY r.1
    let s := (List.range 128).foldl (fun (t : State) f =>
      if r.2.entries.any (fun e => e.1 = R.FOLD_CFG f && F.FOLD_CFG_EN.of e.2 = 1) then
        State.ccuConfigChange t (t.enableFold f) (R.FOLD_CFG f)
      else t) s
    s.setBit R.FOLD_CTRL F.FOLD_CTRL_LS_LOCK true

end Sys2Proof.Machine
end

