-- ==== Sys2Proof/Machine/Boot.lean ====
section
/-!
DEFINITION. The end of a chip reset (R581 to R587): firmware images and their selection, the wipe of NVS, what firmware does
before the engine leaves BOOT, and the mode to which it leaves (R27, R31, R444).
-/

namespace Sys2Proof.Machine

/-! ### Firmware images (R583) -/

/-- A valid image: what the engine reports of it, and its body. -/
structure FwImage where
  fwver : Nat
  secver : Nat
  body : List Byte
  deriving DecidableEq, Repr

/-- An image, when it is valid; `read` gives bytes of its place, `sig` is the result of the signature's verification. -/
def State.image (s : State) (read : Nat → Nat → List Byte) (sig : Bool) : Option FwImage :=
  let h := read 0 128
  let len := leAt h 4 0x10
  let key := byteAt h 9
  let entry := leAt h 4 0x14
  let o := s.mem.otp
  let signed : Bool := key < 4 && o.keys / 2 ^ key % 2 = 1 && o.revoked / 2 ^ key % 2 = 0 && (o.lc ≠ 3 || key = 0) && sig
  if leAt h 4 0 = 0x57464853 && leAt h 2 4 = 1 && leAt h 2 6 = 0x8400 && byteAt h 8 = 0xB0 && len ≤ 2097024 &&
      o.rollback ≤ leAt h 2 0x0A && (o.lc = 0 || signed) && 0x10000000 ≤ entry && entry < 0x10000000 + len then
    some ⟨leAt h 4 0x0C, leAt h 2 0x0A, read 128 len⟩
  else none

/-- The body is loaded into Shepherd SRAM, and the image runs from a place: 0 slot A, 1 slot B, 2 PCIe (R583, R596). -/
def State.runImage (s : State) (x : FwImage) (slot : Nat) : State :=
  let shep := (x.body.foldl (fun (r : Sparse Byte × Nat) b => (Sparse.set zeroByte r.1 r.2 b, r.2 + 1)) (s.mem.shep, 0)).1
  let s : State := { s with mem := { s.mem with shep := shep },
                            boot := { s.boot with fwver := x.fwver, fwRuns := true, noImage := false } }
  let s := (s.setFld R.SYS_BOOT F.SYS_BOOT_SLOT_RUN slot).setFld R.SYS_BOOT F.SYS_BOOT_SECVER (x.secver % 64)
  if slot < 2 && slot ≠ s.mem.boot.pref % 2 then s.raise FS.BOOT_IMAGE_B 0 0 else s

/-- The trial count of R585 at a boot. -/
def BootRec.trialBoot (b : BootRec) : BootRec :=
  if !b.trial then b
  else if 3 ≤ b.trialCnt + 1 then { pref := 1 - b.pref % 2, trial := false, trialCnt := 0 }
  else { b with trialCnt := b.trialCnt + 1 }

/-! ### The wipe at RETURNED (R593, R594) -/

/-- NVS without the configuration area, the user area, patterns, messages and the fallback image. -/
def Mem.wipeNvs (m : Mem) : Mem :=
  let keep (a : Nat) : Bool := decide (a < 0x1000) || (decide (0x100000 ≤ a) && decide (a < 0x500000))
  { m with nvs := m.nvs.filter (fun e => keep e.1), otp := { m.otp with wiped := true },
           poison := m.poison.filter (fun e => e.1 ≠ 10 || keep (8 * e.2)) }

/-! ### Leaving BOOT (R27, R31, R444) -/

/-- The engine leaves BOOT with firmware running; a standby's exposure window begins (R436). -/
def State.leaveBoot (s : State) : State :=
  let s : State := { s with boot := { s.boot with stage := .done } }
  let run := s.boot.cfgValid && s.bit R.SYS_MODECFG F.SYS_MODECFG_AUTO_RUN
  let duty := !s.pins.dutyIn
  let m : Mode := if !run then .commission else if duty then .service else .standby
  let s : State := if s.activeInputs.isEmpty then s.setSys m s.retMode duty false Cause.firmware
    else s.bootAlarm m duty false
  let s : State := if m = .standby then { s with twin := { s.twin with exposeFrom := some s.msc } } else s
  s.linesSync.pinSync.pinReleased

/-- No image is valid (R582, R587): FALLBACK when the fallback image is valid, else BOOT goes on, and PCIe boot with
it. BOOTSEL codes 2 and 3 name PCIe as the image's source, and the engine waits for it. -/
def State.leaveNoImage (s : State) : State :=
  let pcie := s.pins.bootsel % 8 = 2 || s.pins.bootsel % 8 = 3
  let s : State := { s with boot := { s.boot with noImage := true } }
  if pcie || !s.boot.fbValid then { s with boot := { s.boot with stage := .waitPcie } }
  else if s.pins.roleB && !s.pins.dutyIn then { s with boot := { s.boot with stage := .waitRoleB } }
  else s.bootFallback Cause.noImage

/-- Steps 6 to 8 of R581; `trained` is the result of the training of DRAM. -/
def State.firmwareBoot (s : State) (trained : Bool) : State :=
  let s := if trained then
      (s.setBit R.SYS_DRAM_STAT F.SYS_DRAM_STAT_TRAINED true).setFld R.SYS_DRAM_STAT F.SYS_DRAM_STAT_USABLE s.mem.dramFit
    else s
  let s : State := s.cachePatterns.noteSlots
  let s : State := { s with boot := { s.boot with fbValid := s.fallbackImage.isSome } }
  let s := s.restoreConfig
  if s.mode ≠ .boot || s.boot.stage = .waitRoleB then s
  else if s.pins.roleB && !s.pins.dutyIn then { s with boot := { s.boot with stage := .waitRoleB } }
  else s.leaveBoot

/-! ### Commands -/

/-- The steps of R581 that need no image: straps, fuses, the wipe and the trial count. -/
def State.romStart (s : State) : State :=
  let m := if s.mem.otp.lc = 3 && !s.mem.otp.wiped then s.mem.wipeNvs else s.mem
  let s : State := { s with mem := { m with boot := m.boot.trialBoot } }
  let s := s.wrN R.SYS_AVS (min 30 s.mem.otp.avs)
  let code := s.pins.bootsel % 8
  (s.setBit R.SYS_BOOT F.SYS_BOOT_STRAP_ERR (4 ≤ code)).setFld R.SYS_BOOT F.SYS_BOOT_SLOT_RUN 3

/-- RESET_END: the boot sequence. `flash` holds slots A and B of the QSPI flash, `sig` the results of verifying the signatures of
the images in slots A and B of the source, `trained` that of the training of DRAM. -/
def execResetEnd (flash : List Byte × List Byte) (sig : Bool × Bool) (trained : Bool) (s : State) : Res :=
  if s.mode ≠ .boot || s.boot.stage ≠ .reset || s.pins.resetLow || !s.pins.xinOk || !s.pins.railsOk then .next s
  else
    let s := s.romStart
    let code := s.pins.bootsel % 8
    let read (slot a n : Nat) : List Byte :=
      if code = 1 then slice (if slot = 0 then flash.1 else flash.2) a n
      else s.mem.nvsBytes (if slot = 0 then 0x100000 + a else 0x300000 + a) n
    let try_ (slot : Nat) : Option (Nat × FwImage) :=
      (s.image (read slot) (if slot = 0 then sig.1 else sig.2)).map (fun x => (slot, x))
    let first := s.mem.boot.pref % 2
    let found := if code = 2 then none else
      match try_ first with
      | some r => some r
      | none => try_ (1 - first)
    match found with
    | some r => .next ((s.runImage r.2 r.1).firmwareBoot trained)
    | none =>
      let s : State := { s with boot := { s.boot with fbValid := s.fallbackImage.isSome } }
      .next s.leaveNoImage

/-- BOOT_GO: the image that Drover has read at SYS_BOOT_HADDR, none after a bus error. -/
def execBootGo (image : Option (List Byte)) (sig trained : Bool) (s : State) : Res :=
  if s.mode ≠ .boot || s.boot.stage ≠ .waitPcie then .next s
  else
    match image with
    | some bs =>
      match s.image (slice bs) sig with
      | some x =>
        .next ((s.runImage x 2).firmwareBoot trained)
      | none => .next (s.setBit R.SYS_BOOT F.SYS_BOOT_IMG_ERR true)
    | none => .next (s.setBit R.SYS_BOOT F.SYS_BOOT_IMG_ERR true)

/-- ROLE_B_WAIT_END: `samples` spent in the wait. R27 is applied again, with DUTY_IN as it stands. -/
def execRoleBWaitEnd (samples : Nat) (s : State) : Res :=
  if s.mode ≠ .boot || s.boot.stage ≠ .waitRoleB || samples < 96 then .next s
  else
    match s.boot.cond with
    | some c => .next (if s.pins.dutyIn then s.chipReset 4 c.2 else s.bootFallback c.1)
    | none => .next (if s.boot.noImage then s.bootFallback Cause.noImage else s.leaveBoot)

end Sys2Proof.Machine
end

