-- ==== Sys2Proof/Machine/BusRead.lean ====
section
/-!
DEFINITION. Reads on the internal bus (R42 to R44, R61, R508, R511, R524, R544): the value of every register, those
that hardware derives included, and the effect of the reads that have one.
-/

namespace Sys2Proof.Machine

/-! ### Derived registers -/

/-- One bit of a number, in place. -/
def putBit (b : Bool) (k : Nat) : Nat := if b then 2 ^ k else 0

/-- TWIN_STATUS (R455). -/
def State.twinStatus (s : State) : Nat :=
  F.TWIN_STATUS_LANES.mask &&& s.rd R.TWIN_STATUS ||| s.tstate * 2 ^ 16 ||| putBit s.pins.roleB 31 |||
    putBit s.pins.dutyIn 30 ||| putBit s.duty 29 ||| putBit s.partnerReady 12 ||| putBit (s.isStandby && s.tstate = 5) 11

/-- DROVER_STATUS.RUN. -/
def State.droverStatus (s : State) : Nat :=
  (List.range 16).foldl (fun v c => v + putBit (decide (s.drvState c = 1)) c) 0

/-- SYS_BOOT: the preferred slot and the trial flag are those of the boot record. -/
def State.bootWord (s : State) : Nat :=
  F.SYS_BOOT_TRIAL.put (F.SYS_BOOT_PREF.put (s.rd R.SYS_BOOT) s.mem.boot.pref) (b2n s.mem.boot.trial)

/-- SYS_LC (R591). -/
def State.lcWord (s : State) : Nat := s.mem.otp.lc % 4 * 2 ^ 16 + s.mem.otp.rollback % 64

/-- A 32-bit word of a descriptor of a bank (R83). -/
def Bank.descWord (k : Bank) (i j : Nat) : Nat :=
  let x := (Sparse.get zeroD k.desc (4 * i + j / 2)).toNat
  if j % 2 = 1 then x / 2 ^ 32 else x % 2 ^ 32

/-- Registers of the SYS, SEAM and QUILT windows that hardware derives. -/
def State.viewA (s : State) (base i j : Nat) : Option Nat :=
  if base = R.SYS_BOOT then some s.bootWord
  else if base = R.SYS_LC then some s.lcWord
  else if base = R.SYS_STRAP then some (s.pins.bootsel % 8 + putBit s.pins.roleB 4)
  else if base = R.SYS_IOBANK then some (s.pins.v33 % 64)
  else if base = R.SYS_REPAIR then some (min 65535 s.mem.otp.repaired + putBit s.mem.otp.spareLow 16)
  else if base = R.SCHED_STATUS then some s.schedStatus
  else if base = R.SCHED_MSC_LO then some (s.msc % 2 ^ 32)
  else if base = R.SCHED_MSC_HI then some (s.msc / 2 ^ 32 % 2 ^ 32)
  else if base = R.SCHED_NEXT_LO then some (s.schedNext % 2 ^ 32)
  else if base = R.SCHED_NEXT_HI then some (s.schedNext / 2 ^ 32 % 2 ^ 32)
  else if base = R.QUILT_STATUS then some (putBit s.soloActive 1 + putBit (decide (s.bstate = 4)) 0)
  else if base = R.QUILT_TILE_CNT 0 then some (s.quilt.live.load i)
  else if base = R.QUILT_SRC_ATTR 0 then some (s.rd (R.QUILT_SRC_ATTR i) ||| putBit (s.active i (s.msc - 1)) 0)
  else if base = R.QUILT_DESC_LIVE 0 0 then some (s.quilt.live.descWord i j)
  else if base = R.QUILT_DESC_BASTE 0 0 then some (s.quilt.baste.descWord i j)
  else if base = R.QUILT_DMAP_LIVE 0 then some (Sparse.get zeroW s.quilt.live.dmap i).toNat
  else if base = R.QUILT_DMAP_BASTE 0 then some (Sparse.get zeroW s.quilt.baste.dmap i).toNat
  else if base = R.SEAM_RAMP_CNT then some s.rampCount
  else if base = R.SEAM_OUT_CNT then some s.seam.outs.length
  else none

/-- Registers of the other windows that hardware derives. -/
def State.viewB (s : State) (base i : Nat) : Option Nat :=
  let k := s.core i
  let t := s.tb i
  if base = R.NEEDLE_RUN_LO then some (s.runWord 0)
  else if base = R.NEEDLE_RUN_HI then some (s.runWord 1)
  else if base = R.NEEDLE_STATUS 0 then some k.statusWord
  else if base = R.NEEDLE_DOORBELL 0 then some k.bellWord.toNat
  else if base = R.NEEDLE_WQ_STAT 0 then some (min 511 k.queue.length)
  else if base = R.PTP_TB_TIME_NS 0 then some (t.time % secUnit / nsUnit)
  else if base = R.PTP_TB_TIME_SEC_LO 0 then some (t.shown / secUnit % 2 ^ 32)
  else if base = R.PTP_TB_TIME_SEC_HI 0 then some (t.shown / secUnit / 2 ^ 32 % 2 ^ 16)
  else if base = R.PTP_TB_TIME_FRAC 0 then some (t.shown % nsUnit / 2 ^ 16)
  else if base = R.PTP_TB_MAP_NS_LO 0 then some (wrapN 32 (t.map / 65536))
  else if base = R.PTP_TB_MAP_NS_HI 0 then some (wrapN 64 (t.shownMap / 65536) / 2 ^ 32)
  else if base = R.PTP_TB_MAP_FRAC 0 then some (wrapN 16 t.shownMap)
  else if base = R.NET_STATUS then some s.netStatus
  else if base = R.NET_FLOCK_STAT 0 then some (s.flockWord i)
  else if base = R.LINE_STATUS then some s.lineStatus
  else if base = R.ALARM_STATUS then some s.alarmStatus
  else if base = R.ALARM_PLY_STAT 0 then some (s.playerStatus i)
  else if base = R.ALARM_PLY_POS 0 then some (s.playerPos i)
  else if base = R.TWIN_STATUS then some s.twinStatus
  else if base = R.FAULT_STATUS then some s.faultStatus
  else if base = R.CCU_STATUS then some (F.CCU_STATUS_COMMITTED.put (s.rd R.CCU_STATUS) (b2n s.ccuCommitted))
  else if base = R.DROVER_STATUS then some s.droverStatus
  else none

/-- The value of the register at privileged address `a` (R511): WO registers read zero, staged ones their active value. -/
def State.view (s : State) (a : Nat) : Word :=
  match regSpec? a with
  | none => 0#32
  | some r =>
    let ij := r.index a
    if r.acc = .wo then 0#32
    else match s.viewA r.addr ij.1 ij.2 with
      | some v => BitVec.ofNat 32 v
      | none => match s.viewB r.addr ij.1 with
        | some v => BitVec.ofNat 32 v
        | none => s.reg a

/-! ### 64-bit pairs (R61) -/

/-- First addresses of the rows of _LO words that are read under R61. -/
def pairRows : List Nat :=
  [R.SCHED_MSC_LO, R.SCHED_NEXT_LO, R.QUILT_DWR_MSC_LO, R.SEAM_SEW_MSC_LO, R.SEAM_UNRAVEL_END_LO, R.BELL_PHASE_OFS_LO,
   R.NET_RXF_K_LO 0, R.NET_TXF_K_LO 0, R.NET_FLOCK_MSC_LO 0, R.ALARM_ENTRY_MSC_LO, R.TWIN_SWITCH_MSC_LO,
   R.FAULT_REC_MSC_LO, R.CCU_DEADLINE_LO 0, R.DROVER_ERR_ADDR_LO, R.DROVER_CH_CUR_LO 0]

/-- The register at `a` is the _LO word of a pair; its _HI word follows it. -/
def isPairLo (a : Nat) : Bool :=
  match regSpec? a with
  | some r => pairRows.contains r.addr
  | none => false

/-! ### Reads -/

/-- A read of a register, with the effect that some reads have. -/
def State.readReg (s : State) (a : Nat) (m : Master) : State × Word × Bool :=
  match regSpec? a with
  | none => (s, 0#32, true)
  | some r =>
    let i := (r.index a).1
    let w := s.view a
    if r.addr = R.QUILT_METER_PEAK 0 then
      let p := s.meterPeak i
      (p.2, p.1, false)
    else if r.addr = R.NEEDLE_TOHOST 0 then (s.wrN a 0, w, false)
    else if r.addr = R.NEEDLE_MEM_DATA 0 then s.memDataRead i m .clean
    else if r.addr = R.PTP_TB_TIME_NS 0 then ((s.tbTimeRead i).1, (s.tbTimeRead i).2, false)
    else if r.addr = R.PTP_TB_MAP_NS_LO 0 then ((s.tbMapRead i).1, (s.tbMapRead i).2, false)
    else if r.addr = R.PTP_TXTS_HEAD 0 then ((s.txtsRead i).1, (s.txtsRead i).2, false)
    else if r.addr = R.PORT_ARX_CS_A 0 0 || r.addr = R.PORT_ARX_CS_B 0 0 || r.addr = R.PORT_ARX_UB_A 0 0 ||
        r.addr = R.PORT_ARX_UB_B 0 0 then
      if (r.index a).2 = 0 then (s.csLatch i (Fin.ofNat 4 ((r.addr - R.PORT_ARX_CS_A 0 0) / 32)), w, false)
      else (s, (match s.latchOf a with | some v => v | none => w), false)
    else if isPairLo a then (s.latchHi a (s.view (a + 4)), w, false)
    else if isPairLo (a - 4) then
      (s.dropLatch (a - 4), (match s.latchOf (a - 4) with | some v => v | none => w), false)
    else (s, w, false)

/-- A word of the Quilt memories read by a master: an uncorrectable one has a bus error (R120, R544). -/
def State.quiltWord (s : State) (w : QWord) (v : Word) (m : Master) : State × Word × Bool :=
  if s.quilt.ue.contains w then
    let live := match w with | .slot l _ => l | .desc l _ => l | .dmap l _ => l | _ => true
    let t := if live then s.liveUes m.prio [w] else s.basteUe m.prio [w]
    (t.bump, BitVec.ofNat 32 s.freeVal, true)
  else (s, v, false)

/-- A read over the bus by a master: the data and whether the access has a bus error. -/
def State.busRead (s : State) (m : Master) (addr : Nat) : State × Word × Bool :=
  match s.targetFor m (addr / 4 * 4) with
  | .unmapped => (s.unmapped, 0#32, true)
  | .reg a =>
    if 0x40140000 ≤ a && a < 0x40160000 then s.quiltWord (.desc true ((a - 0x40140000) / 8)) (s.view a) m
    else if 0x40160000 ≤ a && a < 0x40180000 then s.quiltWord (.desc false ((a - 0x40160000) / 8)) (s.view a) m
    else if 0x40180000 ≤ a && a < 0x40188000 then s.quiltWord (.dmap true ((a - 0x40180000) / 4)) (s.view a) m
    else if 0x40188000 ≤ a && a < 0x40190000 then s.quiltWord (.dmap false ((a - 0x40188000) / 4)) (s.view a) m
    else s.readReg a m
  | .alias_ a k => (s, BitVec.ofNat 32 ((s.view a).toNat / 2 ^ k % 2), false)
  | .slot live key hi =>
    let x := ((if live then s.quilt.live else s.quilt.baste).slot key).toNat
    s.quiltWord (.slot live key) (BitVec.ofNat 32 (if hi then x / 2 ^ 32 else x)) m
  | t => match t.mem with
    | some e => s.memRead e.1 e.2 m
    | none => (s, 0#32, true)

/-- LATCHED_PAIR_READ: a master's read of a word: of the _LO word of a pair, which latches the _HI word, or of any other
register or memory word. -/
def execLatchedPairRead (m : Master) (addr : Word) (s : State) : Res :=
  .next (State.busAnswer (s.busRead m addr.toNat))

/-- ALIAS_ACCESS: a master's access to word `i` of the bit-alias region (R44, R524). -/
def execAliasAccess (m : Master) (i : Fin 32768) (write : Option Word) (s : State) : Res :=
  let addr := 0x41000000 + 4 * i.val
  match write with
  | some v =>
    let r := s.busWrite m addr v.toNat 0xFFFFFFFF 0
    .next { r.1 with out := { r.1.out with busErr := r.2 } }
  | none => .next (State.busAnswer (s.busRead m addr))

end Sys2Proof.Machine
end

