-- ==== Sys2Proof/Machine/Clocks.lean ====
section
/-!
DEFINITION. Loss of lock of the CORE and NET APLLs, and the loss and return of TCXO_IN and XIN (R255 to R260, R290).
-/

namespace Sys2Proof.Machine

/-- CORE_APLL_UNLOCK: 0 CORE-A, 1 CORE-B. The core domain moves to the other CORE APLL, or to XIN when that one is not locked
(R256, R257). -/
def execCoreApllUnlock (a : Fin 2) (s : State) : Res :=
  let k := a.val
  if !s.bitAt R.BELL_STATUS (13 + k) then .next s
  else
    let s := s.setBitAt R.BELL_STATUS (13 + k) false
    let selected := s.fld R.BELL_STATUS F.BELL_STATUS_CORE_SEL = k && !s.bit R.BELL_STATUS F.BELL_STATUS_CORE_XIN
    if !selected then .next s
    else
      let other := s.bitAt R.BELL_STATUS (14 - k)
      let s := if other then s.setFld R.BELL_STATUS F.BELL_STATUS_CORE_SEL (1 - k)
        else s.setBit R.BELL_STATUS F.BELL_STATUS_CORE_XIN true
      let s := (s.flag R.BELL_FLAGS (if k = 0 then F.BELL_FLAGS_CORE_A_UNLOCK else F.BELL_FLAGS_CORE_B_UNLOCK)).raise
        (if k = 0 then FS.CORE_A_UNLOCK else FS.CORE_B_UNLOCK) 0 0
      .next (if other then s else s.raise FS.CORE_BOTH_UNLOCK 0 0)

/-- NET_APLL_UNLOCK (R259, R290): every port and the Praphor link go down, and the tick moves to XIN. `requested` are the
requested transmit timestamps by port, `raw` the phase of the selected reference. -/
def execNetApllUnlock (requested : List (Fin 4 × Fin 8 × BitVec 16)) (raw : Int) (s : State) : Res :=
  if !s.bit R.BELL_STATUS F.BELL_STATUS_NET_LOCK then .next s
  else
    let s := s.setBit R.BELL_STATUS F.BELL_STATUS_NET_LOCK false
    let s := (s.flag R.BELL_FLAGS F.BELL_FLAGS_NET_UNLOCK).raise FS.NET_UNLOCK 0 0
    let s := (List.range 4).foldl (fun (t : State) p => t.linkDown p
      ((requested.filter (fun r => r.1.val = p)).map (fun r => (r.2.1.val, r.2.2.toNat)))) s
    .next (s.tickToXin.linkLost raw)

/-- NET_APLL_RELOCK: the tick and the links return by their own steps. -/
def execNetApllRelock (s : State) : Res := .next (s.setBit R.BELL_STATUS F.BELL_STATUS_NET_LOCK true)

/-- TCXO_LOSS (R260): the audio domain has no clock. -/
def execTcxoLoss (s : State) : Res :=
  if !s.pins.tcxoOk then .next s
  else
    let s := { s with pins := { s.pins with tcxoOk := false } }.linesSync
    .next ((s.flag R.BELL_FLAGS F.BELL_FLAGS_TCXO_LOSS).raise FS.TCXO_LOSS 0 0)

/-- TCXO_RETURN (R260): `lost` is the time lost in units of 1/16 ns, which appears in O. -/
def execTcxoReturn (lost : Nat) (s : State) : Res :=
  if s.pins.tcxoOk then .next s
  else
    let s := { s with pins := { s.pins with tcxoOk := true } }
    let s := s.setOfs (s.bell.ofs - (lost : Int) * 1000) false
    .next { s with bell := { s.bell with lastPd := none } }.linesSync

/-- XIN_LOSS (R260): the engine holds itself in chip reset. -/
def execXinLoss (s : State) : Res :=
  .next (if s.pins.xinOk then { s with pins := { s.pins with xinOk := false } }.chipReset 2 0 else s)

/-- XIN_RETURN: the reset may end. -/
def execXinReturn (s : State) : Res := .next { s with pins := { s.pins with xinOk := true } }

end Sys2Proof.Machine
end

