-- ==== Sys2Proof/Machine/Media.lean ====
section
/-!
DEFINITION. Media clock edges and block starts (R52 to R60): the data plane computes the sample of the current MSC, MSC
advances; what waits for a block start acts; the anchor; the background policy; the end of a fade and of a release of
duty.
-/

namespace Sys2Proof.Machine

/-! ### Destination CRC (R441) -/

/-- The destination channels of R86 but for meter points, in ascending order of TYPE and INDEX. -/
def destKeys : List Nat :=
  [(1, 4096), (2, 1024), (3, 64), (4, 512), (5, 16)].flatMap (fun e =>
    (List.range e.2).map (fun i => 8192 * e.1 + i))

/-- The latest 8 samples of a destination channel, oldest first. -/
def State.destBlock (s : State) (key : Nat) : List Int :=
  let l := Sparse.get (fun _ => []) s.quilt.dest key
  (List.range 8).map (fun i => l.getD (7 - i) 0)

/-- The destination CRC of the block that has ended. -/
def State.destCrc (s : State) : Nat :=
  crc32c ((destKeys.flatMap s.destBlock).flatMap (fun x => leBytes 4 (wrapN 32 x)))

/-- In SETTLE and PAIRED the engine keeps the CRCs of the latest blocks; a standby keeps none of an unchecked block. -/
def State.noteDestCrc (s : State) : State :=
  let t := s.twin
  if s.tstate = 4 || s.tstate = 5 then
    { s with twin := { t with unchecked := false,
                              destCrcs := if t.unchecked || s.block = 0 then t.destCrcs
                                else ((s.block - 1, s.destCrc) :: t.destCrcs).take 4 } }
  else { s with twin := { t with unchecked := false, destCrcs := [] } }

/-! ### Releases of duty and fades that end (R27, R257, R446) -/

/-- A fault release is over: duty has gone 48 ns before this edge (R446). -/
def State.releaseEnd (s : State) : State :=
  match s.twin.release with
  | .none => s
  | .reset cause src => s.chipReset cause src
  | .standby =>
    let s : State := { s with twin := { s.twin with release := .none } }
    let s : State := match s.mode with
      | .alarm => if s.retMode = .fallback then s.setSys .alarm .fallback false s.fbRes Cause.handover
          else s.setSys .alarm .standby false s.fbRes Cause.handover
      | .fallback => s.setSys .fallback s.retMode false s.fbRes Cause.handover
      | _ => s.setSys .standby s.retMode false s.fbRes Cause.handover
    s.linesSync.twinRecopy

/-- The fade of R257 has been delivered: the engine acts under R27. -/
def State.fadeEnd (s : State) : State :=
  match s.alarm.fallen with
  | some c => { s with alarm := { s.alarm with fallen := none } }.fallbackNow c.1 c.2
  | none => s

/-! ### The sample of an edge -/

/-- The data plane computes sample n: sources, fabric, destinations and outputs. `found` are the uncorrectable words of
the Quilt memories that it reads (R120), `bad` the players whose DRAM read is uncorrectable with the address (R414),
`clips` the words that ASRC transmitters clip (R50). From the edge F of a fault release the local ports repeat the last
frame (R448). -/
def State.dataPlane (s : State) (n : Nat) (found : List QWord) (bad : List (Nat × Nat))
    (clips : List (LocalPort × Nat)) : State :=
  let s := if s.releasing && s.twin.releaseAt = n then s.linesSync else s
  let s := ((s.rxAll n).portsRx n).playersStep n bad
  let r := s.fabricStep n found
  let s : State := r.1.retireOverlay
  let word (key : Nat) : Int := Sparse.get zeroI r.2 key
  let s : State := s.txAll n (fun c => word (8192 + c))
  let last := s.port.ports
  let s : State := s.portsTx n word clips
  let s : State := if s.releasing then
      last.foldl (fun (t : State) e =>
        let q := portOfKey e.1
        t.setPort q { t.lport q with sent := e.2.sent }) s
    else s
  s.linesStep n word

/-- MSC advances by one, a frequency word that waits takes effect, and a release or a fade that this edge completes acts. -/
def State.edgeEnd (s : State) : State :=
  let n := s.msc
  let s := ({ s with msc := n + 1, edge := s.edge + 1 } : State).bellEdge
  let s : State := match s.alarm.fade with
    | some f => if f + 8 = s.edge then s.fadeEnd else s
    | none => s
  if s.twin.releaseAt ≤ n then s.releaseEnd else s

/-- MEDIA_CLOCK_EDGE: the edge that ends the sample of the current MSC. In BOOT the data plane is stopped (R26); without
TCXO there is no edge (R260). -/
def execMediaClockEdge (found : List QWord) (bad : List (Fin 64 × Word)) (clips : List (LocalPort × Nat))
    (s : State) : Res :=
  if !s.sched.running || !s.pins.tcxoOk then .next s
  else
    let s := if s.mode = .boot then s
      else s.dataPlane s.msc found (bad.map (fun e => (e.1.val, e.2.toNat))) clips
    .next s.edgeEnd

/-- MSC_START: the AUDIO APLL or its bypass delivers a clock (R55, R228). -/
def execMscStart (s : State) : Res :=
  .next (if s.pins.tcxoOk && !s.pins.resetLow then { s with sched := { s.sched with running := true } } else s)

/-! ### Block starts -/

/-- The codes of the SADC at a block start (R610). -/
def State.sadcCodes (s : State) (codes : List Nat) : State :=
  (List.range 24).foldl (fun (t : State) i => t.wrN (R.SYS_SADC_CODE i) (codes.getD i 0)) s

/-- The delta of a block is closed: the largest is recorded, and held writes are served (R438). -/
def State.deltaBlockStart (s : State) : State :=
  let s := s.wrN R.TWIN_DELTA_MAX (max (s.rd R.TWIN_DELTA_MAX) s.twin.delta)
  ({ s with twin := { s.twin with delta := 0 } } : State).serveHeld

/-- What acts at every block start. -/
def State.blockStart (s : State) (codes : List Nat) (back : List (Nat × Bool)) (late : List (Nat × Option Nat)) : State :=
  let s := s.noteDestCrc.wrN R.TWIN_HEALTH_AGE (min 0xFFFF (s.rd R.TWIN_HEALTH_AGE + 1))
  let s := (s.sadcCodes codes).deltaBlockStart
  if s.mode = .boot then s
  else
    let s := s.armSew.loadsBlockStart.attrsBlockStart.gensBlockStart
    let s := ((s.tapsBlockStart late).metersBlockStart).portsBlockStart
    s.linesBlockStart codes back

/-- BLOCK_START: `codes` are the SADC codes of the 24 inputs, `back` the sense bitstreams that have recovered, `late` the
delay taps whose reads have not returned, each with its uncorrectable address or without one. -/
def execBlockStart (codes : List (BitVec 12)) (back : List (Fin 16 × Bool)) (late : List (Fin 4096 × Option Word))
    (s : State) : Res :=
  if s.msc % 8 ≠ 0 || !s.sched.running || !s.pins.tcxoOk then .next s
  else
    .next (s.blockStart (codes.map (·.toNat)) (back.map (fun e => (e.1.val, e.2)))
      (late.map (fun e => (e.1.val, e.2.map (·.toNat)))))

/-! ### The anchor (R56 to R59, R249) -/

/-- The anchor at a media clock edge: refused, or MSC takes the time of the time base in samples. -/
def State.anchorTake (s : State) : State :=
  let tb := s.fld R.SCHED_ANCHOR F.SCHED_ANCHOR_TB
  let t := (s.tb tb).time * 96000
  let m := t / secUnit
  let s : State := { s with sched := { s.sched with anchorReq := false } }
  if !s.sched.events.isEmpty || s.tbInc tb = 0 || m < s.msc then
    (s.flag R.SCHED_FLAGS F.SCHED_FLAGS_ANCHOR_ERR).raise FS.MSC_ANCHOR_ERR 0 0
  else
    let res := t % secUnit * 65536 / secUnit
    let s := ({ s with msc := m } : State).wrN R.SCHED_ANCHOR_RES res
    let s := (s.setFld R.SCHED_STATUS F.SCHED_STATUS_STATE 1).setFld R.SCHED_STATUS F.SCHED_STATUS_TB tb
    s.anchorOfs tb res

/-- ANCHOR_TAKE: at the media clock edge after GO. -/
def execAnchorTake (s : State) : Res :=
  .next (if s.sched.anchorReq && s.sched.running && s.fld R.SCHED_STATUS F.SCHED_STATUS_STATE = 0 then s.anchorTake else s)

/-- BGCFG_TAKE_EFFECT (R39). -/
def execBgcfgTakeEffect (s : State) : Res :=
  .next (if s.sched.bgPending && s.sched.running && s.msc % 128 = 0 then
      let t := s.setBit R.SYS_BGCFG F.SYS_BGCFG_PENDING false
      { t with sched := { t.sched with bgPending := false, bgActive := t.rd R.SYS_BGCFG } }
    else s)

end Sys2Proof.Machine
end

