-- ==== Sys2Proof/Machine/Copy.lean ====
section
/-!
DEFINITION. The configuration copy and the per-block copy over the Praphor link (R434, R437, R438), and the comparison of
destination CRCs (R441).
-/

namespace Sys2Proof.Machine

/-! ### What an item does in the standby -/

/-- A copied write acts at once where the duty engine's own write waits for the second block start (R119, R203, R385,
R438): the standby performs it as an engine that is not paired. -/
def State.asSolo (s : State) (act : State → State) : State :=
  let old := s.tstate
  let t := act (s.setTstate 0)
  if t.boot.stage = .done && t.tstate = 0 then t.setTstate old else t

/-- State of a core as the copy codes it. -/
def coreStateOf : Nat → CoreState
  | 1 => .starting | 2 => .running | 3 => .waiting | 4 => .trapped | _ => .halted

/-- The registers of a core are taken over. -/
def Core.take (k : Core) (r : CoreRegs) : Core :=
  let g (i : Nat) : BitVec 16 := r.agu.getD i 0#16
  { k with st := coreStateOf r.st, pc := r.pc,
           d := Vector.ofFn (fun i => r.d.getD i.val 0#32), acc := Vector.ofFn (fun i => r.acc.getD i.val 0#72),
           p := Vector.ofFn (fun i => g i.val), b := Vector.ofFn (fun i => g (8 + i.val)),
           l := Vector.ofFn (fun i => g (16 + i.val)), m := Vector.ofFn (fun i => g (24 + i.val)),
           sr := r.sr, lr := r.lr, pend := [] }

/-- A word of a core's memories: 0 P, 1 X, 2 Y, 3 and 4 the stream buffers. -/
def Core.takeWord (k : Core) (space addr : Nat) (w : Word) : Core :=
  match space with
  | 0 => { k with pmem := Sparse.set zeroWord k.pmem addr w }
  | 1 => { k with xmem := Sparse.set zeroWord k.xmem addr w }
  | 2 => { k with ymem := Sparse.set zeroWord k.ymem addr w }
  | 3 => { k with sp0 := { k.sp0 with buf := Sparse.set zeroWord k.sp0.buf addr w } }
  | _ => { k with sp1 := { k.sp1 with buf := Sparse.set zeroWord k.sp1.buf addr w } }

/-- A scheduler entry enters as it stands in the duty engine; its notices are the duty engine's. -/
def State.takeEvent (s : State) (e : Event) : State :=
  let e := { e with fold := 255 }
  let s : State := { s with sched := { s.sched with events := s.sched.events ++ [e],
                                                    nextHandle := max s.sched.nextHandle (e.handle + 1) } }
  match e.act with
  | .start _ => e.members.foldl State.pendObj s
  | .sew g =>
    let s : State := { s with seam := { s.seam with sew := some e } }
    ((s.setBstate 3).setBit R.SEAM_STATUS F.SEAM_STATUS_GROUP g).wr64 R.SEAM_SEW_MSC_LO R.SEAM_SEW_MSC_HI e.target
  | _ => s

/-- A command of the duty engine at its sample q. -/
def State.atMsc (s : State) (q : Nat) (act : State → State) : State :=
  let t := act { s with msc := q }
  { t with msc := s.msc }

/-- A staged register takes its active value; an enabled flow or port that was OFF is STOPPED. -/
def State.takeReg (s : State) (a : Nat) (v : Word) : State :=
  let t := State.ccuConfigChange s ((s.wr a v).setShadow a v) a
  match (List.range 1024).find? (fun f => R.NET_RXF_FMT f = a) with
  | some f => if (t.rxFmt f).ch = 0 then t.putRx f {} else if (t.rxFlow f).st = 0 then t.putRx f { st := 1 } else t
  | none =>
  match (List.range 1024).find? (fun f => R.NET_TXF_FMT f = a) with
  | some f => if (t.txFmt f).ch = 0 then t.putTx f {} else if (t.txFlow f).st = 0 then t.putTx f { st := 1 } else t
  | none =>
  match allPorts.find? (fun q => q.cfgAddr = a) with
  | some q =>
    if !(t.portCfg q).en then t.putPort q {}
    else if (t.lport q).st = 0 then t.putPort q { t.lport q with st := 1 } else t
  | none => t

/-- What one item of the copy does. -/
def State.takeItem (s : State) (i : CopyItem) : State :=
  let q := s.quilt
  match i with
  | .write a v en => s.asSolo (fun t => (t.busWrite .praphor a v.toNat (enableMask en.toNat) 0).1)
  | .reg a v => s.takeReg a v
  | .running o since => if s.objState o = 1 then s.startObj since o else s
  | .slot true key w g =>
    let live := { q.live with slots := Sparse.set zeroD q.live.slots key w, gains := Sparse.set zeroW q.live.gains key g }
    State.ccuChange { s with quilt := { q with live := live } } 0
  | .slot false key w g =>
    { s with quilt := { q with baste := { q.baste with slots := Sparse.set zeroD q.baste.slots key w,
                                                       gains := Sparse.set zeroW q.baste.gains key g } } }
  | .desc true k w =>
    State.ccuChange { s with quilt := { q with live := { q.live with desc := Sparse.set zeroD q.live.desc k w } } } 0
  | .desc false k w => { s with quilt := { q with baste := { q.baste with desc := Sparse.set zeroD q.baste.desc k w } } }
  | .dmap true e w =>
    State.ccuChange { s with quilt := { q with live := { q.live with dmap := Sparse.set zeroW q.live.dmap e w } } } 0
  | .dmap false e w => { s with quilt := { q with baste := { q.baste with dmap := Sparse.set zeroW q.baste.dmap e w } } }
  | .needle c sp a w =>
    let t := s.setCore c ((s.core c).takeWord sp a w)
    if sp = 0 then t.ccuChange 1 else t
  | .core c k => s.setCore c ((s.core c).take k)
  | .event e => s.takeEvent e
  | .cancel h => match s.sched.events.find? (fun e => e.handle = h) with | some e => s.cancelEvent e | none => s
  | .alarms l u c =>
    let s := (s.wr R.ALARM_IN_LATCH l).wr R.ALARM_IN_SUPP u
    { s with alarm := { s.alarm with commanded := c } }
  | .activate p n => s.atMsc n (fun t => (t.alarmActivate p).1)
  | .release n => s.atMsc n (fun t => (t.alarmRelease).1)
  | .nvs off data => State.noteSlots { s with mem := s.mem.nvsPut off data }
  | .pattern p data => match parsePat p data with
    | some x =>
      let t := s.patternLoad p data x
      State.loadsBlockStart { t with alarm := { t.alarm with
        loads := t.alarm.loads.map (fun e => if e.2.1 = p then (min e.1 t.msc, e.2) else e) } }
    | none => s
  | .commit entries => (s.configCommit (some (entries.map (fun e => (e.1, e.2.toNat))))).1
  | .chkCrc w => { s with seam := { s.seam with partnerCrc := some w } }

/-- Registers whose writes act in the standby at the sample at which they act in the duty engine: generators (R110), Needle
commands, memory writes and doorbells (R198, R203) and line commands (R385). -/
def secondBlock (a : Nat) : Bool :=
  (0x401A0000 ≤ a && a < 0x401B0000) || a / 0x100000 = 0x403 || (0x40810000 ≤ a && a < 0x40811000 && a % 256 = 0x18) ||
    (0xC0000000 ≤ a && a < 0xC0800000)

/-- Whether the standby applies the item at another sample than the duty engine (R441). -/
def CopyItem.late : CopyItem → Bool
  | .write a _ _ => !secondBlock a
  | .reg _ _ => true
  | .running _ _ => true
  | .slot _ _ _ _ => true
  | .desc _ _ _ => true
  | .dmap _ _ _ => true
  | .needle _ _ _ _ => true
  | .core _ _ => true
  | .pattern _ _ => true
  | .alarms _ _ _ => true
  | .event _ => false
  | .cancel _ => false
  | .activate _ _ => false
  | .release _ => false
  | .nvs _ _ => false
  | .commit _ => false
  | .chkCrc _ => false

/-- After words of LIVE have been copied: buses and factors follow the bank. -/
def State.liveCopied (s : State) (old : Bank) : State :=
  if s.quilt.live = old then s else (s.swapBuses old s.quilt.live s.msc).resolo s.msc

/-! ### Destination CRCs (R441) -/

/-- The duty engine's CRC of block k against the standby's own, when it has one of that block. -/
def State.compareCrc (s : State) (k : Nat) (crc : Nat) : State :=
  match s.twin.destCrcs.find? (fun e => e.1 = k) with
  | none => s
  | some e =>
    if e.2 = crc then s.count R.TWIN_CHECK_CNT
    else if s.tstate ≠ 5 then s
    else
      let s := ((s.count R.TWIN_MISMATCH_CNT).flag R.TWIN_FLAGS F.TWIN_FLAGS_MISMATCH).raise FS.TWIN_MISMATCH 0 0
      let s : State := { s with twin := { s.twin with healthy := false, asked := false } }
      if s.bit R.TWIN_CFG F.TWIN_CFG_AUTO_RESYNC && s.tstate = 5 then s.leavePaired.setTstate 3 else s

/-- PER_BLOCK_COPY_APPLY: at a block start a standby from COPY on takes the items of a copy, oldest first, with the duty
engine's destination CRC of that copy's block. The duty engine takes its partner's SEAM_CHK_CRC. -/
def execPerBlockCopyApply (items : List CopyItem) (crc : Option (Nat × Word)) (s : State) : Res :=
  if !s.paired || s.msc % 8 ≠ 0 then .next s
  else if !s.isStandby then
    .next (items.foldl (fun (t : State) i => match i with | .chkCrc w => t.takeItem (.chkCrc w) | _ => t) s)
  else
    let s := match crc with
      | some c => if 4 ≤ s.tstate then s.compareCrc c.1 c.2.toNat else s
      | none => s
    let old := s.quilt.live
    let t := items.foldl State.takeItem s
    let t := if items.any (fun i => match i with | .slot l _ _ _ => l | .desc l _ _ => l | .dmap l _ _ => l | _ => false) then
        t.liveCopied old
      else t
    .next { t with twin := { t.twin with unchecked := t.twin.unchecked || items.any CopyItem.late } }

end Sys2Proof.Machine
end

