-- ==== Sys2Proof/Machine/Drover.lean ====
section
/-!
DEFINITION. Drover (R561 to R572): descriptors and their check, the movement of elements, completion, abort and bus errors.
-/

namespace Sys2Proof.Machine

/-! ### Descriptors (R561 to R563, R566) -/

/-- A descriptor: its CTRL, COUNT, SRC, DST and NEXT words. -/
abbrev Desc := Nat × Nat × Nat × Nat × Nat

/-- Bits of an element-width code (R562). -/
def widthBits (code : Nat) : Nat := [8, 16, 24, 32, 64].getD code 0

def Desc.ctrl (d : Desc) : Nat := d.1
def Desc.count (d : Desc) : Nat := d.2.1
def Desc.src (d : Desc) : Nat := d.2.2.1
def Desc.dst (d : Desc) : Nat := d.2.2.2.1
def Desc.next (d : Desc) : Nat := d.2.2.2.2
def Desc.irq (d : Desc) : Bool := bitsOf d.ctrl 31 31 = 1
def Desc.sw (d : Desc) : Nat := bitsOf d.ctrl 29 27
def Desc.dw (d : Desc) : Nat := bitsOf d.ctrl 26 24
def Desc.sext (d : Desc) : Bool := bitsOf d.ctrl 23 23 = 1
def Desc.align (d : Desc) : Bool := bitsOf d.ctrl 22 22 = 1
def Desc.xform (d : Desc) : Nat := bitsOf d.ctrl 21 20
def Desc.nch (d : Desc) : Nat := bitsOf d.ctrl 19 13
def Desc.sBytes (d : Desc) : Nat := widthBits d.sw / 8
def Desc.dBytes (d : Desc) : Nat := widthBits d.dw / 8

/-- Space of an address (R563). -/
def spaceOf (a : Nat) : Nat := a / 2 ^ 62 % 4

/-- The address within its space. -/
def offsetOf (a : Nat) : Nat := a % 2 ^ 62

/-- The regions of R40. -/
def regions : List (Nat × Nat) :=
  [(0, 0x100000), (0x10000000, 0x10400000), (0x20000000, 0x22000000), (0x40000000, 0x40F00000), (0x41000000, 0x41020000),
   (0x42000000, 0x42F00000), (0x80000000, 0xC0000000), (0xC0000000, 0xC0800000), (0xC1000000, 0xC1800000)]

/-- A range that leaves its space, its region or the usable DRAM, or that the channel may not reach (R566). -/
def State.rangeBad (s : State) (c a n : Nat) : Bool :=
  let o := offsetOf a
  match spaceOf a with
  | 0 =>
    let dramEnd := s.fld R.SYS_DRAMPAGE F.SYS_DRAMPAGE_PAGE * 2 ^ 30 + (o + n - 0x80000000)
    !regions.any (fun r => r.1 ≤ o && o + n ≤ r.2) ||
      (0x80000000 ≤ o && o < 0xC0000000 && s.dramUsable < dramEnd) ||
      (!s.bit (R.DROVER_CH_CFG c) F.DROVER_CH_CFG_PRIV && o < 0x42000000 && 0x40000000 < o + n)
  | 1 => s.dramUsable < o + n
  | 2 => 2 ^ 62 < o + n
  | _ => true

/-- A destination in NVS or in the boot ROM. -/
def State.destBad (s : State) (a n : Nat) : Bool :=
  let o := offsetOf a
  spaceOf a = 0 && ((o < 0x22000000 && 0x20000000 < o + n) || (o < 0x100000 && !s.bit R.SYS_REMAP F.SYS_REMAP_REMAP))

/-- An address that is no multiple of its element's size, for 16, 32 and 64 bits. -/
def misaligned (code a : Nat) : Bool := (code = 1 || code = 3 || code = 4) && a % (widthBits code / 8) ≠ 0

/-- A descriptor error (R566). -/
def State.descError (s : State) (c : Nat) (d : Desc) : Bool :=
  d.ctrl % 4096 ≠ 0 || 4 < d.sw || 4 < d.dw || d.xform = 3 || d.nch = 0 || 64 < d.nch ||
    d.count = 0 || 16777216 < d.count || (d.xform ≠ 0 && d.count % d.nch ≠ 0) ||
    misaligned d.sw d.src || misaligned d.dw d.dst ||
    s.rangeBad c d.src (d.count * d.sBytes) || s.rangeBad c d.dst (d.count * d.dBytes) ||
    s.destBad d.dst (d.count * d.dBytes)

/-! ### Elements (R564, R565) -/

/-- An element through the holding register (R564). -/
def Desc.convert (d : Desc) (v : Nat) : Nat :=
  let a := widthBits d.sw
  let b := widthBits d.dw
  if a < b then
    if d.align then v * 2 ^ (b - a) else if d.sext then wrapN b (Machine.sext a v) else v
  else if b < a then (if d.align then v / 2 ^ (a - b) else v % 2 ^ b)
  else v

/-- Element i in the order of movement: the element numbers at which it is read and written (R565). -/
def Desc.place (d : Desc) (i : Nat) : Nat × Nat :=
  let f := d.count / d.nch
  if d.xform = 1 then (i % d.nch * f + i / d.nch, i)
  else if d.xform = 2 then (i, i % d.nch * f + i / d.nch)
  else (i, i)

/-- A bus error of an access: whether it writes, its kind (R576) and its address. -/
structure BusErr where
  write : Bool
  kind : Nat
  addr : Nat
  deriving DecidableEq, Repr

/-- The bytes of a little-endian number that lie in word `w` of the address space, for a number at `a` of `n` bytes. -/
def inWord (a n w : Nat) : List Nat := (List.range n).filter (fun j => (a + j) / 4 = w)

/-- The words that `n` bytes at `a` touch. -/
def wordsAt (a n : Nat) : List Nat := (List.range ((a + n - 1) / 4 + 1 - a / 4)).map (fun i => a / 4 + i)

/-- A read of one word by Drover. -/
def State.drvReadWord (s : State) (space w : Nat) : State × Nat × Option Nat :=
  if space = 0 then
    let kind := if s.targetFor .drover (4 * w) = .unmapped then 2 else 1
    let r := s.busRead .drover (4 * w)
    (r.1, r.2.1.toNat, if r.2.2 then some kind else none)
  else if s.dramUsable ≤ 4 * w then (s.unmapped, 0, some 2)
  else
    let r := s.memRead 11 (4 * w) .drover
    (r.1, r.2.1.toNat, if r.2.2 then some 1 else none)

/-- An element read: internal and DRAM spaces word by word, host bytes as the host returns them. -/
def State.drvRead (s : State) (addr n : Nat) (host : Nat → Byte) : State × Nat × Option BusErr :=
  let o := offsetOf addr
  let space := spaceOf addr
  if space = 2 then (s, ofLe ((List.range n).map (fun j => (host (o + j)).toNat)), none)
  else
    (wordsAt o n).foldl (fun (a : State × Nat × Option BusErr) w =>
      if a.2.2.isSome then a
      else
        let r := a.1.drvReadWord space w
        let v := (inWord o n w).foldl (fun x j => x + r.2.1 / 256 ^ ((o + j) % 4) % 256 * 256 ^ j) a.2.1
        (r.1, v, r.2.2.map (fun k => ({ write := false, kind := k, addr := space * 2 ^ 62 + 4 * w } : BusErr)))) (s, 0, none)

/-- A write of some bytes of one word by Drover. `conflict` lists the 32-bit words of bank 15 that Shepherd writes in the
same cycle (R542, R569). -/
def State.drvWriteWord (s : State) (c space w v msk : Nat) (conflict : List Nat) : State × Option Nat :=
  if space = 0 then
    let t := s.targetFor .drover (4 * w)
    let lost := match t with | .shep o => 0x3C0000 ≤ o && conflict.contains ((o - 0x3C0000) / 4) | _ => false
    if lost then
      ((s.setBit (R.DROVER_CH_STAT c) F.DROVER_CH_STAT_CONFLICT true).flag R.DROVER_FLAGS F.DROVER_FLAGS_CONFLICT, none)
    else
      let r := s.busWrite .drover (4 * w) v msk 0
      (r.1, if r.2 then some 2 else none)
  else if s.dramUsable ≤ 4 * w then (s.unmapped, some 2)
  else (s.memWrite 11 (4 * w) v msk, none)

/-- An element written. -/
def State.drvWrite (s : State) (c addr n v : Nat) (conflict : List Nat) : State × Option BusErr :=
  let o := offsetOf addr
  let space := spaceOf addr
  if space = 2 then
    let l := (List.range n).foldl (fun l j => (o + j, BitVec.ofNat 8 (v / 256 ^ j)) :: l) s.out.host
    ({ s with out := { s.out with host := l } }, none)
  else
    (wordsAt o n).foldl (fun (a : State × Option BusErr) w =>
      if a.2.isSome then a
      else
        let js := inWord o n w
        let msk := js.foldl (fun x j => x + 255 * 256 ^ ((o + j) % 4)) 0
        let x := js.foldl (fun x j => x + v / 256 ^ j % 256 * 256 ^ ((o + j) % 4)) 0
        let r := a.1.drvWriteWord c space w x msk conflict
        (r.1, r.2.map (fun k => ({ write := true, kind := k, addr := space * 2 ^ 62 + 4 * w } : BusErr)))) (s, none)

/-- The first `n` elements of a descriptor move, or those before an access with a bus error. -/
def State.drvMove (s : State) (c : Nat) (d : Desc) (n : Nat) (host : Nat → Byte) (conflict : List Nat) :
    State × Option BusErr :=
  (List.range n).foldl (fun (a : State × Option BusErr) i =>
    if a.2.isSome then a
    else
      let p := d.place i
      let r := a.1.drvRead (d.src + p.1 * d.sBytes) d.sBytes host
      match r.2.2 with
      | some e => (r.1, some e)
      | none =>
        let w := r.1.drvWrite c (d.dst + p.2 * d.dBytes) d.dBytes (d.convert r.2.1) conflict
        if w.2.isSome then w else (w.1.countBy (R.DROVER_CH_BYTES c) d.dBytes, none)) (s, none)

/-- Host memory as a command gives it: bytes from the source address on; the others are unknown. -/
def State.hostBytes (s : State) (base : Nat) (l : List Byte) : Nat → Byte :=
  fun a => if base ≤ a ∧ a - base < l.length then l.getD (a - base) 0#8 else Config.hostByte s.freeCtr a

/-! ### Bus errors (R568) -/

/-- A running channel stops at a burst boundary, `n` elements of its descriptor moved. -/
def State.drvStop (s : State) (c n : Nat) (host : List Byte) (st cause : Nat) : State :=
  let s := match (s.drv c).desc with
    | some d => ((s.drvMove c d (min n (Desc.count d)) (s.hostBytes (offsetOf (Desc.src d)) host) []).1).bump
    | none => s
  s.drvEnter c st cause

/-- A bus error halts every running channel. How much of its descriptor each has moved is `moved`'s to say, or not known. -/
def State.drvBusError (s : State) (e : BusErr) (moved : Option (List (Nat × Nat × List Byte))) : State :=
  let s := (List.range 16).foldl (fun (t : State) c =>
    if t.drvState c = 1 then
      match moved with
      | some l => match l.find? (fun x => x.1 = c) with
        | some x => t.drvStop c x.2.1 x.2.2 5 3
        | none => t.drvStop c 0 [] 5 3
      | none =>
        let most := match (t.drv c).desc with | some d => Desc.count d | none => 0
        t.bump.drvStop c (t.freeVal % (most + 1)) [] 5 3
    else t) s
  let s := s.wr64 R.DROVER_ERR_ADDR_LO R.DROVER_ERR_ADDR_HI e.addr
  let s := s.wrN R.DROVER_ERR_INFO (e.kind * 256 + (if e.write then 16 else 0) + spaceOf e.addr)
  (s.flag R.DROVER_FLAGS F.DROVER_FLAGS_BUS_ERR).raise FS.DROVER_BUS_ERR 0 0

/-- DROVER_BUS_ERROR: a timeout or a PCIe error on an access (kinds 0 and 3), or another bus error, with what each running
channel has moved. -/
def execDroverBusError (write : Bool) (kind : Fin 4) (addr : DWord) (moved : List (Fin 16 × Nat × List Byte)) (s : State) :
    Res :=
  if (List.range 16).any (fun c => s.drvState c = 1) then
    .next (s.drvBusError { write := write, kind := kind.val, addr := addr.toNat }
      (some (moved.map (fun x => (x.1.val, x.2.1, x.2.2)))))
  else .next s

/-! ### Fetch, completion and abort -/

/-- A descriptor error: the channel stops before any element. -/
def State.drvDescError (s : State) (c : Nat) : State :=
  ((s.drvEnter c 4 1).flag R.DROVER_FLAGS F.DROVER_FLAGS_DESC_ERR).raise FS.DROVER_DESC_ERR c 0

/-- DESCRIPTOR_FETCH: the next descriptor of a running channel; `host` holds its bytes where host memory does. -/
def execDescriptorFetch (c : Fin 16) (host : List Byte) (s : State) : Res :=
  let x := s.drv c
  if s.drvState c ≠ 1 || x.desc.isSome then .next s
  else if x.abort then .next (s.drvEnter c 3 4)
  else if s.fld (R.DROVER_CH_CFG c) F.DROVER_CH_CFG_BUDGET ≤ x.fetched then
    .next (((s.drvEnter c 4 2).flag R.DROVER_FLAGS F.DROVER_FLAGS_BUDGET).raise FS.DROVER_BUDGET c 0)
  else if x.next % 32 ≠ 0 || s.rangeBad c x.next 32 then .next (s.drvDescError c)
  else
    let hostAt := s.hostBytes (offsetOf x.next) host
    let s := (s.wr64 (R.DROVER_CH_CUR_LO c) (R.DROVER_CH_CUR_HI c) x.next).bump
    let read (a : State × List Nat × Option BusErr) (i n : Nat) : State × List Nat × Option BusErr :=
      if a.2.2.isSome then a
      else
        let r := a.1.drvRead (x.next + i) n hostAt
        (r.1, a.2.1 ++ [r.2.1], r.2.2)
    let r := read (read (read (read (read (s, [], none) 0 4) 4 4) 8 8) 16 8) 24 8
    match r.2.2, r.2.1 with
    | some e, _ => .next (r.1.drvBusError e none)
    | none, [a, b, p, q, n] =>
      let d : Desc := (a, b, p, q, n)
      let s := r.1.setDrv c { x with fetched := x.fetched + 1 }
      if s.descError c d then .next (s.drvDescError c) else .next (s.setDrv c { s.drv c with desc := some d })
    | none, _ => .next s

/-- DESCRIPTOR_COMPLETE: the descriptor in progress has moved every element; `host` holds the bytes of a host source from
SRC on, `conflict` the words of bank 15 that Shepherd wrote in the same cycle (R542). -/
def execDescriptorComplete (c : Fin 16) (host : List Byte) (conflict : List (Fin 65536)) (s : State) : Res :=
  match (s.drv c).desc with
  | none => .next s
  | some d =>
    if s.drvState c ≠ 1 then .next s
    else
      let r := s.drvMove c d (Desc.count d) (s.hostBytes (offsetOf (Desc.src d)) host) (conflict.map (·.val))
      let s := r.1.bump
      match r.2 with
      | some e => .next (s.drvBusError e none)
      | none =>
        let n := Desc.count d * Desc.dBytes d
        let o := offsetOf (Desc.dst d)
        let s : State := match spaceOf (Desc.dst d) with
          | 0 => match (s.target o).mem with | some e => s.unpoison e.1 e.2 n | none => s
          | 1 => s.unpoison 11 o n
          | _ => s
        let s := s.count (R.DROVER_CH_DESC_CNT c)
        let s : State := if Desc.irq d then
            let t := s.setBitAt R.DROVER_DONE c true
            { t with out := { t.out with msix := t.out.msix ++ [128 + c.val] } }
          else s
        if s.drvState c ≠ 1 then .next s
        else if Desc.next d = 0 then .next (s.drvEnter c 2 0)
        else if (s.drv c).abort then .next (s.drvEnter c 3 4)
        else .next (s.setDrv c { s.drv c with desc := none, next := Desc.next d })

/-- DROVER_ABORT: a write of DROVER_CH_CMD.ABORT; the channel stops at the next burst boundary with `moved` elements of its
descriptor moved. -/
def execDroverAbort (m : Master) (c : Fin 16) (moved : Nat) (host : List Byte) (s : State) : Res :=
  let t := s.writeAs m (R.DROVER_CH_CMD c) 2
  .next (if t.drvState c = 1 && (t.drv c).abort then t.drvStop c moved host 3 4 else t)

end Sys2Proof.Machine
end

