-- ==== Sys2Proof/Machine/Dweul.lean ====
section
/-!
DEFINITION. How Shepherd executes a Dweul command (R477, R489 to R492, R500, R504): the command at the head of its fold, its
permission, its parameters, its bulk block or segments, and its answer.
-/

namespace Sys2Proof.Machine

/-! ### Rows of the opcode tables (R476, R500) -/

/-- When a class suffices: always; ENGINEER only in COMMISSION, LIFE-SAFETY always; or only in COMMISSION at all. `section_` is
that of a CONFIG_COMMIT with a BULK section: as the second, with DETAIL 1 (R590). -/
inductive Gate where
  | always | engineerInCommission | onlyInCommission | section_
  deriving DecidableEq, Repr

/-- A row: its opcode, whether its kind is R, the least class, and when that class suffices. -/
structure Op where
  code : Nat
  read : Bool
  cls : Nat
  gate : Gate := .always
  deriving DecidableEq, Repr

/-- A command in execution: its fold and the fold's class, its header and parameters. -/
structure Cmd where
  fold : Nat
  cls : Nat
  hdr : Hdr
  params : List Byte
  deriving DecidableEq, Repr

def Cmd.u8 (c : Cmd) (i : Nat) : Nat := byteAt c.params i
def Cmd.u16 (c : Cmd) (i : Nat) : Nat := leAt c.params 2 i
def Cmd.u32 (c : Cmd) (i : Nat) : Nat := leAt c.params 4 i
def Cmd.u64 (c : Cmd) (i : Nat) : Nat := leAt c.params 8 i
def Cmd.zero (c : Cmd) (n i : Nat) : Bool := zeroAt c.params n i

/-! ### Answers (R489) -/

/-- REJECTED with its DETAIL. -/
def rejected (detail : Nat) : Ans := { status := 2, detail := detail }
/-- A parameter refused at step 5 of R490. -/
def badParam : Ans := rejected 0xFD
/-- INCONSISTENT with its rule code. -/
def inconsistent (code : Nat) : Ans := { status := 3, detail := code }
/-- NOT_PERMITTED: 1 class, 2 mode, 3 LIFESAFE. -/
def forbidden (detail : Nat) : Ans := { status := 4, detail := detail }
def busyState : Ans := { status := 1, detail := 5 }
def badLength : Ans := { status := 8, detail := 4 }
def badSegment : Ans := { status := 8, detail := 6 }
/-- OK with results. -/
def okWith (results : List Byte) : Ans := { results := results }

/-! ### Permission (R476, R477, R490 step 4) -/

/-- DETAIL of NOT_PERMITTED; 0 when the command may execute. -/
def State.notPermitted (s : State) (op : Op) (cls : Nat) : Nat :=
  let com : Bool := decide (s.mode = .commission)
  let byClass : Nat := match op.gate with
    | .always => if cls < op.cls then 1 else 0
    | .engineerInCommission => if cls = 3 || (cls = 2 && com) then 0 else if cls = 2 then 2 else 1
    | .onlyInCommission => if cls < op.cls then 1 else if com then 0 else 2
    | .section_ => if cls = 3 || (cls = 2 && com) then 0 else 1
  if byClass ≠ 0 then byClass
  else match s.mode with
    | .standby => if op.read || op.code / 256 = 0x0A then 0 else 2
    | .alarm => if op.read || cls = 3 then 0 else 2
    | _ => 0

/-! ### The head of a fold (R481, R492) -/

/-- A command that the fold has not taken yet is taken from its ring, as a doorbell behind it does. A datagram arrives by
itself. -/
def State.takeIn (s : State) (f : Nat) (h : Hdr) : State :=
  let x := s.fold f
  if x.taken.any (fun e => e.hdr.seq = h.seq && e.hdr.opcode = h.opcode) || !s.foldEn f || s.foldUdp f then s
  else
    let size := 2 ^ s.fld (R.FOLD_RING_CFG f) F.FOLD_RING_CFG_CSIZE
    let head := s.fld (R.FOLD_CHEAD f) F.FOLD_CHEAD_SLOT
    if x.ctail % size = head then s.doorbellFold f ((head + slotsOf h.length) % size) [h] else s.readRing f [h]

/-- The command waits for a CHECK that it has started. -/
def State.underCheck (s : State) (h : Hdr) : Bool :=
  match s.seam.checking with
  | some (_, some g, _) => g = h
  | _ => false

/-- The command at the head of its fold, when it is the one named and can start: writes that the bus still holds (R438)
come first. -/
def State.atHead (s : State) (code f seq : Nat) : Option Taken :=
  match (s.fold f).taken with
  | e :: _ =>
    if e.hdr.opcode = code && e.hdr.seq = seq && !s.underCheck e.hdr && s.twin.held.isEmpty then some e else none
  | [] => none

/-- The command ends: its answer is written when it still stands at the head of its fold, which a chip reset or an entry to
FALLBACK empties. A command whose writes do not fit the block's delta waits for the next block (R438). Answers the status that
was written. -/
def State.finish (s t : State) (f : Nat) (e : Taken) (a : Option Ans) : State × Option Nat :=
  if !t.twin.held.isEmpty then ((s.flag R.TWIN_FLAGS F.TWIN_FLAGS_DELTA_FULL).raise FS.TWIN_DELTA_FULL 0 0, none)
  else
    match a, (t.fold f).taken with
    | some a, x :: _ => if x = e then (t.answer f e.hdr a, some a.status) else (t, none)
    | _, _ => (t, none)

/-- A segment stream under way is discarded. -/
def State.dropStream (s : State) (f : Nat) : State :=
  let x := s.fold f
  if x.seg.isSome then (s.setFold f { x with seg := none }).syncFold f else s

/-- The refusal of steps 1 and 4 of R490, for a command whose parameters define a length. -/
def State.refusal (s : State) (op : Op) (c : Cmd) (len : Nat) : Option Ans :=
  if c.hdr.length ≠ c.params.length || c.params.length ≠ len then some badLength
  else
    let d := s.notPermitted op c.cls
    if d = 0 then none else some (forbidden d)

/-- A command without bulk data: `len` is the length that its parameters define, `body` its steps 5 and 6 of R490. -/
def State.dweul (s : State) (op : Op) (f : Nat) (h : Hdr) (params : List Byte) (len : Nat)
    (body : State → Cmd → State × Option Ans) : State × Option Nat :=
  if !s.served then (s, none)
  else
    let s := s.takeIn f { h with opcode := op.code }
    match s.atHead op.code f h.seq with
    | none => (s, none)
    | some e =>
      let s := s.dropStream f
      let c : Cmd := ⟨f, s.foldClass f, e.hdr, params⟩
      match s.refusal op c len with
      | some a => s.finish s f e (some a)
      | none =>
        let r := body s c
        s.finish r.1 f e r.2

/-! ### Bulk data (R491) -/

/-- A block that Drover has fetched; BULK_LEN and the host address follow the fixed parameters. -/
def State.bulkFetched (s : State) (op : Op) (e : Taken) (c : Cmd) (params block : List Byte) (fixed : Nat)
    (body : State → Cmd → List Byte → State × Option Ans) : State × Option Nat :=
  let total := leAt params 4 fixed
  match s.refusal op { c with params := params } (fixed + 12) with
  | some a => s.finish s c.fold e (some a)
  | none =>
    if total = 0 || 16777216 < total then s.finish s c.fold e (some badParam)
    else if e.needFetch then (s, none)
    else if e.fetchErr then s.finish s c.fold e (some (rejected 0xFE))
    else if block.length ≠ total then (s, none)
    else
      let r := body s c block
      s.finish r.1 c.fold e r.2

/-- The stream with one more segment, or none when the segment breaks it: fixed parameters, BULK_LEN, OFFSET and data. -/
def streamWith (x : Option SegStream) (code : Nat) (fixed : List Nat) (total off : Nat) (data : List Byte) (last : Bool) :
    Option SegStream :=
  let have_ : Option (List Byte) := match x with
    | some g => if g.opcode = code && g.params = fixed && g.total = total then some g.data else none
    | none => some []
  match have_ with
  | none => none
  | some d =>
    let n := if last then total - off else data.length
    -- the last segment's data is padded to a multiple of 4
    if off ≠ d.length || total < off + n || (last && data.length ≠ (n + 3) / 4 * 4) then none
    else some ⟨code, fixed, total, d ++ data.take n⟩

/-- A segment over UDP: BULK_LEN and OFFSET follow the fixed parameters. -/
def State.bulkSegment (s : State) (op : Op) (e : Taken) (c : Cmd) (params : List Byte) (fixed : Nat)
    (body : State → Cmd → List Byte → State × Option Ans) : State × Option Nat :=
  let f := c.fold
  let x := s.fold f
  let total := leAt params 4 fixed
  let last := e.hdr.flags / 16 % 2 = 1
  let t := s.dropStream f
  if e.hdr.length ≠ params.length || params.length < fixed + 8 then t.finish t f e (some badLength)
  else
    match streamWith x.seg op.code (c.params.map BitVec.toNat) total (leAt params 4 (fixed + 4)) (params.drop (fixed + 8)) last with
    | none => t.finish t f e (some badSegment)
    | some g =>
      let d := t.notPermitted op c.cls
      if d ≠ 0 then t.finish t f e (some (forbidden d))
      else if total = 0 || 16777216 < total then t.finish t f e (some badParam)
      else if last then
        let r := body t c g.data
        t.finish r.1 f e r.2
      else
        let u := (s.setFold f { x with seg := some g }).syncFold f
        u.finish u f e (some {})

/-- A command with a bulk block, after `fixed` bytes of parameters. `block` is what Drover has fetched on PCIe. -/
def State.dweulBulk (s : State) (op : Op) (f : Nat) (h : Hdr) (params block : List Byte) (fixed : Nat)
    (body : State → Cmd → List Byte → State × Option Ans) : State × Option Nat :=
  if !s.served then (s, none)
  else
    let s := s.takeIn f { h with opcode := op.code }
    match s.atHead op.code f h.seq with
    | none => (s, none)
    | some e =>
      let c : Cmd := ⟨f, s.foldClass f, e.hdr, params.take fixed⟩
      if s.foldUdp f then s.bulkSegment op e c params fixed body else s.bulkFetched op e c params block fixed body

/-! ### What the bodies share -/

/-- A Shepherd write of a whole register. -/
def State.shepWrite (s : State) (a v : Nat) : State := (s.busWrite .shepherd a v 0xFFFFFFFF 0).1

/-- Words written to registers in turn. -/
def State.shepWrites (s : State) (l : List (Nat × Nat)) : State := l.foldl (fun (t : State) e => t.shepWrite e.1 e.2) s

/-- The words of registers, without the effect that a read has. -/
def State.viewWords (s : State) (as : List Nat) : List Byte := words (as.map (fun a => (s.view a).toNat))

/-- A command that enters an event (R497). -/
def State.enterEvent (s : State) (c : Cmd) (act : Action) (target : Nat) (members : List Obj) : State × Ans :=
  let e := eventOf act target c.fold c.cls c.hdr.opcode c.hdr.seq c.hdr.group members
  let r := s.arrive e (c.hdr.flags % 4)
  (r.1, r.2.ans)

/-- A recoverable firmware trap (R504): command service stops until its restart. -/
def State.shepTrap (s : State) : State :=
  State.raise { s with shep := { s.shep with restarting := true } } FS.SHEP_TRAP 0 0

/-- Words read in turn; a word that is uncorrectable ends in a firmware trap, and the command is not answered (R504,
R544). -/
def State.readEach (s : State) (n : Nat) (read : State → Nat → State × List Byte × Bool) : State × Option Ans :=
  let r := (List.range n).foldl (fun (a : State × List (List Byte) × Bool) i =>
    if a.2.2 then a
    else
      let w := read a.1 i
      (w.1, w.2.1 :: a.2.1, w.2.2)) (s, [], false)
  if r.2.2 then (r.1.shepTrap, none) else (r.1, some (okWith r.2.1.reverse.flatten))

/-- The uncorrectable words of the Quilt memories among those that Shepherd reads (R120). -/
def State.quiltReads (s : State) (l : List QWord) : State × Bool :=
  l.foldl (fun (a : State × Bool) w => let r := a.1.quiltWord w 0#32 .shepherd; (r.1, a.2 || r.2.2)) (s, false)

end Sys2Proof.Machine
end

