-- ==== Sys2Proof/Machine/DwAlarm.lean ====
section
/-!
DEFINITION. Dweul: the Alarm and messages family (R401, R404, R411, R413, R417, R420, R500).
-/

namespace Sys2Proof.Machine

/-- Bytes stored in NVS: words replaced wholly are no longer poisoned (R544). -/
def State.nvsStore (s : State) (a : Nat) (bs : List Byte) : State :=
  State.unpoison { s with mem := s.mem.nvsPut a bs } 10 a bs.length

/-- ALARM_ACTIVATE (R404). -/
def State.dwAlarmActivate (s : State) (c : Cmd) : State × Option Ans :=
  if 15 < c.u8 0 || !c.zero 3 1 then (s, some badParam)
  else
    let r := s.alarmActivate (c.u8 0)
    (r.1, some (okWith (le 8 r.2)))

def execDwAlarmActivate (f : Fin 128) (h : Hdr) (params : List Byte) (s : State) : Res :=
  .next (s.dweul ⟨0x0901, false, 3, .always⟩ f h params 4 State.dwAlarmActivate).1

/-- ALARM_RELEASE (R32, R411). -/
def State.dwAlarmRelease (s : State) (_c : Cmd) : State × Option Ans :=
  if s.releaseRefused then (s, some (rejected 0))
  else
    let r := s.alarmRelease
    (r.1, some (okWith (le 8 r.2)))

def execDwAlarmRelease (f : Fin 128) (h : Hdr) (params : List Byte) (s : State) : Res :=
  .next (s.dweul ⟨0x0902, false, 3, .always⟩ f h params 0 State.dwAlarmRelease).1

/-- PATTERN_LOAD (R401). -/
def State.dwPatternLoad (s : State) (c : Cmd) (block : List Byte) : State × Option Ans :=
  let p := c.u8 0
  if 15 < p || !c.zero 3 1 then (s, some badParam)
  else
    match parsePat p block with
    | none => (s, some (inconsistent 0))
    | some x =>
      if s.loadTooLarge p x then (s, some { status := 6 })
      else
        let bs := block.take 0x20000
        ((s.patternLoad p bs x).unpoison 10 (patBase p) bs.length, some {})

def execDwPatternLoad (f : Fin 128) (h : Hdr) (params block : List Byte) (s : State) : Res :=
  .next (s.dweulBulk ⟨0x0903, false, 3, .engineerInCommission⟩ f h params block 4 State.dwPatternLoad).1

/-- MESSAGE_WRITE (R413). -/
def State.dwMessageWrite (s : State) (c : Cmd) (block : List Byte) : State × Option Ans :=
  let slot := c.u16 0
  let fmt := c.u8 2
  let width := if fmt / 2 % 2 = 1 then 3 else 2
  let len := block.length / width
  if 511 < slot || 3 < fmt || !c.zero 1 3 || block.length % width ≠ 0 || len = 0 || 12574720 < len then (s, some badParam)
  else if s.slotUsed slot then (s, some busyState)
  else
    match s.msgPlace slot block.length with
    | none => (s, some { status := 6 })
    | some off =>
      let t := s.messageWrite slot off fmt len block
      ((t.unpoison 10 (dataBase + off) block.length).unpoison 10 (dirBase + 32 * slot) 32, some {})

def execDwMessageWrite (f : Fin 128) (h : Hdr) (params block : List Byte) (s : State) : Res :=
  .next (s.dweulBulk ⟨0x0904, false, 3, .engineerInCommission⟩ f h params block 4 State.dwMessageWrite).1

/-- MESSAGE_START (R417). -/
def State.dwMessageStart (s : State) (c : Cmd) : State × Option Ans :=
  let slot := c.u16 2
  if 63 < c.u8 0 || 511 < slot || !c.zero 2 6 then (s, some badParam)
  else if (s.slotMsg slot).isNone then (s, some (inconsistent 0))
  else
    let r := s.enterEvent c (.message (c.u8 0) slot (c.u8 1) (c.u16 4)) (c.u64 8) []
    (r.1, some r.2)

def execDwMessageStart (f : Fin 128) (h : Hdr) (params : List Byte) (s : State) : Res :=
  .next (s.dweul ⟨0x0905, false, 1, .always⟩ f h params 16 State.dwMessageStart).1

/-- MESSAGE_STOP. -/
def State.dwMessageStop (s : State) (c : Cmd) : State × Option Ans :=
  if 63 < c.u8 0 || !c.zero 3 1 then (s, some badParam)
  else
    let r := s.enterEvent c (.stop (.player (c.u8 0))) (c.u64 4) []
    (r.1, some r.2)

def execDwMessageStop (f : Fin 128) (h : Hdr) (params : List Byte) (s : State) : Res :=
  .next (s.dweul ⟨0x0906, false, 1, .always⟩ f h params 12 State.dwMessageStop).1

/-- FALLBACK_LOAD (R420): the image fills its 64 KB with zeros after it. -/
def State.dwFallbackLoad (s : State) (_c : Cmd) (block : List Byte) : State × Option Ans :=
  if 65536 < block.length then (s, some badParam)
  else if (s.parseFallback block).isNone then (s, some (rejected 0))
  else
    let t := s.nvsStore fallbackBase (block ++ List.replicate (65536 - block.length) 0#8)
    ({ t with boot := { t.boot with fbValid := true } }, some {})

def execDwFallbackLoad (f : Fin 128) (h : Hdr) (params block : List Byte) (s : State) : Res :=
  .next (s.dweulBulk ⟨0x0907, false, 3, .engineerInCommission⟩ f h params block 0 State.dwFallbackLoad).1

/-- ALARM_READ: the registers at offsets 0 to 0x2C. -/
def State.dwAlarmRead (s : State) (_c : Cmd) : State × Option Ans :=
  (s, some (okWith (s.viewWords ((List.range 12).map (fun i => R.ALARM_STATUS + 4 * i)))))

def execDwAlarmRead (f : Fin 128) (h : Hdr) (params : List Byte) (s : State) : Res :=
  .next (s.dweul ⟨0x0908, true, 0, .always⟩ f h params 0 State.dwAlarmRead).1

end Sys2Proof.Machine
end

