-- ==== Sys2Proof/Machine/DwClock.lean ====
section
/-!
DEFINITION. Dweul: the Clocking family (R235, R239, R262, R289, R500).
-/

namespace Sys2Proof.Machine

/-- BELL_READ: the registers at offsets 0x20 to 0x48. -/
def State.dwBellRead (s : State) (_c : Cmd) : State × Option Ans :=
  (s, some (okWith (s.viewWords ((List.range 11).map (fun i => R.BELL_STATUS + 4 * i)))))

def execDwBellRead (f : Fin 128) (h : Hdr) (params : List Byte) (s : State) : Res :=
  .next (s.dweul ⟨0x0501, true, 0, .always⟩ f h params 0 State.dwBellRead).1

/-- REF_SET: the limits are applied first; a rejection of theirs leaves the other words unwritten. -/
def State.dwRefSet (s : State) (c : Cmd) : State × Option Ans :=
  let n := c.u8 0
  if 15 < n || !c.zero 3 1 then (s, some badParam)
  else
    let r := s.tryApply R.BELL_FLAGS F.BELL_FLAGS_APPLY_ERR (fun t =>
      t.shepWrites [(R.BELL_REF_ACCEPT n, c.u32 12), (R.BELL_REF_REJECT n, c.u32 16), (R.BELL_REF_APPLY, 2 ^ 31 + n)])
    if r.2 then (r.1.shepWrites [(R.BELL_REF_CFG n, c.u32 4), (R.BELL_REF_NOM n, c.u32 8)], some {})
    else (r.1, some (rejected 0))

def execDwRefSet (f : Fin 128) (h : Hdr) (params : List Byte) (s : State) : Res :=
  .next (s.dweul ⟨0x0502, false, 2, .always⟩ f h params 20 State.dwRefSet).1

/-- REF_SELECT: the byte that holds BELL_SEL.REF_SEL is written (R239). -/
def State.dwRefSelect (s : State) (c : Cmd) : State × Option Ans :=
  if 15 < c.u8 0 || !c.zero 3 1 then (s, some badParam)
  else ((s.busWrite .shepherd R.BELL_SEL (c.u8 0) 0xFF 0).1, some {})

def execDwRefSelect (f : Fin 128) (h : Hdr) (params : List Byte) (s : State) : Res :=
  .next (s.dweul ⟨0x0503, false, 2, .always⟩ f h params 4 State.dwRefSelect).1

/-- LOOP_SET. -/
def State.dwLoopSet (s : State) (c : Cmd) : State × Option Ans :=
  (s.shepWrites [(R.BELL_CTRL, c.u32 0), (R.BELL_PHASE, c.u32 4), (R.BELL_HO, c.u32 8), (R.BELL_CROSS, c.u32 12),
    (R.BELL_JUMP, c.u32 16)], some {})

def execDwLoopSet (f : Fin 128) (h : Hdr) (params : List Byte) (s : State) : Res :=
  .next (s.dweul ⟨0x0504, false, 2, .always⟩ f h params 20 State.dwLoopSet).1

/-- DIV_SET (R262). -/
def State.dwDivSet (s : State) (c : Cmd) : State × Option Ans :=
  let r := s.tryApply R.BELL_FLAGS F.BELL_FLAGS_APPLY_ERR (fun t =>
    t.shepWrites ((List.range 6).map (fun d => (R.BELL_DIV d, c.u32 (4 * d))) ++ [(R.BELL_DIV_UPDATE, 1)]))
  (r.1, some (if r.2 then {} else rejected 0))

def execDwDivSet (f : Fin 128) (h : Hdr) (params : List Byte) (s : State) : Res :=
  .next (s.dweul ⟨0x0505, false, 2, .always⟩ f h params 24 State.dwDivSet).1

/-- SERVO_SET (R289). -/
def State.dwServoSet (s : State) (c : Cmd) : State × Option Ans :=
  let thr := c.u32 4
  if 7 < c.u8 0 || !c.zero 3 1 || thr = 0 || 1000000000 < thr then (s, some badParam)
  else
    let p := s.ptp
    ({ s with ptp := { p with servo := Sparse.set (fun _ => 1000000) p.servo (c.u8 0) thr } }, some {})

def execDwServoSet (f : Fin 128) (h : Hdr) (params : List Byte) (s : State) : Res :=
  .next (s.dweul ⟨0x0506, false, 2, .always⟩ f h params 8 State.dwServoSet).1

end Sys2Proof.Machine
end

