-- ==== Sys2Proof/Machine/DwNeedle.lean ====
section
/-!
DEFINITION. Dweul: the Needle family (R196 to R206, R500).
-/

namespace Sys2Proof.Machine

/-- Words of a Needle space: P holds 16,384; X and Y are named by 16 bits. -/
def needleSpace (space : Nat) : Nat := if space = 0 then 0x4000 else 0x10000

/-- CORE, SPACE and a run of words pass step 5 of R490. -/
def needleRunOk (core space addr n : Nat) : Bool := core < 64 && space < 3 && addr + n ≤ needleSpace space

/-- NEEDLE_LOAD (R203). -/
def State.dwNeedleLoad (s : State) (c : Cmd) (block : List Byte) : State × Option Ans :=
  let n := block.length / 4
  if block.length % 4 ≠ 0 || !needleRunOk (c.u8 0) (c.u8 1) (c.u16 2) n then (s, some badParam)
  else
    ((List.range n).foldl (fun (t : State) i =>
      t.needleWrite (c.u8 0) (c.u8 1) (c.u16 2 + i) (BitVec.ofNat 32 (leAt block 4 (4 * i)))) s, some {})

def execDwNeedleLoad (f : Fin 128) (h : Hdr) (params block : List Byte) (s : State) : Res :=
  .next (s.dweulBulk ⟨0x0401, false, 2, .always⟩ f h params block 4 State.dwNeedleLoad).1

/-- NEEDLE_READ (R204). -/
def State.dwNeedleRead (s : State) (c : Cmd) : State × Option Ans :=
  let n := c.u16 4
  if n = 0 || 1000 < n || !c.zero 2 6 || !needleRunOk (c.u8 0) (c.u8 1) (c.u16 2) n then (s, some badParam)
  else
    s.readEach n (fun t i =>
      let r := t.needleRead (c.u8 0) (c.u8 1) (c.u16 2 + i) .shepherd .clean
      (r.1, words [r.2.1.toNat], r.2.2))

def execDwNeedleRead (f : Fin 128) (h : Hdr) (params : List Byte) (s : State) : Res :=
  .next (s.dweul ⟨0x0402, true, 0, .always⟩ f h params 8 State.dwNeedleRead).1

/-- NEEDLE_CTRL (R198): the command of each core of the mask. -/
def State.dwNeedleCtrl (s : State) (c : Cmd) : State × Option Ans :=
  let cmd := c.u8 8
  if cmd = 0 || 2 < cmd || !c.zero 3 9 then (s, some badParam)
  else (s.shepWrites ((maskList 64 (c.u64 0)).map (fun k => (R.NEEDLE_CTRL k, cmd))), some {})

def execDwNeedleCtrl (f : Fin 128) (h : Hdr) (params : List Byte) (s : State) : Res :=
  .next (s.dweul ⟨0x0403, false, 2, .always⟩ f h params 12 State.dwNeedleCtrl).1

/-- NEEDLE_DOORBELL. -/
def State.dwNeedleDoorbell (s : State) (c : Cmd) : State × Option Ans :=
  if 63 < c.u8 0 || !c.zero 3 1 then (s, some badParam)
  else (s.shepWrite (R.NEEDLE_DOORBELL (c.u8 0)) (c.u32 4), some {})

def execDwNeedleDoorbell (f : Fin 128) (h : Hdr) (params : List Byte) (s : State) : Res :=
  .next (s.dweul ⟨0x0404, false, 1, .always⟩ f h params 8 State.dwNeedleDoorbell).1

/-- NEEDLE_STATUS: the read of NEEDLE_TOHOST clears it (R205). -/
def State.dwNeedleStatus (s : State) (c : Cmd) : State × Option Ans :=
  let k := c.u8 0
  if 63 < k || !c.zero 3 1 then (s, some badParam)
  else
    let w := s.viewWords [R.NEEDLE_STATUS k, R.NEEDLE_DOORBELL k, R.NEEDLE_TOHOST k, R.NEEDLE_OVR_CNT k, R.NEEDLE_LATE_CNT k,
      R.NEEDLE_CYC_MAX k, R.NEEDLE_CYC_LAST k, R.NEEDLE_MEM_ADDR k, R.NEEDLE_WQ_STAT k, R.NEEDLE_LAT_MAX k]
    ((s.busRead .shepherd (R.NEEDLE_TOHOST k)).1, some (okWith w))

def execDwNeedleStatus (f : Fin 128) (h : Hdr) (params : List Byte) (s : State) : Res :=
  .next (s.dweul ⟨0x0405, true, 0, .always⟩ f h params 4 State.dwNeedleStatus).1

end Sys2Proof.Machine
end

