-- ==== Sys2Proof/Machine/DwNvs.lean ====
section
/-!
DEFINITION. Dweul: the NVS and life cycle family (R584, R585, R590, R592, R593, R471, R500).
-/

namespace Sys2Proof.Machine

def nvsSize : Nat := 0x2000000

/-- NVS_READ: an uncorrectable word ends in a firmware trap (R544). -/
def State.dwNvsRead (s : State) (c : Cmd) : State × Option Ans :=
  let a := c.u32 0
  let n := c.u32 4
  if n = 0 || 4000 < n || nvsSize < a + n then (s, some badParam)
  else
    match (List.range n).find? (fun i => s.poisoned 10 (a + i)) with
    | some i => ((s.memUe 10 (a + i) .shepherd).shepTrap, none)
    | none => (s, some (okWith ((List.range n).map (fun i => s.mem.nvsByte (a + i)))))

def execDwNvsRead (f : Fin 128) (h : Hdr) (params : List Byte) (s : State) : Res :=
  .next (s.dweul ⟨0x0D01, true, 2, .always⟩ f h params 8 State.dwNvsRead).1

/-- NVS_WRITE: the user area of R584. -/
def State.dwNvsWrite (s : State) (c : Cmd) (block : List Byte) : State × Option Ans :=
  let a := c.u32 0
  if a < 0x500000 || 0x5F0000 < a + block.length then (s, some (rejected 0)) else (s.nvsStore a block, some {})

def execDwNvsWrite (f : Fin 128) (h : Hdr) (params block : List Byte) (s : State) : Res :=
  .next (s.dweulBulk ⟨0x0D02, false, 2, .onlyInCommission⟩ f h params block 4 State.dwNvsWrite).1

/-- The slot that does not run; when neither runs, the one that the boot record does not prefer. -/
def State.idleSlot (s : State) : Nat :=
  match s.fld R.SYS_BOOT F.SYS_BOOT_SLOT_RUN with
  | 0 => 1
  | 1 => 0
  | _ => 1 - s.mem.boot.pref % 2

/-- FW_UPDATE: slots A and B lie in NVS, or in QSPI flash when the engine boots from it (R582, R584, R585). -/
def State.dwFwUpdate (s : State) (_c : Cmd) (block : List Byte) : State × Option Ans :=
  if 0x200000 < block.length then (s, some badParam)
  else if s.pins.bootsel % 8 = 1 then
    ({ s with out := { s.out with flash := s.out.flash ++ [(s.idleSlot, block)] } }, some {})
  else (s.nvsStore (if s.idleSlot = 0 then 0x100000 else 0x300000) block, some {})

def execDwFwUpdate (f : Fin 128) (h : Hdr) (params block : List Byte) (s : State) : Res :=
  .next (s.dweulBulk ⟨0x0D03, false, 2, .always⟩ f h params block 0 State.dwFwUpdate).1

/-- FW_ACTIVATE. -/
def State.dwFwActivate (s : State) (c : Cmd) : State × Option Ans :=
  if 1 < c.u8 0 || !c.zero 3 1 then (s, some badParam)
  else ({ s with mem := { s.mem with boot := { pref := c.u8 0, trial := true, trialCnt := 0 } } }, some {})

def execDwFwActivate (f : Fin 128) (h : Hdr) (params : List Byte) (s : State) : Res :=
  .next (s.dweul ⟨0x0D04, false, 2, .always⟩ f h params 4 State.dwFwActivate).1

/-- CONFIG_COMMIT with the entries of its section, if any (R590). -/
def State.dwCommit (s : State) (folds : Option (List (Nat × Nat))) : State × Option Ans :=
  match s.configCommit folds with
  | (t, some r) => (t, some (okWith (le 4 r.1 ++ le 4 r.2)))
  | (t, none) => (t, some (rejected 1))

/-- The section of a CONFIG_COMMIT. -/
def State.dwCommitSection (s : State) (_c : Cmd) (block : List Byte) : State × Option Ans :=
  if block.length % 8 ≠ 0 then (s, some (rejected 1)) else s.dwCommit (some (entriesOf block))

/-- CONFIG_COMMIT: without parameters it has no section. -/
def execDwConfigCommit (f : Fin 128) (h : Hdr) (params block : List Byte) (s : State) : Res :=
  let seg : Bool := match ((s.takeIn f { h with opcode := 0x0D05 }).fold f).taken with
    | e :: _ => e.hdr.flags / 8 % 2 = 1
    | [] => false
  .next (if params.isEmpty && !seg then (s.dweul ⟨0x0D05, false, 2, .always⟩ f h params 0 (fun t _ => t.dwCommit none)).1
    else (s.dweulBulk ⟨0x0D05, false, 2, .section_⟩ f h params block 0 State.dwCommitSection).1)

/-! ### Life cycle (R592, R593) -/

/-- The successors of a life-cycle state. -/
def Otp.succeeds (o : Otp) (st : Nat) : Bool :=
  (o.lc = 0 && st = 1 && o.keys % 2 = 1) || (o.lc = 1 && (st = 2 || st = 3)) || (o.lc = 2 && st = 3)

/-- AUTH_CODE of a change to a state. -/
def State.authCode (s : State) (st : Nat) : Nat :=
  crcOf (le 4 (s.fld R.SYS_ENGINE_ID F.SYS_ENGINE_ID_ENGINE) ++ le 1 st ++ le 8 s.mem.otp.serial.toNat)

/-- The checks of LIFECYCLE. -/
def State.dwLifecycle (s : State) (c : Cmd) : State × Option Ans :=
  let st := c.u8 0
  if 3 < st || !c.zero 3 1 then (s, some badParam)
  else if !s.mem.otp.succeeds st then (s, some (rejected 1))
  else if c.u32 4 ≠ s.authCode st then (s, some (rejected 2))
  else if s.mode = .alarm then (s, some (rejected 3))
  else (s, some {})

/-- LIFECYCLE: the reply, the fuses, then a chip reset with cause 5. -/
def execDwLifecycle (f : Fin 128) (h : Hdr) (params : List Byte) (s : State) : Res :=
  let r := s.dweul ⟨0x0D06, false, 3, .engineerInCommission⟩ f h params 8 State.dwLifecycle
  if r.2 = some 0 then
    let t := r.1
    .next (State.chipReset { t with mem := { t.mem with otp := { t.mem.otp with lc := byteAt params 0 } } } 5 0)
  else .next r.1

/-- CHIP_RESET: the reply, then the reset of a CHIPRST reaction (R471). -/
def execDwChipReset (f : Fin 128) (h : Hdr) (params : List Byte) (s : State) : Res :=
  let r := s.dweul ⟨0x0D07, false, 2, .always⟩ f h params 0 (fun t _ => (t, some {}))
  .next (if r.2 = some 0 then r.1.chipRstReaction 6 0 else r.1)

end Sys2Proof.Machine
end

