-- ==== Sys2Proof/Machine/DwPattern.lean ====
section
/-!
DEFINITION. Dweul: the Stitches and Patterns families (R116, R122 to R125, R136, R146, R155, R500).
-/

namespace Sys2Proof.Machine

/-! ### Stitches -/

/-- A Shepherd write of a slot of BASTE. -/
def State.shepSlot (s : State) (key v : Nat) : State :=
  let a := 0xC1000000 + 8 * key
  s.shepWrites [(a, v % 2 ^ 32), (a + 4, v / 2 ^ 32)]

/-- A bank by its BANK code. -/
def State.bankOf (s : State) (code : Nat) : Bank := if code = 0 then s.quilt.live else s.quilt.baste

/-- STITCH_READ. -/
def State.dwStitchRead (s : State) (c : Cmd) : State × Option Ans :=
  let first := c.u32 4
  let n := c.u32 8
  if 1 < c.u8 0 || 15 < c.u8 1 || !c.zero 2 2 || n = 0 || 500 < n || 65536 < first + n then (s, some badParam)
  else
    let live := c.u8 0 = 0
    s.readEach n (fun t i =>
      let key := 65536 * c.u8 1 + first + i
      let r := t.quiltReads [.slot live key]
      (r.1, le 8 ((t.bankOf (c.u8 0)).slot key).toNat, r.2))

def execDwStitchRead (f : Fin 128) (h : Hdr) (params : List Byte) (s : State) : Res :=
  .next (s.dweul ⟨0x0201, true, 0, .always⟩ f h params 12 State.dwStitchRead).1

/-- STITCH_BASTE: BUSY in a state in which BASTE is closed (R136). -/
def State.dwStitchBaste (s : State) (c : Cmd) : State × Option Ans :=
  let first := c.u32 4
  let n := c.u32 8
  if 15 < c.u8 0 || !c.zero 3 1 || n = 0 || 500 < n || 65536 < first + n then (s, some badParam)
  else if !s.basteOpen then (s.seamBusy, some busyState)
  else
    ((List.range n).foldl (fun (t : State) i => t.shepSlot (65536 * c.u8 0 + first + i) (c.u64 (12 + 8 * i))) s, some {})

def execDwStitchBaste (f : Fin 128) (h : Hdr) (params : List Byte) (s : State) : Res :=
  .next (s.dweul ⟨0x0202, false, 1, .always⟩ f h params (12 + 8 * leAt params 4 8) State.dwStitchBaste).1

/-- STITCH_DIRECT: a 64-bit write, with the sample from which it acts (R116 to R119). -/
def State.dwStitchDirect (s : State) (c : Cmd) : State × Option Ans :=
  if 15 < c.u8 0 || !c.zero 1 1 then (s, some badParam)
  else
    let key := 65536 * c.u8 0 + c.u16 2
    let due := if s.paired then 8 * (s.msc / 8) + 16 else s.msc
    let s := { s with quilt := { s.quilt with hold := s.quilt.hold.filter (fun e => e.1 ≠ c.u8 0) } }
    let r := s.dwrRecord key (BitVec.ofNat 64 (c.u64 4))
    (r.1, some (if r.2 = 0 then okWith (le 8 due) else if r.2 = 2 then forbidden 3 else rejected r.2))

def execDwStitchDirect (f : Fin 128) (h : Hdr) (params : List Byte) (s : State) : Res :=
  .next (s.dweul ⟨0x0203, false, 2, .always⟩ f h params 12 State.dwStitchDirect).1

/-- DESC_READ. -/
def State.dwDescRead (s : State) (c : Cmd) : State × Option Ans :=
  let first := c.u16 2
  let n := c.u16 4
  if 1 < c.u8 0 || !c.zero 1 1 || !c.zero 2 6 || n = 0 || 125 < n || 4096 < first + n then (s, some badParam)
  else
    let live := c.u8 0 = 0
    s.readEach (4 * n) (fun t i =>
      let k := 4 * first + i
      let r := t.quiltReads [.desc live k]
      (r.1, le 8 (Sparse.get zeroD (t.bankOf (c.u8 0)).desc k).toNat, r.2))

def execDwDescRead (f : Fin 128) (h : Hdr) (params : List Byte) (s : State) : Res :=
  .next (s.dweul ⟨0x0204, true, 0, .always⟩ f h params 8 State.dwDescRead).1

/-- DESC_BASTE. -/
def State.dwDescBaste (s : State) (c : Cmd) : State × Option Ans :=
  let first := c.u16 0
  let n := c.u16 2
  if n = 0 || 125 < n || 4096 < first + n then (s, some badParam)
  else if !s.basteOpen then (s.seamBusy, some busyState)
  else
    (s.shepWrites ((List.range (8 * n)).map (fun i =>
      (R.QUILT_DESC_BASTE (first + i / 8) (i % 8), c.u32 (4 + 4 * i)))), some {})

def execDwDescBaste (f : Fin 128) (h : Hdr) (params : List Byte) (s : State) : Res :=
  .next (s.dweul ⟨0x0205, false, 1, .always⟩ f h params (4 + 32 * leAt params 2 2) State.dwDescBaste).1

/-- DMAP_BASTE. -/
def State.dwDmapBaste (s : State) (c : Cmd) : State × Option Ans :=
  let first := c.u16 0
  let n := c.u16 2
  if n = 0 || 1000 < n || 8192 < first + n then (s, some badParam)
  else if !s.basteOpen then (s.seamBusy, some busyState)
  else
    (s.shepWrites ((List.range n).map (fun i => (R.QUILT_DMAP_BASTE (first + i), c.u32 (4 + 4 * i)))), some {})

def execDwDmapBaste (f : Fin 128) (h : Hdr) (params : List Byte) (s : State) : Res :=
  .next (s.dweul ⟨0x0206, false, 1, .always⟩ f h params (4 + 4 * leAt params 2 2) State.dwDmapBaste).1

/-- SRC_ATTR_SET. -/
def State.dwSrcAttr (s : State) (c : Cmd) : State × Option Ans :=
  let first := c.u16 0
  let n := c.u16 2
  if n = 0 || 1000 < n || 8192 < first + n then (s, some badParam)
  else (s.shepWrites ((List.range n).map (fun i => (R.QUILT_SRC_ATTR (first + i), c.u32 (4 + 4 * i)))), some {})

def execDwSrcAttrSet (f : Fin 128) (h : Hdr) (params : List Byte) (s : State) : Res :=
  .next (s.dweul ⟨0x0207, false, 1, .always⟩ f h params (4 + 4 * leAt params 2 2) State.dwSrcAttr).1

/-- METER_READ: a read of the peak restarts it (R102). -/
def State.dwMeterRead (s : State) (c : Cmd) : State × Option Ans :=
  let first := c.u16 0
  let n := c.u16 2
  if n = 0 || 500 < n || 1024 < first + n then (s, some badParam)
  else
    s.readEach n (fun t i =>
      let p := t.meterPeak (first + i)
      (p.2, words [p.1.toNat] ++ t.viewWords [R.QUILT_METER_RMS (first + i)], false))

def execDwMeterRead (f : Fin 128) (h : Hdr) (params : List Byte) (s : State) : Res :=
  .next (s.dweul ⟨0x0208, true, 0, .always⟩ f h params 4 State.dwMeterRead).1

/-! ### Patterns -/

/-- A word of BASTE that a section of an image replaces. -/
def covers (bs : List Byte) (x : Section) (w : QWord) : Bool :=
  let r := runOf bs x
  match w with
  | .slot false key =>
    (x.type = 1 && 65536 * x.param + r.1 ≤ key && key < 65536 * x.param + r.1 + r.2.1) ||
      (x.type = 4 && key / 65536 = x.param)
  | .desc false i => x.type = 2 && 4 * r.1 ≤ i && i < 4 * (r.1 + r.2.1)
  | .dmap false e => x.type = 3 && r.1 ≤ e && e < r.1 + r.2.1
  | _ => false

/-- BASTE_IMAGE (R122 to R125, R136). -/
def State.dwBasteImage (s : State) (_c : Cmd) (bs : List Byte) : State × Option Ans :=
  if !s.basteOpen then (s.seamBusy, some busyState)
  else
    match parseImage (s.fld R.SYS_ENGINE_ID F.SYS_ENGINE_ID_ENGINE) bs with
    | none => (s, some (rejected 0))
    | some xs =>
      let whole := leAt bs 4 8 = 1
      let inBaste (w : QWord) : Bool := match w with
        | .slot l _ => !l | .desc l _ => !l | .dmap l _ => !l | _ => false
      let t := s.setBaste (s.quilt.baste.applyImage bs xs)
      let ue := t.quilt.ue.filter (fun w => !(inBaste w && (whole || xs.any (fun x => covers bs x w))))
      ({ t with quilt := { t.quilt with ue := ue } }, some {})

def execDwBasteImage (f : Fin 128) (h : Hdr) (params block : List Byte) (s : State) : Res :=
  .next (s.dweulBulk ⟨0x0301, false, 1, .always⟩ f h params block 0 State.dwBasteImage).1

/-- CHECK: the answer follows its end (R138). -/
def State.dwCheck (s : State) (c : Cmd) : State × Option Ans :=
  if s.basteOpen then (s.startCheck c.cls (some c.hdr) none, none) else (s.seamBusy, some busyState)

def execDwCheck (f : Fin 128) (h : Hdr) (params : List Byte) (s : State) : Res :=
  .next (s.dweul ⟨0x0302, false, 1, .always⟩ f h params 0 State.dwCheck).1

/-- SEW and GROUP_SEW (R136, R139, R155): from OPEN a CHECK comes first. -/
def State.sewCommand (s : State) (c : Cmd) (crc : Option Nat) : State × Option Ans :=
  let ask : SewAsk := ⟨c.hdr, c.cls, c.u64 0, crc⟩
  if s.bstate = 0 then (s.startCheck c.cls (some c.hdr) (some ask), none)
  else if s.bstate = 2 then
    let r := s.enterSew ask
    (r.1, some r.2)
  else (s.seamBusy, some busyState)

def execDwSew (f : Fin 128) (h : Hdr) (params : List Byte) (s : State) : Res :=
  .next (s.dweul ⟨0x0303, false, 1, .always⟩ f h params 8 (fun t c => t.sewCommand c none)).1

/-- DISCARD (R136, R146). -/
def State.dwDiscard (s : State) (c : Cmd) : State × Option Ans :=
  let force := c.u8 0 ≠ 0
  if !c.zero 3 1 then (s, some badParam)
  else if force && c.cls ≠ 3 then (s, some (forbidden 1))
  else
    let r := s.discard force
    (r.1, some { status := r.2.1, detail := r.2.2 })

def execDwDiscard (f : Fin 128) (h : Hdr) (params : List Byte) (s : State) : Res :=
  .next (s.dweul ⟨0x0304, false, 1, .always⟩ f h params 4 State.dwDiscard).1

/-- GROUP_SEW: without a group it is refused (R499). -/
def State.dwGroupSew (s : State) (c : Cmd) : State × Option Ans :=
  if c.hdr.group = 0 then (s, some (rejected 0)) else s.sewCommand c (some (c.u32 8))

def execDwGroupSew (f : Fin 128) (h : Hdr) (params : List Byte) (s : State) : Res :=
  .next (s.dweul ⟨0x0305, false, 1, .always⟩ f h params 12 State.dwGroupSew).1

/-- PATTERN_STATE. -/
def State.dwPatternState (s : State) (_c : Cmd) : State × Option Ans :=
  (s, some (okWith (s.viewWords [R.SEAM_STATUS, R.SEAM_CHK_CRC, R.SEAM_LIVE_CRC, R.SEAM_SEW_MSC_LO, R.SEAM_SEW_MSC_HI,
    R.SEAM_UNRAVEL_END_LO, R.SEAM_UNRAVEL_END_HI])))

def execDwPatternState (f : Fin 128) (h : Hdr) (params : List Byte) (s : State) : Res :=
  .next (s.dweul ⟨0x0306, true, 0, .always⟩ f h params 0 State.dwPatternState).1

end Sys2Proof.Machine
end

