-- ==== Sys2Proof/Machine/DwStream.lean ====
section
/-!
DEFINITION. Dweul: the PTP and streams family (R276, R287, R288, R296, R303, R318, R319, R326, R500).
-/

namespace Sys2Proof.Machine

/-! ### PTP -/

/-- PTP_READ: time and map offset of one time base. The codes of the servo's state and the identity of the grandmaster are
not stated: they are free values. -/
def State.dwPtpRead (s : State) (c : Cmd) : State × Option Ans :=
  let n := c.u8 0
  if 7 < n || !c.zero 3 1 then (s, some badParam)
  else
    let t := s.tb n
    let results := le 8 (t.time / secUnit) ++ le 4 (t.time % secUnit / nsUnit) ++ le 8 (wrapN 64 (t.map / 65536)) ++
      le 1 s.freeVal ++ le 3 0 ++ le 8 s.bump.freeVal
    (s.bump.bump, some (okWith results))

def execDwPtpRead (f : Fin 128) (h : Hdr) (params : List Byte) (s : State) : Res :=
  .next (s.dweul ⟨0x0601, true, 0, .always⟩ f h params 4 State.dwPtpRead).1

/-- Least and largest logSyncInterval and logAnnounceInterval of a profile (R287). -/
def profileRange (profile : Nat) : (Int × Int) × (Int × Int) :=
  match profile with
  | 2 => ((-4, 1), (0, 4))
  | 3 => ((-7, -1), (-3, 1))
  | _ => ((-7, 1), (-3, 4))

/-- PTP_SET. -/
def State.dwPtpSet (s : State) (c : Cmd) : State × Option Ans :=
  let n := c.u8 0
  let x : PtpInst := { profile := c.u8 1, domain := c.u8 2, ports := c.u8 3, logSync := sext 8 (c.u8 4),
                       logAnnounce := sext 8 (c.u8 5), role := c.u8 6 }
  let r := profileRange x.profile
  let within_ (lim : Int × Int) (v : Int) : Bool := decide (lim.1 ≤ v) && decide (v ≤ lim.2)
  if 7 < n || 3 < x.profile || 127 < x.domain || 15 < x.ports || 1 < x.role || !c.zero 1 7 ||
      !within_ r.1 x.logSync || !within_ r.2 x.logAnnounce then (s, some badParam)
  else
    let p := s.ptp
    ({ s with ptp := { p with insts := Sparse.set (fun _ => none) p.insts n (some x) } }, some {})

def execDwPtpSet (f : Fin 128) (h : Hdr) (params : List Byte) (s : State) : Res :=
  .next (s.dweul ⟨0x0602, false, 2, .always⟩ f h params 8 State.dwPtpSet).1

/-! ### Ports and flows -/

/-- NET_PORT_SET: four register writes; R296 governs MODE and FEC. -/
def State.dwNetPortSet (s : State) (c : Cmd) : State × Option Ans :=
  let p := c.u8 0
  if 3 < p || !c.zero 3 1 then (s, some badParam)
  else (s.shepWrites [(R.NET_PORT_CFG p, c.u32 4), (R.NET_PORT_MAC_LO p, c.u32 8), (R.NET_PORT_MAC_HI p, c.u32 12),
    (R.NET_PORT_IP p, c.u32 16)], some {})

def execDwNetPortSet (f : Fin 128) (h : Hdr) (params : List Byte) (s : State) : Res :=
  .next (s.dweul ⟨0x0603, false, 2, .always⟩ f h params 20 State.dwNetPortSet).1

/-- DIR and FLOW of a command are in range. -/
def flowOk (c : Cmd) : Bool := c.u8 0 ≤ 1 && c.zero 1 1 && c.u16 2 < 1024

/-- The flow that a command names. -/
def flowObj (c : Cmd) : Obj := if c.u8 0 = 1 then .txFlow (c.u16 2) else .rxFlow (c.u16 2)

/-- An APPLY through the bus: the group words of a command from byte `off` on, then the word that applies them; answers
INCONSISTENT with the code that the result register holds when the unit refuses the group. -/
def State.dwApply (s : State) (c : Cmd) (off : Nat) (group : List Nat) (apply : Nat × Nat) (flags : Nat) (err : Fld)
    (result : Nat) (code : Fld) : State × Option Ans :=
  let ws := (List.range group.length).map (fun i => (group.getD i 0, c.u32 (off + 4 * i)))
  let r := s.tryApply flags err (fun t => t.shepWrites (ws ++ [apply]))
  (r.1, some (if r.2 then {} else inconsistent (r.1.fld result code)))

/-- FLOW_SET (R303). -/
def State.dwFlowSet (s : State) (c : Cmd) : State × Option Ans :=
  let f := c.u16 2
  let tx := c.u8 0
  if !flowOk c then (s, some badParam)
  else
    s.dwApply c 4 (if tx = 1 then txGroup f else rxGroup f) (R.NET_APPLY, 2 ^ 31 + tx * 2 ^ 30 + f) R.NET_FLAGS
      F.NET_FLAGS_APPLY_ERR R.NET_APPLY_RESULT F.NET_APPLY_RESULT_CODE

/-- LENGTH of FLOW_SET by DIR. -/
def flowSetLen (params : List Byte) : Nat :=
  if byteAt params 0 = 0 then 40 else if byteAt params 0 = 1 then 36 else params.length

def execDwFlowSet (f : Fin 128) (h : Hdr) (params : List Byte) (s : State) : Res :=
  .next (s.dweul ⟨0x0604, false, 2, .always⟩ f h params (flowSetLen params) State.dwFlowSet).1

/-- A START of one object: REJECTED where R319 does not accept it. -/
def State.startOne (s : State) (c : Cmd) (o : Obj) (target : Nat) : State × Option Ans :=
  if s.startAccepted o target then
    let r := s.enterEvent c (.start o) target [o]
    (r.1, some r.2)
  else (s, some (rejected 0))

/-- A STOP of one object. -/
def State.stopEvent (s : State) (c : Cmd) (o : Obj) (target : Nat) : State × Option Ans :=
  let r := s.enterEvent c (.stop o) target []
  (r.1, some r.2)

/-- FLOW_START (R319). -/
def State.dwFlowStart (s : State) (c : Cmd) : State × Option Ans :=
  if !flowOk c then (s, some badParam) else s.startOne c (flowObj c) (c.u64 4)

def execDwFlowStart (f : Fin 128) (h : Hdr) (params : List Byte) (s : State) : Res :=
  .next (s.dweul ⟨0x0605, false, 1, .always⟩ f h params 12 State.dwFlowStart).1

/-- FLOW_STOP. -/
def State.dwFlowStop (s : State) (c : Cmd) : State × Option Ans :=
  if !flowOk c then (s, some badParam) else s.stopEvent c (flowObj c) (c.u64 4)

def execDwFlowStop (f : Fin 128) (h : Hdr) (params : List Byte) (s : State) : Res :=
  .next (s.dweul ⟨0x0606, false, 1, .always⟩ f h params 12 State.dwFlowStop).1

/-- FLOCK and the reserved bytes after it. -/
def flockOk (c : Cmd) : Bool := c.u8 0 < 64 && c.zero 3 1

/-- FLOCK_START (R318, R319): members that the START would not accept are skipped. -/
def State.dwFlockStart (s : State) (c : Cmd) : State × Option Ans :=
  let g := c.u8 0
  let target := c.u64 4
  if !flockOk c then (s, some badParam)
  else
    let all := s.flockObjs g
    let mine := all.filter (fun o => s.startAccepted o target)
    if mine.isEmpty then (s, some (rejected 0))
    else
      let r := s.enterEvent c (.start (.flock g)) target mine
      if r.2.status ≠ 0 then (r.1, some r.2)
      else
        let skipped := min 255 (all.length - mine.length)
        let t := (r.1.setFld (R.NET_FLOCK_STAT g) F.NET_FLOCK_STAT_SKIPPED skipped).wr64 (R.NET_FLOCK_MSC_LO g)
          (R.NET_FLOCK_MSC_HI g) target
        (t, some { r.2 with results := r.2.results ++ le 1 skipped ++ le 3 0 })

def execDwFlockStart (f : Fin 128) (h : Hdr) (params : List Byte) (s : State) : Res :=
  .next (s.dweul ⟨0x0607, false, 1, .always⟩ f h params 12 State.dwFlockStart).1

/-- FLOCK_STOP. -/
def State.dwFlockStop (s : State) (c : Cmd) : State × Option Ans :=
  if !flockOk c then (s, some badParam) else s.stopEvent c (.flock (c.u8 0)) (c.u64 4)

def execDwFlockStop (f : Fin 128) (h : Hdr) (params : List Byte) (s : State) : Res :=
  .next (s.dweul ⟨0x0608, false, 1, .always⟩ f h params 12 State.dwFlockStop).1

/-- The status, K and counter registers of a flow (R326). -/
def flowRegs (tx : Bool) (f : Nat) : List Nat :=
  if tx then [R.NET_TXF_STAT f, R.NET_TXF_K_LO f, R.NET_TXF_K_HI f, R.NET_TXF_PKT_CNT f, R.NET_TXF_CLIP_CNT f,
    R.NET_TXF_DROP_CNT f]
  else [R.NET_RXF_STAT f, R.NET_RXF_K_LO f, R.NET_RXF_K_HI f, R.NET_RXF_PKT_CNT f, R.NET_RXF_LOST_CNT f,
    R.NET_RXF_OOW_CNT f, R.NET_RXF_UNDER_CNT f]

/-- FLOW_READ. -/
def State.dwFlowRead (s : State) (c : Cmd) : State × Option Ans :=
  if !flowOk c then (s, some badParam) else (s, some (okWith (s.viewWords (flowRegs (c.u8 0 = 1) (c.u16 2)))))

def execDwFlowRead (f : Fin 128) (h : Hdr) (params : List Byte) (s : State) : Res :=
  .next (s.dweul ⟨0x0609, true, 0, .always⟩ f h params 4 State.dwFlowRead).1

end Sys2Proof.Machine
end

