-- ==== Sys2Proof/Machine/DwPort.lean ====
section
/-!
DEFINITION. Dweul: the Ports and Line drive families (R345, R352, R370, R382, R383, R390, R500).
-/

namespace Sys2Proof.Machine

/-! ### Ports -/

/-- KIND and INDEX name a port. -/
def portOk (c : Cmd) : Bool := (c.u8 0 < 2 && c.u8 1 < 32) || (c.u8 0 = 2 && c.u8 1 < 16)

/-- The port that a command names. -/
def portOf (c : Cmd) : LocalPort := portOfKey (64 * c.u8 0 + c.u8 1)

/-- PORT_SET (R345). -/
def State.dwPortSet (s : State) (c : Cmd) : State × Option Ans :=
  if !portOk c || !c.zero 2 2 then (s, some badParam)
  else
    s.dwApply c 4 (portGroup (portOf c)) (R.PORT_APPLY, 2 ^ 31 + c.u8 0 * 2 ^ 8 + c.u8 1) R.PORT_FLAGS F.PORT_FLAGS_APPLY_ERR
      R.PORT_APPLY_RESULT F.PORT_APPLY_RESULT_CODE

/-- LENGTH of PORT_SET by KIND. -/
def portSetLen (params : List Byte) : Nat :=
  if byteAt params 0 < 3 then 4 + 4 * portGroupWords (byteAt params 0) else params.length

def execDwPortSet (f : Fin 128) (h : Hdr) (params : List Byte) (s : State) : Res :=
  .next (s.dweul ⟨0x0701, false, 2, .always⟩ f h params (portSetLen params) State.dwPortSet).1

/-- PORT_START (R319, R352). -/
def State.dwPortStart (s : State) (c : Cmd) : State × Option Ans :=
  if !portOk c || !c.zero 2 2 then (s, some badParam) else s.startOne c (portOf c).obj (c.u64 4)

def execDwPortStart (f : Fin 128) (h : Hdr) (params : List Byte) (s : State) : Res :=
  .next (s.dweul ⟨0x0702, false, 1, .always⟩ f h params 12 State.dwPortStart).1

/-- PORT_STOP. -/
def State.dwPortStop (s : State) (c : Cmd) : State × Option Ans :=
  if !portOk c || !c.zero 2 2 then (s, some badParam) else s.stopEvent c (portOf c).obj (c.u64 4)

def execDwPortStop (f : Fin 128) (h : Hdr) (params : List Byte) (s : State) : Res :=
  .next (s.dweul ⟨0x0703, false, 1, .always⟩ f h params 12 State.dwPortStop).1

/-- STAT and the counters of a port, in offset order (R359). -/
def portRegs : LocalPort → List Nat
  | .arx r => [R.PORT_ARX_STAT r, R.PORT_ARX_PAR_CNT r, R.PORT_ARX_CRC_CNT r, R.PORT_ARX_VAL_CNT r, R.PORT_ARX_UNLOCK_CNT r,
      R.PORT_ARX_SLIP_CNT r, R.PORT_ARX_BLKERR_CNT r]
  | .atx t => [R.PORT_ATX_STAT t, R.PORT_ATX_CLIP_CNT t]
  | .tdm p => [R.PORT_TDM_STAT p, R.PORT_TDM_CLIP_CNT p, R.PORT_TDM_SLIP_CNT p, R.PORT_TDM_CLKLOSS_CNT p]

/-- PORT_READ. -/
def State.dwPortRead (s : State) (c : Cmd) : State × Option Ans :=
  if !portOk c || !c.zero 2 2 then (s, some badParam) else (s, some (okWith (s.viewWords (portRegs (portOf c)))))

def execDwPortRead (f : Fin 128) (h : Hdr) (params : List Byte) (s : State) : Res :=
  .next (s.dweul ⟨0x0704, true, 0, .always⟩ f h params 4 State.dwPortRead).1

/-! ### Line drive -/

/-- CH and the reserved bytes after it. -/
def lineOk (c : Cmd) : Bool := c.u8 0 < 16 && c.zero 3 1

/-- LINE_SET (R390). -/
def State.dwLineSet (s : State) (c : Cmd) : State × Option Ans :=
  if !lineOk c then (s, some badParam)
  else
    s.dwApply c 4 (lineGroup (c.u8 0)) (R.LINE_APPLY, 2 ^ 31 + c.u8 0) R.LINE_FLAGS F.LINE_FLAGS_APPLY_ERR
      R.LINE_APPLY_RESULT F.LINE_APPLY_RESULT_CODE

def execDwLineSet (f : Fin 128) (h : Hdr) (params : List Byte) (s : State) : Res :=
  .next (s.dweul ⟨0x0801, false, 2, .always⟩ f h params 28 State.dwLineSet).1

/-- LINE_ENABLE: one event of class 6 for the channels of the mask. -/
def State.dwLineEnable (s : State) (c : Cmd) : State × Option Ans :=
  if !c.zero 2 2 then (s, some badParam)
  else
    let r := s.enterEvent c (.lineEn (c.u16 0)) (c.u64 4) []
    (r.1, some r.2)

def execDwLineEnable (f : Fin 128) (h : Hdr) (params : List Byte) (s : State) : Res :=
  .next (s.dweul ⟨0x0802, false, 1, .always⟩ f h params 12 State.dwLineEnable).1

/-- LINE_DISABLE: one event of class 3. -/
def State.dwLineDisable (s : State) (c : Cmd) : State × Option Ans :=
  if !c.zero 2 2 then (s, some badParam) else s.stopEvent c (.lines (c.u16 0)) (c.u64 4)

def execDwLineDisable (f : Fin 128) (h : Hdr) (params : List Byte) (s : State) : Res :=
  .next (s.dweul ⟨0x0803, false, 1, .always⟩ f h params 12 State.dwLineDisable).1

/-- LINE_CLEAR (R382): the CLEAR of LINE_CH_CMD, channel by channel. -/
def State.dwLineClear (s : State) (c : Cmd) : State × Option Ans :=
  if !c.zero 2 2 then (s, some badParam)
  else (s.shepWrites ((maskList 16 (c.u16 0)).map (fun n => (R.LINE_CH_CMD n, 4))), some {})

def execDwLineClear (f : Fin 128) (h : Hdr) (params : List Byte) (s : State) : Res :=
  .next (s.dweul ⟨0x0804, false, 2, .always⟩ f h params 4 State.dwLineClear).1

/-- LINE_CTRL_SET (R370). -/
def State.dwLineCtrlSet (s : State) (c : Cmd) : State × Option Ans :=
  let r := s.tryApply R.LINE_FLAGS F.LINE_FLAGS_CFG_IGN (fun t => t.shepWrite R.LINE_CTRL (c.u32 0))
  (r.1, some (if r.2 then {} else rejected 0))

def execDwLineCtrlSet (f : Fin 128) (h : Hdr) (params : List Byte) (s : State) : Res :=
  .next (s.dweul ⟨0x0805, false, 2, .always⟩ f h params 4 State.dwLineCtrlSet).1

/-- The registers of a channel from LINE_CH_STAT on. -/
def lineRegs (n : Nat) : List Nat :=
  [R.LINE_CH_STAT n, R.LINE_CH_GR n, R.LINE_CH_ZMAG n, R.LINE_CH_EF n, R.LINE_CH_TEMP n, R.LINE_CH_OCP_CNT n,
    R.LINE_CH_TRIP_CNT n, R.LINE_CH_RETRY n, R.LINE_CH_CLIP_CNT n, R.LINE_CH_LIM_CNT n]

/-- LINE_READ. -/
def State.dwLineRead (s : State) (c : Cmd) : State × Option Ans :=
  if !lineOk c then (s, some badParam) else (s, some (okWith (s.viewWords (R.LINE_STATUS :: lineRegs (c.u8 0)))))

def execDwLineRead (f : Fin 128) (h : Hdr) (params : List Byte) (s : State) : Res :=
  .next (s.dweul ⟨0x0806, true, 0, .always⟩ f h params 4 State.dwLineRead).1

end Sys2Proof.Machine
end

