-- ==== Sys2Proof/Machine/DwSystem.lean ====
section
/-!
DEFINITION. Dweul: the System family (R499 to R501).
-/

namespace Sys2Proof.Machine

/-- NOP. -/
def execDwNop (f : Fin 128) (h : Hdr) (params : List Byte) (s : State) : Res :=
  .next (s.dweul ⟨0x0100, true, 0, .always⟩ f h params params.length (fun t _ => (t, some {}))).1

/-- GET_INFO. -/
def State.dwInfo (s : State) (_c : Cmd) : State × Option Ans :=
  (s, some (okWith (s.viewWords [R.SYS_ID] ++ le 2 (s.fld R.SYS_ENGINE_ID F.SYS_ENGINE_ID_ENGINE) ++ le 2 0 ++
    le 4 s.boot.fwver ++ s.viewWords [R.SYS_MODE] ++ le 8 s.msc)))

def execDwGetInfo (f : Fin 128) (h : Hdr) (params : List Byte) (s : State) : Res :=
  .next (s.dweul ⟨0x0101, true, 0, .always⟩ f h params 0 State.dwInfo).1

/-- SET_MODE (R27, R35). -/
def State.dwSetMode (s : State) (c : Cmd) : State × Option Ans :=
  let code := c.u8 8
  if 5 < code || !c.zero 3 9 then (s, some badParam)
  else if !modeRequest s.baseMode code then (s, some (rejected 0))
  else
    let r := s.enterEvent c (.mode code) (c.u64 0) []
    (r.1, some r.2)

def execDwSetMode (f : Fin 128) (h : Hdr) (params : List Byte) (s : State) : Res :=
  .next (s.dweul ⟨0x0102, false, 2, .always⟩ f h params 12 State.dwSetMode).1

/-- EVENT_CANCEL (R70, R497). -/
def State.dwCancel (s : State) (c : Cmd) : State × Option Ans :=
  match s.sched.events.find? (fun e => e.handle = c.u32 0) with
  | none => (s, some (rejected 0))
  | some e =>
    if e.fold ≠ c.fold && c.cls ≠ 3 then (s, some (forbidden 0))
    else if s.armedAt e.fire then (s, some { status := 5 })
    else (s.cancelEvent e, some {})

def execDwEventCancel (f : Fin 128) (h : Hdr) (params : List Byte) (s : State) : Res :=
  .next (s.dweul ⟨0x0103, false, 1, .always⟩ f h params 4 State.dwCancel).1

/-- ADDR and COUNT of REG_READ and REG_WRITE pass step 5. -/
def regRangeOk (c : Cmd) : Bool :=
  let a := c.u32 0
  let n := c.u16 4
  1 ≤ n && n ≤ 256 && c.zero 2 6 && (2 ≤ c.cls || (0x42000000 ≤ a && a < 0x42F00000))

/-- An access of Shepherd at this address meets R42. -/
def State.meetsR42 (s : State) (a : Nat) : Bool := decide (s.targetFor .shepherd (a / 4 * 4) = .unmapped)

/-- REG_READ: words in ascending order, up to the first that meets R42; answers those read, the index that failed, and
whether a word was uncorrectable. -/
def State.regReads (s : State) (a : Nat) : Nat → Nat → List Nat → State × List Nat × Option Nat × Bool
  | 0, _, l => (s, l.reverse, none, false)
  | n + 1, i, l =>
    let addr := (a + 4 * i) % 2 ^ 32
    let r := s.busRead .shepherd addr
    if s.meetsR42 addr then (r.1, l.reverse, some i, false)
    else if r.2.2 then (r.1, l.reverse, none, true)
    else r.1.regReads a n (i + 1) (r.2.1.toNat :: l)

def State.dwRegRead (s : State) (c : Cmd) : State × Option Ans :=
  if !regRangeOk c then (s, some badParam)
  else
    match s.regReads (c.u32 0) (c.u16 4) 0 [] with
    | (t, _, some i, _) => (t, some (rejected (i % 256)))
    | (t, _, none, true) => (t.shepTrap, none)
    | (t, l, none, false) => (t, some (okWith (words l)))

def execDwRegRead (f : Fin 128) (h : Hdr) (params : List Byte) (s : State) : Res :=
  .next (s.dweul ⟨0x0104, true, 0, .always⟩ f h params 8 State.dwRegRead).1

/-- REG_WRITE: words in ascending order, up to the first that meets R42, whose index is answered. -/
def State.regWrites (s : State) (a : Nat) : List Nat → Nat → State × Option Nat
  | [], _ => (s, none)
  | v :: l, i =>
    let addr := (a + 4 * i) % 2 ^ 32
    let t := s.shepWrite addr v
    if s.meetsR42 addr then (t, some i) else t.regWrites a l (i + 1)

def State.dwRegWrite (s : State) (c : Cmd) : State × Option Ans :=
  if !regRangeOk c then (s, some badParam)
  else
    let vs := (List.range (c.u16 4)).map (fun i => c.u32 (8 + 4 * i))
    match s.regWrites (c.u32 0) vs 0 with
    | (t, some i) => (t, some (rejected (i % 256)))
    | (t, none) => (t, some {})

def execDwRegWrite (f : Fin 128) (h : Hdr) (params : List Byte) (s : State) : Res :=
  .next (s.dweul ⟨0x0105, false, 2, .always⟩ f h params (8 + 4 * leAt params 2 4) State.dwRegWrite).1

/-- FOLD_INFO. -/
def State.dwFoldInfo (s : State) (c : Cmd) : State × Option Ans :=
  (s, some (okWith (s.viewWords [R.FOLD_CFG c.fold, R.FOLD_STAT c.fold, R.FOLD_STATUS])))

def execDwFoldInfo (f : Fin 128) (h : Hdr) (params : List Byte) (s : State) : Res :=
  .next (s.dweul ⟨0x0106, true, 0, .always⟩ f h params 0 State.dwFoldInfo).1

/-- GROUP_CANCEL (R499): events already armed stay, and the answer is then LATE with its results. -/
def State.dwGroupCancel (s : State) (c : Cmd) : State × Option Ans :=
  let mine := s.sched.events.filter (fun e => c.hdr.group ≠ 0 && e.group = c.hdr.group && e.cls ≤ c.cls)
  let open_ := mine.filter (fun e => !s.armedAt e.fire)
  let t := open_.foldl State.cancelEvent s
  let results := le 2 open_.length ++ le 2 0
  if mine.isEmpty then (s, some (rejected 0))
  else (t, some { status := if open_.length = mine.length then 0 else 5, results := results })

def execDwGroupCancel (f : Fin 128) (h : Hdr) (params : List Byte) (s : State) : Res :=
  .next (s.dweul ⟨0x0107, false, 1, .always⟩ f h params 0 State.dwGroupCancel).1

end Sys2Proof.Machine
end

