-- ==== Sys2Proof/Machine/DwTelem.lean ====
section
/-!
DEFINITION. Telemetry (R502, R503) with its Dweul family, and Shepherd's watchdog, traps and restart (R504).
-/

namespace Sys2Proof.Machine

/-! ### Selectors (R502) -/

/-- KIND and INDEX of a selector. -/
def selKind (sel : Nat) : Nat := sel / 4096 % 16
def selIndex (sel : Nat) : Nat := sel % 4096

/-- The port of an INDEX of KIND 5. -/
def telemPort (i : Nat) : LocalPort :=
  if i < 32 then .arx (Fin.ofNat 32 i) else if i < 64 then .atx (Fin.ofNat 32 (i - 32)) else .tdm (Fin.ofNat 16 (i - 64))

/-- The registers of a set; KIND 1's map offsets and KIND 8's peaks are taken apart. None for what is no selector. -/
def telemRegs (kind i : Nat) : Option (List Nat) :=
  match kind with
  | 0 => if i = 0 then
      some [R.SYS_MODE, R.SCHED_STATUS, R.SEAM_STATUS, R.BELL_STATUS, R.PTP_STATUS, R.NET_STATUS, R.PORT_STATUS, R.LINE_STATUS,
        R.ALARM_STATUS, R.TWIN_STATUS, R.FAULT_STATUS, R.CCU_STATUS, R.FOLD_STATUS, R.FOLD_BACKLOG, R.SYS_DIE_TEMP,
        R.SYS_DRAM_STAT] else none
  | 1 => if i = 0 then
      some [R.BELL_STATUS, R.BELL_QUAL, R.BELL_VOTE, R.BELL_PD, R.BELL_FREQ, R.BELL_PHASE_OFS_LO, R.BELL_PHASE_OFS_HI,
        R.BELL_SWITCH_CNT] else none
  | 2 => if i < 4 then
      some [R.NET_PORT_STAT i, R.NET_PORT_LOAD i, R.NET_PORT_RX_CNT i, R.NET_PORT_RXERR_CNT i, R.NET_PORT_HOST_DROP_CNT i,
        R.PTP_TXTS_STAT i, R.PTP_TXTS_DROP_CNT i] else none
  | 3 => if i < 1024 then some (flowRegs false i) else none
  | 4 => if i < 1024 then
      some [R.NET_TXF_STAT i, R.NET_TXF_K_LO i, R.NET_TXF_K_HI i, R.NET_TXF_SEQ i, R.NET_TXF_PKT_CNT i, R.NET_TXF_CLIP_CNT i,
        R.NET_TXF_DROP_CNT i] else none
  | 5 => if i < 80 then some (portRegs (telemPort i)) else none
  | 6 => if i < 16 then some (R.LINE_SUPPLY_V :: lineRegs i) else none
  | 7 => if i < 64 then
      some [R.NEEDLE_STATUS i, R.NEEDLE_OVR_CNT i, R.NEEDLE_LATE_CNT i, R.NEEDLE_CYC_MAX i, R.NEEDLE_CYC_LAST i,
        R.NEEDLE_WQ_STAT i, R.NEEDLE_LAT_MAX i] else none
  | 8 => if i < 64 then some [] else none
  | 9 => if i < 64 then
      some ((List.range 64).flatMap (fun k => [R.QUILT_BUS_CLIP_CNT (64 * i + k), R.QUILT_BUS_LIM_CNT (64 * i + k)])) else none
  | 10 => if i = 0 then some ((List.range 8).map R.FAULT_RAISED ++ (List.range 8).map R.FAULT_SEVERE) else none
  | 11 => if i = 0 then
      some ([R.ALARM_STATUS, R.ALARM_IN_STATE, R.ALARM_IN_LATCH, R.ALARM_IN_SUPP, R.ALARM_PAT_STAT, R.ALARM_ENTRY_CNT] ++
        (List.range 64).map R.ALARM_PLY_STAT) else none
  | 12 => if i = 0 then
      some [R.TWIN_STATUS, R.TWIN_HEALTH, R.TWIN_HEALTH_AGE, R.TWIN_CHECK_CNT, R.TWIN_MISMATCH_CNT, R.TWIN_SWITCH_CNT,
        R.TWIN_DELTA_MAX, R.TWIN_EXPOSE] else none
  | _ => none

/-- The selector is one of R502. -/
def selOk (sel : Nat) : Bool := (telemRegs (selKind sel) (selIndex sel)).isSome

/-- The words of a selector's set as they stand. -/
def State.telemWords (s : State) (sel : Nat) : List Word :=
  let i := selIndex sel
  let base := ((telemRegs (selKind sel) i).getD []).map s.view
  if selKind sel = 1 then
    base ++ (List.range 8).flatMap (fun n =>
      let m := wrapN 64 ((s.tb n).map / 65536)
      [BitVec.ofNat 32 m, BitVec.ofNat 32 (m / 2 ^ 32), s.view (R.PTP_TB_STAT n)])
  else if selKind sel = 8 then
    (List.range 16).flatMap (fun k =>
      [BitVec.ofNat 32 (Sparse.get (fun _ => 0) s.shep.telemPeak (16 * i + k)), s.view (R.QUILT_METER_RMS (16 * i + k))])
  else base

/-- Number of words of a set. -/
def telemCount (sel : Nat) : Nat :=
  let n := ((telemRegs (selKind sel) (selIndex sel)).getD []).length
  if selKind sel = 1 then n + 24 else if selKind sel = 8 then 32 else n

/-! ### Refreshes (R503) -/

def telemDefault : Nat → Nat × List Word := fun _ => (0, [])

/-- SELECTOR, WORDS and the words, as snapshots and notices carry them. -/
def telemBody (sel : Nat) (ws : List Word) : List Byte :=
  le 2 sel ++ le 2 ws.length ++ words (ws.map BitVec.toNat)

/-- The subscription of one fold to the selector that has been refreshed. -/
def State.telemPush (s : State) (f sel : Nat) (set : Nat × List Word) : State :=
  let x := s.fold f
  match x.subs.find? (fun u => u.sel = sel) with
  | none => s
  | some u =>
    let due := u.period ≤ u.count + 1
    let subs := x.subs.map (fun v => if v.sel = sel then { v with count := if due then 0 else v.count + 1 } else v)
    let s := s.setFold f { x with subs := subs }
    if due then s.noticeWith f 0x0C02 u.seq u.group 0 0 0 set.1 sel (telemBody sel set.2) else s

/-- One selector is refreshed within the present block; the peaks of KIND 8 restart. -/
def State.telemRefresh (s : State) (sel : Nat) : State :=
  let set := (8 * (s.msc / 8), s.telemWords sel)
  let s := { s with shep := { s.shep with telem := Sparse.set telemDefault s.shep.telem sel set } }
  let s := if selKind sel = 8 then
      { s with shep := { s.shep with telemPeak := s.shep.telemPeak.filter (fun e => e.1 / 16 ≠ selIndex sel) } }
    else s
  if s.load = 0 && s.served then (s.shep.folds.map (·.1)).foldl (fun (t : State) f => t.telemPush f sel set) s else s

/-- TELEMETRY_REFRESH. -/
def execTelemetryRefresh (sel : BitVec 16) (s : State) : Res :=
  .next (if selOk sel.toNat then s.telemRefresh sel.toNat else s)

/-! ### The Telemetry family -/

/-- A set of free values, for a selector that no refresh has taken yet. -/
def State.freeSet (s : State) (n : Nat) : State × Nat × List Word :=
  ({ s with freeCtr := s.freeCtr + n + 1 }, Config.free s.freeCtr % 2 ^ 64,
    (List.range n).map (fun i => BitVec.ofNat 32 (Config.free (s.freeCtr + 1 + i))))

/-- TELEM_SNAPSHOT. -/
def State.dwTelemSnapshot (s : State) (c : Cmd) : State × Option Ans :=
  let sel := c.u16 0
  if !c.zero 2 2 then (s, some badParam)
  else if !selOk sel then (s, some (rejected 1))
  else
    let set := Sparse.get telemDefault s.shep.telem sel
    if set.2.isEmpty then
      let r := s.freeSet (telemCount sel)
      (r.1, some (okWith (le 8 r.2.1 ++ telemBody sel r.2.2)))
    else (s, some (okWith (le 8 set.1 ++ telemBody sel set.2)))

def execDwTelemSnapshot (f : Fin 128) (h : Hdr) (params : List Byte) (s : State) : Res :=
  .next (s.dweul ⟨0x0C01, true, 0, .always⟩ f h params 4 State.dwTelemSnapshot).1

/-- TELEM_SUBSCRIBE. -/
def State.dwTelemSubscribe (s : State) (c : Cmd) : State × Option Ans :=
  let sel := c.u16 0
  let period := c.u16 2
  let x := s.fold c.fold
  if period = 0 || 600 < period then (s, some badParam)
  else if !selOk sel then (s, some (rejected 1))
  else if x.subs.any (fun u => u.sel = sel) then
    (s.setFold c.fold { x with subs := x.subs.map (fun u => if u.sel = sel then { u with period := period } else u) }, some {})
  else if 8 ≤ x.subs.length then (s, some { status := 6 })
  else (s.setFold c.fold { x with subs := x.subs ++ [⟨sel, period, 0, c.hdr.seq, c.hdr.group⟩] }, some {})

def execDwTelemSubscribe (f : Fin 128) (h : Hdr) (params : List Byte) (s : State) : Res :=
  .next (s.dweul ⟨0x0C02, true, 0, .always⟩ f h params 4 State.dwTelemSubscribe).1

/-- TELEM_UNSUBSCRIBE. -/
def State.dwTelemUnsubscribe (s : State) (c : Cmd) : State × Option Ans :=
  let sel := c.u16 0
  let x := s.fold c.fold
  if !c.zero 2 2 then (s, some badParam)
  else if x.subs.any (fun u => u.sel = sel) then
    (s.setFold c.fold { x with subs := x.subs.filter (fun u => u.sel ≠ sel) }, some {})
  else (s, some (rejected 0))

def execDwTelemUnsubscribe (f : Fin 128) (h : Hdr) (params : List Byte) (s : State) : Res :=
  .next (s.dweul ⟨0x0C03, true, 0, .always⟩ f h params 4 State.dwTelemUnsubscribe).1

/-! ### Watchdog, traps and restart (R504) -/

/-- Firmware runs, whatever its command service does. -/
def State.firmwareRuns (s : State) : Bool := s.boot.fwRuns && s.mode ≠ .boot && s.mode ≠ .fallback && !s.fbRes

/-- SHEP_WDOG_EXPIRY: `ms` milliseconds have passed without a restart of the watchdog. The third within 10 s is fatal. -/
def State.shepWdog (s : State) : State :=
  let recent := s.shep.wdogs.filter (fun e => decide (s.edge < e + 960000))
  let s : State := { s with shep := { s.shep with restarting := true, wdogs := recent ++ [s.edge] } }
  let s := s.raise FS.SHEP_WDOG 0 0
  if 2 ≤ recent.length then s.raise FS.SHEP_FATAL 0 0 else s

def execShepWdogExpiry (ms : Nat) (s : State) : Res := .next (if s.firmwareRuns && 100 ≤ ms then s.shepWdog else s)

/-- SHEP_TRAP: a recoverable firmware trap. -/
def execShepTrap (s : State) : Res := .next (if s.firmwareRuns then s.shepTrap else s)

/-- Every command that a fold had taken is answered ABORTED. -/
def State.abortFold (s : State) (f : Nat) : State :=
  (s.fold f).taken.foldl (fun (t : State) e => t.answer f e.hdr { status := 9 }) s

/-- A CHECK that a command started goes with the command, and BASTE is open again. -/
def State.abortCheck (s : State) : State :=
  match s.seam.checking with
  | some (_, some _, _) => State.setBstate { s with seam := { s.seam with checking := none } } 0
  | _ => s

/-- The command service is up again; a TRAP that waited has been taken. -/
def State.shepRestart (s : State) : State :=
  let s : State := { s with shep := { s.shep with restarting := false }, fc := { s.fc with trapPend := false } }
  (s.shep.folds.map (·.1)).foldl State.abortFold s.abortCheck

/-- SHEP_RESTART: the restart of command service, with its result. -/
def execShepRestart (ok : Bool) (s : State) : Res :=
  .next (if !s.firmwareRuns || !s.shep.restarting then s else if ok then s.shepRestart else s.raise FS.SHEP_FATAL 0 0)

end Sys2Proof.Machine
end

