-- ==== Sys2Proof/Machine/DwTwin.lean ====
section
/-!
DEFINITION. Dweul: the Twin and Faults families (R449, R450, R456, R466, R500).
-/

namespace Sys2Proof.Machine

/-! ### Twin -/

/-- TWIN_READ: the registers at offsets 0 to 0x30. -/
def State.dwTwinRead (s : State) (_c : Cmd) : State × Option Ans :=
  (s, some (okWith (s.viewWords ((List.range 13).map (fun i => R.TWIN_CFG + 4 * i)))))

def execDwTwinRead (f : Fin 128) (h : Hdr) (params : List Byte) (s : State) : Res :=
  .next (s.dweul ⟨0x0A01, true, 0, .always⟩ f h params 0 State.dwTwinRead).1

/-- HANDOVER (R449, R450). -/
def State.dwHandover (s : State) (c : Cmd) : State × Option Ans :=
  if s.isStandby then (s, some (rejected 0))
  else if s.baseMode = .commission then (s, some (forbidden 2))
  else if s.tstate ≠ 5 then (s, some (rejected 0))
  else
    let r := s.enterEvent c .handover (c.u64 0) []
    (r.1, some r.2)

def execDwHandover (f : Fin 128) (h : Hdr) (params : List Byte) (s : State) : Res :=
  .next (s.dweul ⟨0x0A02, false, 2, .always⟩ f h params 8 State.dwHandover).1

/-- TWIN_CMD (R456). -/
def State.dwTwinCmd (s : State) (c : Cmd) : State × Option Ans :=
  let r := s.tryApply R.TWIN_FLAGS F.TWIN_FLAGS_WR_IGN (fun t => t.shepWrite R.TWIN_CMD (c.u32 0))
  (r.1, some (if r.2 then {} else rejected 0))

def execDwTwinCmd (f : Fin 128) (h : Hdr) (params : List Byte) (s : State) : Res :=
  .next (s.dweul ⟨0x0A03, false, 2, .always⟩ f h params 4 State.dwTwinCmd).1

/-- TWIN_CFG_SET. -/
def State.dwTwinCfgSet (s : State) (c : Cmd) : State × Option Ans := (s.shepWrite R.TWIN_CFG (c.u32 0), some {})

def execDwTwinCfgSet (f : Fin 128) (h : Hdr) (params : List Byte) (s : State) : Res :=
  .next (s.dweul ⟨0x0A04, false, 2, .always⟩ f h params 4 State.dwTwinCfgSet).1

/-! ### Faults -/

/-- FAULT_READ: offsets 4 to 0x20, of which 0xC holds no register, then the map. -/
def State.dwFaultRead (s : State) (_c : Cmd) : State × Option Ans :=
  (s, some (okWith (s.viewWords ((List.range 8).map (fun i => R.FAULT_STATUS + 4 * i) ++ (List.range 8).map R.FAULT_REC_MAP))))

def execDwFaultRead (f : Fin 128) (h : Hdr) (params : List Byte) (s : State) : Res :=
  .next (s.dweul ⟨0x0B01, true, 0, .always⟩ f h params 0 State.dwFaultRead).1

/-- FAULT_ACK (R466). -/
def execDwFaultAck (f : Fin 128) (h : Hdr) (params : List Byte) (s : State) : Res :=
  .next (s.dweul ⟨0x0B02, false, 1, .always⟩ f h params 0 (fun t _ => (t.recAck, some {}))).1

/-- FAULT_SRC_SET. -/
def State.dwFaultSrcSet (s : State) (c : Cmd) : State × Option Ans :=
  let n := c.u8 0
  if !c.zero 3 1 then (s, some badParam)
  else (s.shepWrites [(R.FAULT_SRC_CFG n, c.u32 4), (R.FAULT_SRC_WIN n, c.u32 8), (R.FAULT_SRC_QUIET n, c.u32 12)], some {})

def execDwFaultSrcSet (f : Fin 128) (h : Hdr) (params : List Byte) (s : State) : Res :=
  .next (s.dweul ⟨0x0B03, false, 2, .always⟩ f h params 16 State.dwFaultSrcSet).1

/-- FAULT_SRC_READ. -/
def State.dwFaultSrcRead (s : State) (c : Cmd) : State × Option Ans :=
  let first := c.u8 0
  let n := c.u8 1
  if n = 0 || 64 < n || !c.zero 2 2 || 256 < first + n then (s, some badParam)
  else
    (s, some (okWith (s.viewWords ((List.range n).flatMap (fun i =>
      [R.FAULT_SRC_STAT (first + i), R.FAULT_SRC_CNT (first + i)])))))

def execDwFaultSrcRead (f : Fin 128) (h : Hdr) (params : List Byte) (s : State) : Res :=
  .next (s.dweul ⟨0x0B04, true, 0, .always⟩ f h params 4 State.dwFaultSrcRead).1

end Sys2Proof.Machine
end

