-- ==== Sys2Proof/Machine/NeedleAlu.lean ====
section
/-!
DEFINITION. The Needle instructions that compute on D registers and immediates, the moves, and the accumulator
functions (R192 to R194, R216, R218, R219, R221, R223, R224).
-/

namespace Sys2Proof.Machine

/-! ### Shared operations -/

/-- A D result written after one cycle, with its flags. -/
def Core.result (k : Core) (dd : Nat) (v : Int) (f : FlagSet) : NRes :=
  .ok ((k.postD dd (BitVec.ofInt 32 v) 1).postFlags f)

/-- A sum of two 32-bit operands under R193; C is the unsigned carry (R219). -/
def Core.sum (k : Core) (x y : Word) : Int × FlagSet :=
  let e := x.toInt + y.toInt
  let v := fit 32 (srSat k.sr) e
  (v, flagsZNCV v (2 ^ 32 ≤ x.toNat + y.toNat) (outOfRange 32 e))

/-- A difference under R193; C is the borrow (R219). -/
def Core.difference (k : Core) (x y : Word) : Int × FlagSet :=
  let e := x.toInt - y.toInt
  let v := fit 32 (srSat k.sr) e
  (v, flagsZNCV v (x.toNat < y.toNat) (outOfRange 32 e))

/-- A left shift under R193. -/
def Core.shiftLeft (k : Core) (dd : Nat) (x : Word) (n : Nat) : NRes :=
  let e := x.toInt * ((2 ^ n : Nat) : Int)
  let v := fit 32 (srSat k.sr) e
  k.result dd v (flagsZNV v (outOfRange 32 e))

/-- An arithmetic right shift, toward −∞. -/
def Core.shiftRight (k : Core) (dd : Nat) (x : Word) (n : Nat) : NRes :=
  let v := x.toInt / ((2 ^ n : Nat) : Int)
  k.result dd v (flagsZN v)

/-- A logical result: Z and N describe the word. -/
def Core.logic (k : Core) (dd : Nat) (x : Word) : NRes := k.result dd x.toInt (flagsZN x.toInt)

/-- The extract of an accumulator (R194, R223): the value and whether it saturated or wrapped. -/
def Core.extract (k : Core) (an n : Nat) : Int × Bool :=
  let e := dropBits (srRnd k.sr) n (k.accO an)
  (fit 32 (srSat k.sr) e, outOfRange 32 e)

/-- A result of an accumulator function (R224), seen by every consumer after three cycles. -/
def Core.accResult (k : Core) (an : Nat) (e : Int) : NRes :=
  let v := fit 72 (srSat k.sr) e
  .ok ((k.post (.acc an) (pattern 72 v) 3).postFlags (flagsZNV v (outOfRange 72 e)))

/-- A 16-bit immediate, sign-extended. -/
def imm16 (n : Nat) : Word := BitVec.ofInt 32 (sgnVal 16 n)

/-! ### ALU group (R218) -/

def execAlAdd (c : Fin 64) (e : Ecc) (s : State) : Res :=
  .next (s.issue c e fun i k => match i with
    | .add dd da db => let r := k.sum (k.dReg da) (k.dReg db); some (k.result dd r.1 r.2)
    | _ => none)

def execAlSub (c : Fin 64) (e : Ecc) (s : State) : Res :=
  .next (s.issue c e fun i k => match i with
    | .sub dd da db => let r := k.difference (k.dReg da) (k.dReg db); some (k.result dd r.1 r.2)
    | _ => none)

def execAlNeg (c : Fin 64) (e : Ecc) (s : State) : Res :=
  .next (s.issue c e fun i k => match i with
    | .neg dd da => let r := k.difference 0#32 (k.dReg da); some (k.result dd r.1 r.2)
    | _ => none)

def execAlAbs (c : Fin 64) (e : Ecc) (s : State) : Res :=
  .next (s.issue c e fun i k => match i with
    | .abs dd da =>
      let x : Int := (k.dReg da).toInt.natAbs
      let v := fit 32 (srSat k.sr) x
      some (k.result dd v (flagsZNV v (outOfRange 32 x)))
    | _ => none)

def execAlMin (c : Fin 64) (e : Ecc) (s : State) : Res :=
  .next (s.issue c e fun i k => match i with
    | .min dd da db => let v := min (k.dReg da).toInt (k.dReg db).toInt; some (k.result dd v (flagsZN v))
    | _ => none)

def execAlMax (c : Fin 64) (e : Ecc) (s : State) : Res :=
  .next (s.issue c e fun i k => match i with
    | .max dd da db => let v := max (k.dReg da).toInt (k.dReg db).toInt; some (k.result dd v (flagsZN v))
    | _ => none)

def execAlCmp (c : Fin 64) (e : Ecc) (s : State) : Res :=
  .next (s.issue c e fun i k => match i with
    | .cmp da db => let r := k.difference (k.dReg da) (k.dReg db); some (.ok (k.postFlags r.2))
    | _ => none)

def execAlAnd (c : Fin 64) (e : Ecc) (s : State) : Res :=
  .next (s.issue c e fun i k => match i with
    | .and dd da db => some (k.logic dd (k.dReg da &&& k.dReg db))
    | _ => none)

def execAlOr (c : Fin 64) (e : Ecc) (s : State) : Res :=
  .next (s.issue c e fun i k => match i with
    | .or dd da db => some (k.logic dd (k.dReg da ||| k.dReg db))
    | _ => none)

def execAlXor (c : Fin 64) (e : Ecc) (s : State) : Res :=
  .next (s.issue c e fun i k => match i with
    | .xor dd da db => some (k.logic dd (k.dReg da ^^^ k.dReg db))
    | _ => none)

def execAlNot (c : Fin 64) (e : Ecc) (s : State) : Res :=
  .next (s.issue c e fun i k => match i with
    | .not dd da => some (k.logic dd (~~~ k.dReg da))
    | _ => none)

def execAlShl (c : Fin 64) (e : Ecc) (s : State) : Res :=
  .next (s.issue c e fun i k => match i with
    | .shl dd da sh => some (k.shiftLeft dd (k.dReg da) sh)
    | _ => none)

def execAlShr (c : Fin 64) (e : Ecc) (s : State) : Res :=
  .next (s.issue c e fun i k => match i with
    | .shr dd da sh => some (k.shiftRight dd (k.dReg da) sh)
    | _ => none)

def execAlLsr (c : Fin 64) (e : Ecc) (s : State) : Res :=
  .next (s.issue c e fun i k => match i with
    | .lsr dd da sh => some (k.logic dd (k.dReg da >>> sh))
    | _ => none)

def execAlRshr (c : Fin 64) (e : Ecc) (s : State) : Res :=
  .next (s.issue c e fun i k => match i with
    | .rshr dd da sh => let v := dropBits (srRnd k.sr) sh (k.dReg da).toInt; some (k.result dd v (flagsZN v))
    | _ => none)

def execAlShlv (c : Fin 64) (e : Ecc) (s : State) : Res :=
  .next (s.issue c e fun i k => match i with
    | .shlv dd da db => some (k.shiftLeft dd (k.dReg da) ((k.dReg db).toNat % 32))
    | _ => none)

def execAlShrv (c : Fin 64) (e : Ecc) (s : State) : Res :=
  .next (s.issue c e fun i k => match i with
    | .shrv dd da db => some (k.shiftRight dd (k.dReg da) ((k.dReg db).toNat % 32))
    | _ => none)

def execAlMov (c : Fin 64) (e : Ecc) (s : State) : Res :=
  .next (s.issue c e fun i k => match i with
    | .mov dd da => some (.ok (k.postD dd (k.dReg da) 1))
    | _ => none)

def execAlNorm (c : Fin 64) (e : Ecc) (s : State) : Res :=
  .next (s.issue c e fun i k => match i with
    | .norm dd da => let v : Int := normCount (k.dReg da); some (k.result dd v (flagsZ v))
    | _ => none)

/-! ### Immediates (R216) -/

def execAlAddi (c : Fin 64) (e : Ecc) (s : State) : Res :=
  .next (s.issue c e fun i k => match i with
    | .addi dd da n => let r := k.sum (k.dReg da) (imm16 n); some (k.result dd r.1 r.2)
    | _ => none)

def execAlCmpi (c : Fin 64) (e : Ecc) (s : State) : Res :=
  .next (s.issue c e fun i k => match i with
    | .cmpi da n => let r := k.difference (k.dReg da) (imm16 n); some (.ok (k.postFlags r.2))
    | _ => none)

def execAlLdi (c : Fin 64) (e : Ecc) (s : State) : Res :=
  .next (s.issue c e fun i k => match i with
    | .ldi dd n => some (.ok (k.postD dd (imm16 n) 1))
    | _ => none)

def execAlLdi32 (c : Fin 64) (e : Ecc) (s : State) : Res :=
  .next (s.issue c e fun i k => match i with
    | .ldi32 dd w => some (.ok (k.postD dd w 1))
    | _ => none)

/-! ### Moves and address registers (R216, R221) -/

def execAlMovs (c : Fin 64) (e : Ecc) (s : State) : Res :=
  .next (s.issue c e fun i k => match i with
    | .movs true dx l => some (.ok (k.postD dx (k.specRead l) 1))
    | .movs false dx l => some (.ok (k.post l (k.dReg dx).toNat (specLatency l)))
    | _ => none)

/-- The address register of a KIND code (R211). -/
def kindLoc (kind n : Nat) : NLoc :=
  match kind with
  | 0 => .p n
  | 1 => .b n
  | 2 => .l n
  | _ => .m n

def execAlSeta (c : Fin 64) (e : Ecc) (s : State) : Res :=
  .next (s.issue c e fun i k => match i with
    | .seta kind n v => some (.ok (k.post (kindLoc kind n) v 3))
    | _ => none)

def execAlAddp (c : Fin 64) (e : Ecc) (s : State) : Res :=
  .next (s.issue c e fun i k => match i with
    | .addp n v => some (.ok (k.post (.p n) (k.step n (sgnVal 16 v)) 1))
    | _ => none)

/-! ### Accumulator functions (R224) and extracts (R223) -/

def execAlAclr (c : Fin 64) (e : Ecc) (s : State) : Res :=
  .next (s.issue c e fun i k => match i with
    | .aclr an => some (k.accResult an 0)
    | _ => none)

def execAlAadd (c : Fin 64) (e : Ecc) (s : State) : Res :=
  .next (s.issue c e fun i k => match i with
    | .aadd an a2 => some (k.accResult an (k.accO an + k.accO a2))
    | _ => none)

def execAlAsub (c : Fin 64) (e : Ecc) (s : State) : Res :=
  .next (s.issue c e fun i k => match i with
    | .asub an a2 => some (k.accResult an (k.accO an - k.accO a2))
    | _ => none)

def execAlAmov (c : Fin 64) (e : Ecc) (s : State) : Res :=
  .next (s.issue c e fun i k => match i with
    | .amov an a2 => some (k.accResult an (k.accO a2))
    | _ => none)

def execAlAneg (c : Fin 64) (e : Ecc) (s : State) : Res :=
  .next (s.issue c e fun i k => match i with
    | .aneg an => some (k.accResult an (-(k.accO an)))
    | _ => none)

def execAlAshl (c : Fin 64) (e : Ecc) (s : State) : Res :=
  .next (s.issue c e fun i k => match i with
    | .ashl an sh => some (k.accResult an (k.accO an * ((2 ^ sh : Nat) : Int)))
    | _ => none)

def execAlAshr (c : Fin 64) (e : Ecc) (s : State) : Res :=
  .next (s.issue c e fun i k => match i with
    | .ashr an sh => some (k.accResult an (k.accO an / ((2 ^ sh : Nat) : Int)))
    | _ => none)

def execAlExt (c : Fin 64) (e : Ecc) (s : State) : Res :=
  .next (s.issue c e fun i k => match i with
    | .ext dd an sh => let r := k.extract an sh; some (k.result dd r.1 (flagsZNV r.1 r.2))
    | _ => none)

/-- The four extracts of QEXT and QEXTS (R223) posted to D(dd + k), with V of any lane (R219). -/
def Core.quadExtract (k : Core) (dd n : Nat) : Core :=
  let rs := [0, 1, 2, 3].map (fun j => k.extract j n)
  let k' := [0, 1, 2, 3].foldl (fun t j => t.postD (dd + j) (BitVec.ofInt 32 (k.extract j n).1) 1) k
  k'.postFlags (flagsV (rs.any (·.2)))

def execAlQext (c : Fin 64) (e : Ecc) (s : State) : Res :=
  .next (s.issue c e fun i k => match i with
    | .qext dd sh => some (.ok (k.quadExtract dd sh))
    | _ => none)

end Sys2Proof.Machine
end

