-- ==== Sys2Proof/Machine/NeedleMem.lean ====
section
/-!
DEFINITION. The Needle instructions that access X and Y memory, the multiply-accumulates and the parallel forms (R167,
R170, R192, R212 to R216, R222, R223, R226).
-/

namespace Sys2Proof.Machine

/-! ### Accesses -/

/-- The trap of an access to some words, if it traps: ADDR outside the map, ECC on a poisoned word that is read. -/
def Core.trapOfWords (k : Core) (y bad : Bool) (as : List Nat) (reads : Bool) : Option NRes :=
  if bad then some .badAddr
  else if reads then (as.find? (k.poisoned y)).map (NRes.badWord (if y then 2 else 1))
  else none

/-- The trap of a single-word access. -/
def Core.trapOf (k : Core) (y : Bool) (a : Nat) (reads : Bool) : Option NRes :=
  k.trapOfWords y (Sys2Proof.Machine.badWord y a) [a] reads

/-- The trap of a quad access (R215). -/
def Core.trapOfQuad (k : Core) (y : Bool) (as : List Nat) (reads : Bool) : Option NRes :=
  k.trapOfWords y (badQuad y as) as reads

/-- The pointer update of a memory operand. -/
def Core.update (old k : Core) (o : MemOp) : Core := k.postPtr o.pn (old.memPost o)

/-- A load of one word into a place, with the side effect of reading (R202) and the pointer update. -/
def Core.load (k : Core) (c tag : Nat) (o : MemOp) (l : NLoc) (latency : Nat) : NRes :=
  let a := k.memAddr o
  match k.trapOf o.y a true with
  | some t => t
  | none =>
    let w := k.readWord c tag o.y a
    .ok (((k.update k o).afterRead o.y a).post l w.toNat latency)

/-- A store of one word. -/
def Core.store (k : Core) (o : MemOp) (w : Word) : NRes :=
  let a := k.memAddr o
  match k.trapOf o.y a false with
  | some t => t
  | none => .ok ((k.update k o).writeWord o.y a w)

/-- A quad store of four words (R214). -/
def Core.storeQuad (old k : Core) (o : MemOp) (ws : List Word) : NRes :=
  let as := old.quadAddrs o
  match old.trapOfQuad o.y as false with
  | some t => t
  | none => .ok ((as.zip ws).foldl (fun t p => t.writeWord o.y p.1 p.2) (old.update k o))

/-- The memory operands of the two sides of a DLS (R211). -/
def DualOp.x (o : DualOp) : MemOp := ⟨false, none, o.xp, o.xam⟩
def DualOp.yy (o : DualOp) : MemOp := ⟨true, none, o.yp, o.yam⟩

/-- One side of a DLS carried out; `old` is the core at issue (R226). -/
def Core.side (old k : Core) (c tag : Nat) (o : MemOp) (st : Bool) (d : Nat) : Core :=
  let a := old.memAddr o
  let k := old.update k o
  if st then k.writeWord o.y a (old.dReg d)
  else (k.afterRead o.y a).postD d (old.readWord c tag o.y a) 2

/-- The two accesses of DLS and MACDL (R226); `k` may already hold the posted MAC result. -/
def Core.dual (old k : Core) (c tag : Nat) (o : DualOp) : NRes :=
  match old.trapOf false (old.memAddr o.x) (!o.xst), old.trapOf true (old.memAddr o.yy) (!o.yst) with
  | some t, _ => t
  | none, some t => t
  | none, none => .ok (old.side (old.side k c tag o.x o.xst o.xd) c tag o.yy o.yst o.yd)

/-! ### Multiply-accumulate (R222) -/

/-- One lane: the exact result before R193. -/
def Core.lane (k : Core) (op an : Nat) (a b : Word) : Int :=
  let p := a.toInt * b.toInt
  match op with
  | 0 => k.accM an + p
  | 1 => k.accM an - p
  | 2 => p
  | _ => -p

/-- The lanes of a MAC-class instruction: accumulator, a, b; V of any lane (R219). -/
def Core.lanes (k : Core) (op : Nat) (ls : List (Nat × Word × Word)) : Core :=
  let es := ls.map (fun l => (l.1, k.lane op l.1 l.2.1 l.2.2))
  let k' := es.foldl (fun t e => t.postMac e.1 (fit 72 (srSat k.sr) e.2)) k
  k'.postFlags (flagsV (es.any (fun e => outOfRange 72 e.2)))

/-- A single-lane MAC of a given OP. -/
def macAs (want c : Nat) (e : Ecc) (s : State) : State :=
  s.issue c e fun i k => match i with
    | .mac op an da db => if op = want then some (.ok (k.lanes op [(an, k.dReg da, k.dReg db)])) else none
    | _ => none

/-- A quad MAC from D registers of a given OP. -/
def qmacAs (want c : Nat) (e : Ecc) (s : State) : State :=
  s.issue c e fun i k => match i with
    | .qmac op da db bc =>
      if op = want then
        some (.ok (k.lanes op ([0, 1, 2, 3].map (fun j => (j, k.dReg (da + j), k.dReg (if bc then db else db + j))))))
      else none
    | _ => none

/-- A quad MAC from memory (R214, R222): with BC = 1 the Y access moves one word. -/
def Core.qmacm (k : Core) (c tag op : Nat) (o : MacmOp) : NRes :=
  let ox : MemOp := ⟨false, none, o.xp, o.xam⟩
  let oy : MemOp := ⟨true, none, o.yp, o.yam⟩
  let xs := k.quadAddrs ox
  let ys := if o.bc then [k.memAddr oy, k.memAddr oy, k.memAddr oy, k.memAddr oy] else k.quadAddrs oy
  match k.trapOfQuad false xs true, k.trapOfQuad true ys true with
  | some t, _ => t
  | none, some t => t
  | none, none =>
    let ls := (List.range 4).map (fun j =>
      (j, k.readWord c tag false (xs.getD j 0), k.readWord c tag true (ys.getD j 0)))
    .ok (k.update (k.update (k.lanes op ls) ox) oy)

def qmacmAs (want c : Nat) (e : Ecc) (s : State) : State :=
  s.issue c e fun i k => match i with
    | .qmacm op o => if op = want then some (k.qmacm c s.needle.tag op o) else none
    | _ => none

def execAlMac (c : Fin 64) (e : Ecc) (s : State) : Res := .next (macAs 0 c e s)
def execAlMsu (c : Fin 64) (e : Ecc) (s : State) : Res := .next (macAs 1 c e s)
def execAlMpy (c : Fin 64) (e : Ecc) (s : State) : Res := .next (macAs 2 c e s)
def execAlMpyn (c : Fin 64) (e : Ecc) (s : State) : Res := .next (macAs 3 c e s)
def execAlQmac (c : Fin 64) (e : Ecc) (s : State) : Res := .next (qmacAs 0 c e s)
def execAlQmsu (c : Fin 64) (e : Ecc) (s : State) : Res := .next (qmacAs 1 c e s)
def execAlQmpy (c : Fin 64) (e : Ecc) (s : State) : Res := .next (qmacAs 2 c e s)
def execAlQmpyn (c : Fin 64) (e : Ecc) (s : State) : Res := .next (qmacAs 3 c e s)
def execAlQmacm (c : Fin 64) (e : Ecc) (s : State) : Res := .next (qmacmAs 0 c e s)
def execAlQmsum (c : Fin 64) (e : Ecc) (s : State) : Res := .next (qmacmAs 1 c e s)
def execAlQmpym (c : Fin 64) (e : Ecc) (s : State) : Res := .next (qmacmAs 2 c e s)
def execAlQmpynm (c : Fin 64) (e : Ecc) (s : State) : Res := .next (qmacmAs 3 c e s)

def execAlMacdl (c : Fin 64) (e : Ecc) (s : State) : Res :=
  .next (s.issue c e fun i k => match i with
    | .macdl op an da db o => some (k.dual (k.lanes op [(an, k.dReg da, k.dReg db)]) c s.needle.tag o)
    | _ => none)

def execAlQexts (c : Fin 64) (e : Ecc) (s : State) : Res :=
  .next (s.issue c e fun i k => match i with
    | .qexts dd sh o =>
      let ws := (List.range 4).map (fun j => BitVec.ofInt 32 (k.extract j sh).1)
      some (k.storeQuad (k.quadExtract dd sh) o ws)
    | _ => none)

/-! ### Loads and stores (R216) -/

def execAlLds (c : Fin 64) (e : Ecc) (s : State) : Res :=
  .next (s.issue c e fun i k => match i with
    | .lds l o => some (k.load c s.needle.tag o l (specLoadLatency l))
    | _ => none)

def execAlSts (c : Fin 64) (e : Ecc) (s : State) : Res :=
  .next (s.issue c e fun i k => match i with
    | .sts l o => some (k.store o (k.specRead l))
    | _ => none)

def execAlLd (c : Fin 64) (e : Ecc) (s : State) : Res :=
  .next (s.issue c e fun i k => match i with
    | .ld r o => some (k.load c s.needle.tag o (.d r) 2)
    | _ => none)

def execAlSt (c : Fin 64) (e : Ecc) (s : State) : Res :=
  .next (s.issue c e fun i k => match i with
    | .st r o => some (k.store o (k.dReg r))
    | _ => none)

def execAlLdq (c : Fin 64) (e : Ecc) (s : State) : Res :=
  .next (s.issue c e fun i k => match i with
    | .ldq r o =>
      let as := k.quadAddrs o
      match k.trapOfQuad o.y as true with
      | some t => some t
      | none =>
        some (.ok ((List.range 4).foldl
          (fun t j => t.postD (r + j) (k.readWord c s.needle.tag o.y (as.getD j 0)) 2) (k.update k o)))
    | _ => none)

def execAlStq (c : Fin 64) (e : Ecc) (s : State) : Res :=
  .next (s.issue c e fun i k => match i with
    | .stq r o => some (k.storeQuad k o ((List.range 4).map (fun j => k.dReg (r + j))))
    | _ => none)

def execAlDls (c : Fin 64) (e : Ecc) (s : State) : Res :=
  .next (s.issue c e fun i k => match i with
    | .dls o => some (k.dual k c s.needle.tag o)
    | _ => none)

end Sys2Proof.Machine
end

