-- ==== Sys2Proof/Machine/Pins.lean ====
section
/-!
DEFINITION. The pins that reset the engine or a part of it (R578, R579, R604), and the test access port (R611).
-/

namespace Sys2Proof.Machine

/-! ### Supplies and RESET_N (R578, R602, R604) -/

/-- POWER_ON_RESET: every rail has stood above its brown-out level for 1 ms. The straps are as the board sets them, and the
classes of the VDDIO banks are sampled. -/
def execPowerOnReset (bootsel : Fin 8) (roleB : Bool) (v33 : BitVec 6) (s : State) : Res :=
  .next { s.powerOnReset with
    pins := { s.pins with railsOk := true, bootsel := bootsel.val, roleB := roleB, v33 := v33.toNat, jtagIr := 2 } }

/-- BROWN_OUT: a rail has been below its brown-out level for 1 µs. -/
def execBrownOut (s : State) : Res :=
  let s := s.powerOnReset
  .next { s with pins := { s.pins with railsOk := false } }

/-- RESET_N_PIN: low for 1 µs or more starts a chip reset, which runs until the pin is high. -/
def execResetNPin (low : Bool) (s : State) : Res :=
  let t : State := { s with pins := { s.pins with resetLow := low } }
  .next (if low && !s.pins.resetLow then t.chipReset 1 0 else t)

/-! ### PCIe (R579) -/

/-- The PCIe folds of a predicate are disabled. -/
def State.disablePcie (s : State) : State :=
  (List.range 128).foldl (fun (t : State) f =>
    if t.foldEn f && !t.foldUdp f then State.ccuConfigChange t (t.disableFold f) (R.FOLD_CFG f) else t) s

/-- PERST: the endpoint is reset. -/
def execPerst (s : State) : Res :=
  let s : State := { s with pins := { s.pins with pcieUp := false } }
  .next s.disablePcie

/-- PCIE_LINK_UP: firmware re-enables the LIFE-SAFETY folds that the configuration area of NVS enables. -/
def execPcieLinkUp (s : State) : Res :=
  let was := s.pins.pcieUp
  let s : State := { s with pins := { s.pins with pcieUp := true } }
  if was || !s.boot.fwRuns then .next s
  else
    match s.mem.committed with
    | some r =>
      .next ((List.range 128).foldl (fun (t : State) f =>
        if !t.foldEn f && !t.foldUdp f && t.foldClass f = 3 &&
            r.2.entries.any (fun e => e.1 = R.FOLD_CFG f && F.FOLD_CFG_EN.of e.2 = 1 && F.FOLD_CFG_CLASS.of e.2 = 3) then
          State.ccuConfigChange t (t.enableFold f) (R.FOLD_CFG f)
        else t) s)
    | none => .next s

/-! ### JTAG (R611) -/

def State.jtag (s : State) (ir : Nat) : State := { s with pins := { s.pins with jtagIr := ir } }

/-- An instruction that cuts the core off from the pins. -/
def cutsPins (ir : Nat) : Bool := ir = 0 || ir = 3 || ir = 4

def execJtagExtest (s : State) : Res := .next (s.jtag 0x00)
def execJtagSamplePreload (s : State) : Res := .next (s.jtag 0x01)
def execJtagIdcode (s : State) : Res := .next (s.jtag 0x02)
def execJtagHighz (s : State) : Res := .next (s.jtag 0x03)
def execJtagClamp (s : State) : Res := .next (s.jtag 0x04)

/-- CHIP_RST: a chip reset at Update-IR; the TAP then selects BYPASS. -/
def execJtagChipRst (s : State) : Res := .next ((s.jtag 0xFF).chipReset 7 0)

def execJtagBypass (s : State) : Res := .next (s.jtag 0xFF)

/-- TAP_RESET: Test-Logic-Reset is entered, and IDCODE selected; a chip reset when the core was cut off from the pins. -/
def execJtagTapReset (s : State) : Res :=
  let t := s.jtag 2
  .next (if cutsPins s.pins.jtagIr then t.chipReset 7 0 else t)

end Sys2Proof.Machine
end

