-- ==== Sys2Proof/Machine/Scrub.lean ====
section
/-!
DEFINITION. The scrubbers and the DRAM controller's retraining (R418, R544, R545, R556).
-/

namespace Sys2Proof.Machine

/-- Master code of the scrubbers (R543). -/
def scrubber : Nat := 7

/-- The ECC result of a word that a scrubber reads (R544): an uncorrectable word is left as it stands, poisoned. -/
def State.scrubWord (s : State) (w : ScrubWord) (ue : Bool) : State :=
  match w with
  | .mem code i =>
    let c := code.val
    let s : State := if ue && !s.mem.poison.contains (c, i) then
        { s with mem := { s.mem with poison := (c, i) :: s.mem.poison } }
      else s
    let a : Word := if c = 8 || c = 9 then Config.eccAddr c i else BitVec.ofNat 32 (memAddrOf c (8 * i))
    if c = 11 then
      if ue then s.dramUe scrubber (8 * i) (some FS.DRAM_ECC_UE)
      else s.eccResult 11 scrubber true (BitVec.ofNat 32 (2 * i)) false (some FS.DRAM_ECC_CE) 0
    else s.eccResult c scrubber false a ue (some (memFault c ue)) 0
  | .quilt q =>
    if !ue then s.quiltCe q scrubber
    else match q with
      | .slot live _ => if live then s.liveUes scrubber [q] else s.basteUe scrubber [q]
      | .desc live _ => if live then s.liveUes scrubber [q] else s.basteUe scrubber [q]
      | .dmap live _ => if live then s.liveUes scrubber [q] else s.basteUe scrubber [q]
      | .gain key => (s.quiltEcc q scrubber true).gainUe key
      | .frame tile src => (s.quiltEcc q scrubber true).raise FS.QUILT_FRAME_UE tile src
  | .needle core space addr =>
    let a := Config.eccAddr 7 (2 ^ 18 * core.val + 2 ^ 16 * space.val + addr.toNat)
    if ue then
      let k := s.core core
      let e := (space.val, addr.toNat)
      let s := s.setCore core { k with poison := if k.poison.contains e then k.poison else e :: k.poison }
      s.eccResult 7 scrubber false a true (some FS.SRAM_ECC_UE) 0
    else
      (s.eccResult 7 scrubber false a false (some FS.NEEDLE_ECC_CE) core).flag R.NEEDLE_FLAGS F.NEEDLE_FLAGS_ECC_CE

/-- SCRUB_LINE: a scrubber reads a line; `found` lists the words with an ECC result, and whether it is uncorrectable.
`nvsEnd` says that the line ends a pass over NVS, which also checks its messages, patterns and fallback image (R418). -/
def execScrubLine (found : List (ScrubWord × Bool)) (nvsEnd : Bool) (s : State) : Res :=
  let s := found.foldl (fun (t : State) e => t.scrubWord e.1 e.2) s
  .next (if nvsEnd then s.nvsPass else s)

/-- DRAM_RETRAIN: a periodic retraining of a trained controller passes on every channel, or fails (R556). -/
def execDramRetrain (ok : Bool) (s : State) : Res :=
  if !ok && s.bit R.SYS_DRAM_STAT F.SYS_DRAM_STAT_TRAINED && !s.bit R.SYS_DRAM_STAT F.SYS_DRAM_STAT_FAIL then .next s.dramFail
  else .next s

end Sys2Proof.Machine
end

