-- ==== Sys2Proof/Machine/Dispatch.lean ====
section
/-!
DEFINITION. exec: one arm per command, each one direct call of the command's meaning. exec acts on everything but the
queue of waiting commands.
-/

namespace Sys2Proof.Machine

open Sys2Proof

def exec (i : Instr) (s : State) : Host.Outcome State Fault Refusal :=
  match i with
  | .mediaClockEdge found bad clips => Sys2Proof.Machine.execMediaClockEdge found bad clips s
  | .mscStart => Sys2Proof.Machine.execMscStart s
  | .blockStart codes back late => Sys2Proof.Machine.execBlockStart codes back late s
  | .eventFire => Sys2Proof.Machine.execEventFire s
  | .anchorGo m v => Sys2Proof.Machine.execAnchorGo m v s
  | .anchorTake => Sys2Proof.Machine.execAnchorTake s
  | .latchedPairRead m addr => Sys2Proof.Machine.execLatchedPairRead m addr s
  | .bgcfgTakeEffect => Sys2Proof.Machine.execBgcfgTakeEffect s
  | .registerWrite m addr v enable hw => Sys2Proof.Machine.execRegisterWrite m addr v enable hw s
  | .aliasAccess m index write => Sys2Proof.Machine.execAliasAccess m index write s
  | .remapWrite m v => Sys2Proof.Machine.execRemapWrite m v s
  | .directStitchWrite tile slot v enable => Sys2Proof.Machine.execDirectStitchWrite tile slot v enable s
  | .directWritePairedApply => Sys2Proof.Machine.execDirectWritePairedApply s
  | .basteWrite word v enable => Sys2Proof.Machine.execBasteWrite word v enable s
  | .meterPeakRead point => Sys2Proof.Machine.execMeterPeakRead point s
  | .dlyApply tap => Sys2Proof.Machine.execDlyApply tap s
  | .dlyDelayWrite tap v => Sys2Proof.Machine.execDlyDelayWrite tap v s
  | .dlyXfEnd tap => Sys2Proof.Machine.execDlyXfEnd tap s
  | .seamCmdCheck cls => Sys2Proof.Machine.execSeamCmdCheck cls s
  | .seamCmdDiscard cls => Sys2Proof.Machine.execSeamCmdDiscard cls s
  | .seamCmdForce cls => Sys2Proof.Machine.execSeamCmdForce cls s
  | .checkDone found => Sys2Proof.Machine.execCheckDone found s
  | .sewArmCheckDone => Sys2Proof.Machine.execSewArmCheckDone s
  | .unravelEnd => Sys2Proof.Machine.execUnravelEnd s
  | .rebasteDone found => Sys2Proof.Machine.execRebasteDone found s
  | .liveCrcDone => Sys2Proof.Machine.execLiveCrcDone s
  | .needleWindowOpen => Sys2Proof.Machine.execNeedleWindowOpen s
  | .needleWindowClose cycles => Sys2Proof.Machine.execNeedleWindowClose cycles s
  | .interruptEntry core stall => Sys2Proof.Machine.execInterruptEntry core stall s
  | .nxDoneStore core v => Sys2Proof.Machine.execNxDoneStore core v s
  | .nxTohostStore core v => Sys2Proof.Machine.execNxTohostStore core v s
  | .nxDbellRead core => Sys2Proof.Machine.execNxDbellRead core s
  | .spGo core port => Sys2Proof.Machine.execSpGo core port s
  | .spSwap core port => Sys2Proof.Machine.execSpSwap core port s
  | .spTransferDone core port bad => Sys2Proof.Machine.execSpTransferDone core port bad s
  | .waitEnd core stall => Sys2Proof.Machine.execWaitEnd core stall s
  | .waitsEnd core stall => Sys2Proof.Machine.execWaitsEnd core stall s
  | .needleCtrlRun core => Sys2Proof.Machine.execNeedleCtrlRun core s
  | .needleCtrlHalt core => Sys2Proof.Machine.execNeedleCtrlHalt core s
  | .needleMemWrite core v => Sys2Proof.Machine.execNeedleMemWrite core v s
  | .needleMemRead core master ecc => Sys2Proof.Machine.execNeedleMemRead core master ecc s
  | .needleDoorbellWrite core v => Sys2Proof.Machine.execNeedleDoorbellWrite core v s
  | .needleTohostRead core => Sys2Proof.Machine.execNeedleTohostRead core s
  | .alNeedleNop core ecc => Sys2Proof.Machine.execAlNeedleNop core ecc s
  | .alWait core ecc => Sys2Proof.Machine.execAlWait core ecc s
  | .alWaits core ecc => Sys2Proof.Machine.execAlWaits core ecc s
  | .alHalt core ecc => Sys2Proof.Machine.execAlHalt core ecc s
  | .alAdd core ecc => Sys2Proof.Machine.execAlAdd core ecc s
  | .alSub core ecc => Sys2Proof.Machine.execAlSub core ecc s
  | .alNeg core ecc => Sys2Proof.Machine.execAlNeg core ecc s
  | .alAbs core ecc => Sys2Proof.Machine.execAlAbs core ecc s
  | .alMin core ecc => Sys2Proof.Machine.execAlMin core ecc s
  | .alMax core ecc => Sys2Proof.Machine.execAlMax core ecc s
  | .alCmp core ecc => Sys2Proof.Machine.execAlCmp core ecc s
  | .alAnd core ecc => Sys2Proof.Machine.execAlAnd core ecc s
  | .alOr core ecc => Sys2Proof.Machine.execAlOr core ecc s
  | .alXor core ecc => Sys2Proof.Machine.execAlXor core ecc s
  | .alNot core ecc => Sys2Proof.Machine.execAlNot core ecc s
  | .alShl core ecc => Sys2Proof.Machine.execAlShl core ecc s
  | .alShr core ecc => Sys2Proof.Machine.execAlShr core ecc s
  | .alLsr core ecc => Sys2Proof.Machine.execAlLsr core ecc s
  | .alRshr core ecc => Sys2Proof.Machine.execAlRshr core ecc s
  | .alShlv core ecc => Sys2Proof.Machine.execAlShlv core ecc s
  | .alShrv core ecc => Sys2Proof.Machine.execAlShrv core ecc s
  | .alMov core ecc => Sys2Proof.Machine.execAlMov core ecc s
  | .alNorm core ecc => Sys2Proof.Machine.execAlNorm core ecc s
  | .alAddi core ecc => Sys2Proof.Machine.execAlAddi core ecc s
  | .alCmpi core ecc => Sys2Proof.Machine.execAlCmpi core ecc s
  | .alLdi core ecc => Sys2Proof.Machine.execAlLdi core ecc s
  | .alLdi32 core ecc => Sys2Proof.Machine.execAlLdi32 core ecc s
  | .alLds core ecc => Sys2Proof.Machine.execAlLds core ecc s
  | .alSts core ecc => Sys2Proof.Machine.execAlSts core ecc s
  | .alLd core ecc => Sys2Proof.Machine.execAlLd core ecc s
  | .alSt core ecc => Sys2Proof.Machine.execAlSt core ecc s
  | .alLdq core ecc => Sys2Proof.Machine.execAlLdq core ecc s
  | .alStq core ecc => Sys2Proof.Machine.execAlStq core ecc s
  | .alDls core ecc => Sys2Proof.Machine.execAlDls core ecc s
  | .alMovs core ecc => Sys2Proof.Machine.execAlMovs core ecc s
  | .alSeta core ecc => Sys2Proof.Machine.execAlSeta core ecc s
  | .alAddp core ecc => Sys2Proof.Machine.execAlAddp core ecc s
  | .alMac core ecc => Sys2Proof.Machine.execAlMac core ecc s
  | .alMsu core ecc => Sys2Proof.Machine.execAlMsu core ecc s
  | .alMpy core ecc => Sys2Proof.Machine.execAlMpy core ecc s
  | .alMpyn core ecc => Sys2Proof.Machine.execAlMpyn core ecc s
  | .alQmac core ecc => Sys2Proof.Machine.execAlQmac core ecc s
  | .alQmsu core ecc => Sys2Proof.Machine.execAlQmsu core ecc s
  | .alQmpy core ecc => Sys2Proof.Machine.execAlQmpy core ecc s
  | .alQmpyn core ecc => Sys2Proof.Machine.execAlQmpyn core ecc s
  | .alQmacm core ecc => Sys2Proof.Machine.execAlQmacm core ecc s
  | .alQmsum core ecc => Sys2Proof.Machine.execAlQmsum core ecc s
  | .alQmpym core ecc => Sys2Proof.Machine.execAlQmpym core ecc s
  | .alQmpynm core ecc => Sys2Proof.Machine.execAlQmpynm core ecc s
  | .alMacdl core ecc => Sys2Proof.Machine.execAlMacdl core ecc s
  | .alExt core ecc => Sys2Proof.Machine.execAlExt core ecc s
  | .alQext core ecc => Sys2Proof.Machine.execAlQext core ecc s
  | .alQexts core ecc => Sys2Proof.Machine.execAlQexts core ecc s
  | .alAclr core ecc => Sys2Proof.Machine.execAlAclr core ecc s
  | .alAadd core ecc => Sys2Proof.Machine.execAlAadd core ecc s
  | .alAsub core ecc => Sys2Proof.Machine.execAlAsub core ecc s
  | .alAmov core ecc => Sys2Proof.Machine.execAlAmov core ecc s
  | .alAneg core ecc => Sys2Proof.Machine.execAlAneg core ecc s
  | .alAshl core ecc => Sys2Proof.Machine.execAlAshl core ecc s
  | .alAshr core ecc => Sys2Proof.Machine.execAlAshr core ecc s
  | .alBr core ecc => Sys2Proof.Machine.execAlBr core ecc s
  | .alCall core ecc => Sys2Proof.Machine.execAlCall core ecc s
  | .alJr core ecc => Sys2Proof.Machine.execAlJr core ecc s
  | .alRet core ecc => Sys2Proof.Machine.execAlRet core ecc s
  | .alRti core ecc => Sys2Proof.Machine.execAlRti core ecc s
  | .alCallr core ecc => Sys2Proof.Machine.execAlCallr core ecc s
  | .alRepImm core ecc => Sys2Proof.Machine.execAlRepImm core ecc s
  | .alRepReg core ecc => Sys2Proof.Machine.execAlRepReg core ecc s
  | .apllLock apll => Sys2Proof.Machine.execApllLock apll s
  | .coreApllUnlock a => Sys2Proof.Machine.execCoreApllUnlock a s
  | .audioApllUnlock => Sys2Proof.Machine.execAudioApllUnlock s
  | .audioApllRelock ms raw => Sys2Proof.Machine.execAudioApllRelock ms raw s
  | .netApllUnlock requested raw => Sys2Proof.Machine.execNetApllUnlock requested raw s
  | .netApllRelock => Sys2Proof.Machine.execNetApllRelock s
  | .tcxoLoss => Sys2Proof.Machine.execTcxoLoss s
  | .tcxoReturn lost => Sys2Proof.Machine.execTcxoReturn lost s
  | .xinLoss => Sys2Proof.Machine.execXinLoss s
  | .xinReturn => Sys2Proof.Machine.execXinReturn s
  | .refActivityLoss input => Sys2Proof.Machine.execRefActivityLoss input s
  | .freqGateEnd input periods => Sys2Proof.Machine.execFreqGateEnd input periods s
  | .selectionEval phases => Sys2Proof.Machine.execSelectionEval phases s
  | .pdUpdate raw explained out => Sys2Proof.Machine.execPdUpdate raw explained out s
  | .holdoverLimit seconds => Sys2Proof.Machine.execHoldoverLimit seconds s
  | .historyRecord => Sys2Proof.Machine.execHistoryRecord s
  | .swValidExpiry input ms => Sys2Proof.Machine.execSwValidExpiry input ms s
  | .refLimitApply input => Sys2Proof.Machine.execRefLimitApply input s
  | .refSelWrite input => Sys2Proof.Machine.execRefSelWrite input s
  | .loopOpenWrite open_ raw => Sys2Proof.Machine.execLoopOpenWrite open_ raw s
  | .bellFreqWrite v => Sys2Proof.Machine.execBellFreqWrite v s
  | .openWdExpiry seconds raw => Sys2Proof.Machine.execOpenWdExpiry seconds raw s
  | .coreSpreadTakeEffect => Sys2Proof.Machine.execCoreSpreadTakeEffect s
  | .divUpdate => Sys2Proof.Machine.execDivUpdate s
  | .divTakeEffect => Sys2Proof.Machine.execDivTakeEffect s
  | .syncInEdge falling tick => Sys2Proof.Machine.execSyncInEdge falling tick s
  | .tbIncApply tb => Sys2Proof.Machine.execTbIncApply tb s
  | .tbStep tb => Sys2Proof.Machine.execTbStep tb s
  | .stepApply tb => Sys2Proof.Machine.execStepApply tb s
  | .mapCapture => Sys2Proof.Machine.execMapCapture s
  | .tbTimeRead tb => Sys2Proof.Machine.execTbTimeRead tb s
  | .tbMapRead tb => Sys2Proof.Machine.execTbMapRead tb s
  | .txtsHeadRead port => Sys2Proof.Machine.execTxtsHeadRead port s
  | .linkUp port ms => Sys2Proof.Machine.execLinkUp port ms s
  | .linkDown port requested => Sys2Proof.Machine.execLinkDown port requested s
  | .frameReceive port frame sub full => Sys2Proof.Machine.execFrameReceive port frame sub full s
  | .frameTransmit port what sub => Sys2Proof.Machine.execFrameTransmit port what sub s
  | .netApply tx flow => Sys2Proof.Machine.execNetApply tx flow s
  | .txPacketReady flow => Sys2Proof.Machine.execTxPacketReady flow s
  | .txPacketDiscard flow => Sys2Proof.Machine.execTxPacketDiscard flow s
  | .legDown flow legB => Sys2Proof.Machine.execLegDown flow legB s
  | .portApply port => Sys2Proof.Machine.execPortApply port s
  | .portGroupTakeEffect port cs => Sys2Proof.Machine.execPortGroupTakeEffect port cs s
  | .localFrameReceive port ts words => Sys2Proof.Machine.execLocalFrameReceive port ts words s
  | .rateMeasure port rate => Sys2Proof.Machine.execRateMeasure port rate s
  | .aesLock r => Sys2Proof.Machine.execAesLock r s
  | .aesUnlock r => Sys2Proof.Machine.execAesUnlock r s
  | .csBlockEnd r whole csA csB ubA ubB => Sys2Proof.Machine.execCsBlockEnd r whole csA csB ubA ubB s
  | .arxCsRead r group => Sys2Proof.Machine.execArxCsRead r group s
  | .asrcLock port => Sys2Proof.Machine.execAsrcLock port s
  | .asrcUnlock port => Sys2Proof.Machine.execAsrcUnlock port s
  | .atxClkLoss t => Sys2Proof.Machine.execAtxClkLoss t s
  | .tdmClkLoss p => Sys2Proof.Machine.execTdmClkLoss p s
  | .tdmClkReturn p => Sys2Proof.Machine.execTdmClkReturn p s
  | .ocpLimitedPeriod ch => Sys2Proof.Machine.execOcpLimitedPeriod ch s
  | .ocpRetry ch => Sys2Proof.Machine.execOcpRetry ch s
  | .senseLoss ch vsns => Sys2Proof.Machine.execSenseLoss ch vsns s
  | .calibrationPass ch offset ratio => Sys2Proof.Machine.execCalibrationPass ch offset ratio s
  | .supervisionResult ch measured => Sys2Proof.Machine.execSupervisionResult ch measured s
  | .lineApply ch => Sys2Proof.Machine.execLineApply ch s
  | .lineChEnable ch => Sys2Proof.Machine.execLineChEnable ch s
  | .lineChDisable ch => Sys2Proof.Machine.execLineChDisable ch s
  | .lineChClear ch => Sys2Proof.Machine.execLineChClear ch s
  | .lineCtrlWrite v => Sys2Proof.Machine.execLineCtrlWrite v s
  | .alarmInputQualify input edges => Sys2Proof.Machine.execAlarmInputQualify input edges s
  | .alarmInputRelease input edges => Sys2Proof.Machine.execAlarmInputRelease input edges s
  | .partnerAlarmMessage input qualify q => Sys2Proof.Machine.execPartnerAlarmMessage input qualify q s
  | .alarmAction => Sys2Proof.Machine.execAlarmAction s
  | .changeoverReplace => Sys2Proof.Machine.execChangeoverReplace s
  | .alarmInCfgWrite input v => Sys2Proof.Machine.execAlarmInCfgWrite input v s
  | .playerMessageEnd player => Sys2Proof.Machine.execPlayerMessageEnd player s
  | .playerGapEnd player => Sys2Proof.Machine.execPlayerGapEnd player s
  | .msgDramWrite m v => Sys2Proof.Machine.execMsgDramWrite m v s
  | .msgCopyDone slot => Sys2Proof.Machine.execMsgCopyDone slot s
  | .fallbackApply => Sys2Proof.Machine.execFallbackApply s
  | .dutyInDeassert => Sys2Proof.Machine.execDutyInDeassert s
  | .dutyInAssert => Sys2Proof.Machine.execDutyInAssert s
  | .takeover raw => Sys2Proof.Machine.execTakeover raw s
  | .mediaWatchdog ns => Sys2Proof.Machine.execMediaWatchdog ns s
  | .roleBWaitEnd samples => Sys2Proof.Machine.execRoleBWaitEnd samples s
  | .lanesDetected => Sys2Proof.Machine.execLanesDetected s
  | .linkTrained lanes partner => Sys2Proof.Machine.execLinkTrained lanes partner s
  | .linkTrainTimeout samples => Sys2Proof.Machine.execLinkTrainTimeout samples s
  | .linkRetry samples => Sys2Proof.Machine.execLinkRetry samples s
  | .clockLock => Sys2Proof.Machine.execClockLock s
  | .mscTransfer msc tb accepted => Sys2Proof.Machine.execMscTransfer msc tb accepted s
  | .copyComplete => Sys2Proof.Machine.execCopyComplete s
  | .settleEnd seconds => Sys2Proof.Machine.execSettleEnd seconds s
  | .perBlockCopyApply items crc => Sys2Proof.Machine.execPerBlockCopyApply items crc s
  | .healthReport tstate checking healthy mismatches => Sys2Proof.Machine.execHealthReport tstate checking healthy mismatches s
  | .reportStale => Sys2Proof.Machine.execReportStale s
  | .revertRequest seconds => Sys2Proof.Machine.execRevertRequest seconds s
  | .laneLoss lane => Sys2Proof.Machine.execLaneLoss lane s
  | .bothLanesLost raw => Sys2Proof.Machine.execBothLanesLost raw s
  | .twinCmdResync => Sys2Proof.Machine.execTwinCmdResync s
  | .twinCmdRelease => Sys2Proof.Machine.execTwinCmdRelease s
  | .twinCmdSelftest => Sys2Proof.Machine.execTwinCmdSelftest s
  | .selftestEnd pass => Sys2Proof.Machine.execSelftestEnd pass s
  | .faultWindowClose f ms => Sys2Proof.Machine.execFaultWindowClose f ms s
  | .faultQuietExit f ms => Sys2Proof.Machine.execFaultQuietExit f ms s
  | .faultRecAck => Sys2Proof.Machine.execFaultRecAck s
  | .faultSwRaise v parity => Sys2Proof.Machine.execFaultSwRaise v parity s
  | .faultnReadback high ms => Sys2Proof.Machine.execFaultnReadback high ms s
  | .faultnMinLowEnd ms => Sys2Proof.Machine.execFaultnMinLowEnd ms s
  | .foldDoorbell fold tail packets => Sys2Proof.Machine.execFoldDoorbell fold tail packets s
  | .foldRheadWrite fold v packets => Sys2Proof.Machine.execFoldRheadWrite fold v packets s
  | .foldCfgWrite m fold w v enable => Sys2Proof.Machine.execFoldCfgWrite m fold w v enable s
  | .dweulDatagram port srcIp srcPort bytes => Sys2Proof.Machine.execDweulDatagram port srcIp srcPort bytes s
  | .bulkFetchDone fold seq ok => Sys2Proof.Machine.execBulkFetchDone fold seq ok s
  | .shepherdFrame backlog => Sys2Proof.Machine.execShepherdFrame backlog s
  | .telemetryRefresh sel => Sys2Proof.Machine.execTelemetryRefresh sel s
  | .shepWdogExpiry ms => Sys2Proof.Machine.execShepWdogExpiry ms s
  | .shepTrap => Sys2Proof.Machine.execShepTrap s
  | .shepRestart ok => Sys2Proof.Machine.execShepRestart ok s
  | .dwNop f h params => Sys2Proof.Machine.execDwNop f h params s
  | .dwGetInfo f h params => Sys2Proof.Machine.execDwGetInfo f h params s
  | .dwSetMode f h params => Sys2Proof.Machine.execDwSetMode f h params s
  | .dwEventCancel f h params => Sys2Proof.Machine.execDwEventCancel f h params s
  | .dwRegRead f h params => Sys2Proof.Machine.execDwRegRead f h params s
  | .dwRegWrite f h params => Sys2Proof.Machine.execDwRegWrite f h params s
  | .dwFoldInfo f h params => Sys2Proof.Machine.execDwFoldInfo f h params s
  | .dwGroupCancel f h params => Sys2Proof.Machine.execDwGroupCancel f h params s
  | .dwStitchRead f h params => Sys2Proof.Machine.execDwStitchRead f h params s
  | .dwStitchBaste f h params => Sys2Proof.Machine.execDwStitchBaste f h params s
  | .dwStitchDirect f h params => Sys2Proof.Machine.execDwStitchDirect f h params s
  | .dwDescRead f h params => Sys2Proof.Machine.execDwDescRead f h params s
  | .dwDescBaste f h params => Sys2Proof.Machine.execDwDescBaste f h params s
  | .dwDmapBaste f h params => Sys2Proof.Machine.execDwDmapBaste f h params s
  | .dwSrcAttrSet f h params => Sys2Proof.Machine.execDwSrcAttrSet f h params s
  | .dwMeterRead f h params => Sys2Proof.Machine.execDwMeterRead f h params s
  | .dwBasteImage f h params block => Sys2Proof.Machine.execDwBasteImage f h params block s
  | .dwCheck f h params => Sys2Proof.Machine.execDwCheck f h params s
  | .dwSew f h params => Sys2Proof.Machine.execDwSew f h params s
  | .dwDiscard f h params => Sys2Proof.Machine.execDwDiscard f h params s
  | .dwGroupSew f h params => Sys2Proof.Machine.execDwGroupSew f h params s
  | .dwPatternState f h params => Sys2Proof.Machine.execDwPatternState f h params s
  | .dwNeedleLoad f h params block => Sys2Proof.Machine.execDwNeedleLoad f h params block s
  | .dwNeedleRead f h params => Sys2Proof.Machine.execDwNeedleRead f h params s
  | .dwNeedleCtrl f h params => Sys2Proof.Machine.execDwNeedleCtrl f h params s
  | .dwNeedleDoorbell f h params => Sys2Proof.Machine.execDwNeedleDoorbell f h params s
  | .dwNeedleStatus f h params => Sys2Proof.Machine.execDwNeedleStatus f h params s
  | .dwBellRead f h params => Sys2Proof.Machine.execDwBellRead f h params s
  | .dwRefSet f h params => Sys2Proof.Machine.execDwRefSet f h params s
  | .dwRefSelect f h params => Sys2Proof.Machine.execDwRefSelect f h params s
  | .dwLoopSet f h params => Sys2Proof.Machine.execDwLoopSet f h params s
  | .dwDivSet f h params => Sys2Proof.Machine.execDwDivSet f h params s
  | .dwServoSet f h params => Sys2Proof.Machine.execDwServoSet f h params s
  | .dwPtpRead f h params => Sys2Proof.Machine.execDwPtpRead f h params s
  | .dwPtpSet f h params => Sys2Proof.Machine.execDwPtpSet f h params s
  | .dwNetPortSet f h params => Sys2Proof.Machine.execDwNetPortSet f h params s
  | .dwFlowSet f h params => Sys2Proof.Machine.execDwFlowSet f h params s
  | .dwFlowStart f h params => Sys2Proof.Machine.execDwFlowStart f h params s
  | .dwFlowStop f h params => Sys2Proof.Machine.execDwFlowStop f h params s
  | .dwFlockStart f h params => Sys2Proof.Machine.execDwFlockStart f h params s
  | .dwFlockStop f h params => Sys2Proof.Machine.execDwFlockStop f h params s
  | .dwFlowRead f h params => Sys2Proof.Machine.execDwFlowRead f h params s
  | .dwPortSet f h params => Sys2Proof.Machine.execDwPortSet f h params s
  | .dwPortStart f h params => Sys2Proof.Machine.execDwPortStart f h params s
  | .dwPortStop f h params => Sys2Proof.Machine.execDwPortStop f h params s
  | .dwPortRead f h params => Sys2Proof.Machine.execDwPortRead f h params s
  | .dwLineSet f h params => Sys2Proof.Machine.execDwLineSet f h params s
  | .dwLineEnable f h params => Sys2Proof.Machine.execDwLineEnable f h params s
  | .dwLineDisable f h params => Sys2Proof.Machine.execDwLineDisable f h params s
  | .dwLineClear f h params => Sys2Proof.Machine.execDwLineClear f h params s
  | .dwLineCtrlSet f h params => Sys2Proof.Machine.execDwLineCtrlSet f h params s
  | .dwLineRead f h params => Sys2Proof.Machine.execDwLineRead f h params s
  | .dwAlarmActivate f h params => Sys2Proof.Machine.execDwAlarmActivate f h params s
  | .dwAlarmRelease f h params => Sys2Proof.Machine.execDwAlarmRelease f h params s
  | .dwPatternLoad f h params block => Sys2Proof.Machine.execDwPatternLoad f h params block s
  | .dwMessageWrite f h params block => Sys2Proof.Machine.execDwMessageWrite f h params block s
  | .dwMessageStart f h params => Sys2Proof.Machine.execDwMessageStart f h params s
  | .dwMessageStop f h params => Sys2Proof.Machine.execDwMessageStop f h params s
  | .dwFallbackLoad f h params block => Sys2Proof.Machine.execDwFallbackLoad f h params block s
  | .dwAlarmRead f h params => Sys2Proof.Machine.execDwAlarmRead f h params s
  | .dwTwinRead f h params => Sys2Proof.Machine.execDwTwinRead f h params s
  | .dwHandover f h params => Sys2Proof.Machine.execDwHandover f h params s
  | .dwTwinCmd f h params => Sys2Proof.Machine.execDwTwinCmd f h params s
  | .dwTwinCfgSet f h params => Sys2Proof.Machine.execDwTwinCfgSet f h params s
  | .dwFaultRead f h params => Sys2Proof.Machine.execDwFaultRead f h params s
  | .dwFaultAck f h params => Sys2Proof.Machine.execDwFaultAck f h params s
  | .dwFaultSrcSet f h params => Sys2Proof.Machine.execDwFaultSrcSet f h params s
  | .dwFaultSrcRead f h params => Sys2Proof.Machine.execDwFaultSrcRead f h params s
  | .dwTelemSnapshot f h params => Sys2Proof.Machine.execDwTelemSnapshot f h params s
  | .dwTelemSubscribe f h params => Sys2Proof.Machine.execDwTelemSubscribe f h params s
  | .dwTelemUnsubscribe f h params => Sys2Proof.Machine.execDwTelemUnsubscribe f h params s
  | .dwNvsRead f h params => Sys2Proof.Machine.execDwNvsRead f h params s
  | .dwNvsWrite f h params block => Sys2Proof.Machine.execDwNvsWrite f h params block s
  | .dwFwUpdate f h params block => Sys2Proof.Machine.execDwFwUpdate f h params block s
  | .dwFwActivate f h params => Sys2Proof.Machine.execDwFwActivate f h params s
  | .dwConfigCommit f h params block => Sys2Proof.Machine.execDwConfigCommit f h params block s
  | .dwLifecycle f h params => Sys2Proof.Machine.execDwLifecycle f h params s
  | .dwChipReset f h params => Sys2Proof.Machine.execDwChipReset f h params s
  | .sysFreshReq => Sys2Proof.Machine.execSysFreshReq s
  | .freshDone edges => Sys2Proof.Machine.execFreshDone edges s
  | .ccuCommitExplicit regions => Sys2Proof.Machine.execCcuCommitExplicit regions s
  | .ccuCommitMeasured regions => Sys2Proof.Machine.execCcuCommitMeasured regions s
  | .ccuPassEnd region read found => Sys2Proof.Machine.execCcuPassEnd region read found s
  | .ccuDeadline region => Sys2Proof.Machine.execCcuDeadline region s
  | .scrubLine found nvsEnd => Sys2Proof.Machine.execScrubLine found nvsEnd s
  | .busTimeout m addr write took => Sys2Proof.Machine.execBusTimeout m addr write took s
  | .dramRetrain ok => Sys2Proof.Machine.execDramRetrain ok s
  | .droverStart m c => Sys2Proof.Machine.execDroverStart m c s
  | .droverAbort m c moved host => Sys2Proof.Machine.execDroverAbort m c moved host s
  | .descriptorFetch c host => Sys2Proof.Machine.execDescriptorFetch c host s
  | .descriptorComplete c host conflict => Sys2Proof.Machine.execDescriptorComplete c host conflict s
  | .droverBusError write kind addr moved => Sys2Proof.Machine.execDroverBusError write kind addr moved s
  | .perst => Sys2Proof.Machine.execPerst s
  | .powerOnReset bootsel roleB v33 => Sys2Proof.Machine.execPowerOnReset bootsel roleB v33 s
  | .brownOut => Sys2Proof.Machine.execBrownOut s
  | .resetNPin low => Sys2Proof.Machine.execResetNPin low s
  | .resetEnd flash sig trained => Sys2Proof.Machine.execResetEnd flash sig trained s
  | .bootGo image sig trained => Sys2Proof.Machine.execBootGo image sig trained s
  | .bootConfirm => Sys2Proof.Machine.execBootConfirm s
  | .jtagExtest => Sys2Proof.Machine.execJtagExtest s
  | .jtagSamplePreload => Sys2Proof.Machine.execJtagSamplePreload s
  | .jtagIdcode => Sys2Proof.Machine.execJtagIdcode s
  | .jtagHighz => Sys2Proof.Machine.execJtagHighz s
  | .jtagClamp => Sys2Proof.Machine.execJtagClamp s
  | .jtagChipRst => Sys2Proof.Machine.execJtagChipRst s
  | .jtagBypass => Sys2Proof.Machine.execJtagBypass s
  | .jtagTapReset => Sys2Proof.Machine.execJtagTapReset s
  | .dieTempReading t => Sys2Proof.Machine.execDieTempReading t s
  | .timeBaseTick => Sys2Proof.Machine.execTimeBaseTick s
  | .referenceActive input => Sys2Proof.Machine.execReferenceActive input s
  | .coreApllRelock apll => Sys2Proof.Machine.execCoreApllRelock apll s
  | .atxClockReturn t => Sys2Proof.Machine.execAtxClockReturn t s
  | .pcieLinkUp => Sys2Proof.Machine.execPcieLinkUp s
  | .handoverRequest => Sys2Proof.Machine.execHandoverRequest s
  | .ocpNAssert ch => Sys2Proof.Machine.execOcpNAssert ch s

end Sys2Proof.Machine
end

