-- ==== Sys2Proof/Safety.lean ====
section
/-!
DEFINITION. What counts as a sound run: a step completes when it answers a next state, and the memories of the state keep
their canonical form.
-/

namespace Sys2Proof.Machine

/-- The command completes in the state. -/
def Completes (c : Sys2Proof.Instr) (s : State) : Prop := ∃ t, exec c s = .next t

/-- The command answers in the state a next state of which `P` holds. -/
def Gives (c : Sys2Proof.Instr) (s : State) (P : State → Prop) : Prop := ∃ t, exec c s = .next t ∧ P t

/-- The command has an effect of which `P` holds, and then raises one event of fault source `f` (R457, R458). -/
def Raises (c : Sys2Proof.Instr) (s : State) (f unit detail : Nat) (P : State → Prop) : Prop :=
  ∃ u, exec c s = .next (u.raise f unit detail) ∧ P u

/-- Every register outside the list `A` of addresses holds in `t` what it holds in `s`. -/
def RegsBut (A : List Nat) (s t : State) : Prop := ∀ a, a ∉ A → t.reg a = s.reg a

/-- `t` differs from `s` in registers of the list `A` and in nothing else: no other register, no memory, no queue, no hidden
state of a unit. -/
def OnlyRegs (A : List Nat) (s t : State) : Prop := t = { s with regs := t.regs } ∧ RegsBut A s t

/-- The byte memories have their canonical form: addresses strictly rising and, but for DRAM, no entry that an unlisted
address reads as. What an unlisted DRAM byte reads as has no value in the model (R554), so a written byte stays listed. -/
def Mem.wf (m : Mem) : Bool :=
  Sparse.wf zeroByte m.nvs && Sparse.wf zeroByte m.sram && Sparse.wf zeroByte m.shep && Sparse.rising 0 m.dram

/-- Fuses after a run against fuses before it (R591, R592): fuses cannot be unburnt. The identity, the keys and what the
factory burnt stay; the life-cycle state, the rollback count and the wipe marker only grow. -/
structure Otp.Grows (a b : Otp) : Prop where
  lc : a.lc ≤ b.lc
  rollback : a.rollback ≤ b.rollback
  wiped : a.wiped = true → b.wiped = true
  keys : b.keys = a.keys
  revoked : b.revoked = a.revoked
  serial : b.serial = a.serial
  avs : b.avs = a.avs
  repaired : b.repaired = a.repaired
  spareLow : b.spareLow = a.spareLow

/-! ### A Needle core that issues an instruction -/

/-- Core `c`, which is `k`, issues instruction `i` next, with nothing in its pipeline: it runs, no interrupt comes first, no
delay slot and no REP is open, no result is on its way, and its program words are sound. -/
def Issues (s : State) (c : Nat) (k : Core) (i : NI) : Prop :=
  k = s.core c ∧ k.issues = true ∧ k.pend = [] ∧ k.slots = 0 ∧ k.rep = 0 ∧ k.poison = [] ∧
    decodeNeedle (k.fetch k.pc) (k.fetch (k.pc + 1)) = some i

/-- The core behind the instruction at its PC, one cycle later. -/
def Core.passed (k : Core) : Core :=
  { k with pc := (k.pc + nWidth (k.fetch k.pc)) % 16384, cyc := k.cyc + 1,
           blockAge := if k.irqPend % 2 = 1 then k.blockAge + 1 else k.blockAge }

/-- A flag update one cycle after its instruction: two cycles are left (R182). -/
def Core.flagsLeft (k : Core) (f : FlagSet) : NPend := ⟨.flags, f.vals + 16 * f.mask, 2, false, k.cyc⟩

/-- The core behind an instruction that writes a D register with flags, and nothing else. -/
def Core.gives (k : Core) (n : Nat) (v : Int) (f : FlagSet) : Core :=
  { k.passed with d := k.d.setIfInBounds n (BitVec.ofInt 32 v), pend := [k.flagsLeft f] }

/-- The core with the pointer update of a memory operand (R212). -/
def Core.pointed (k : Core) (o : MemOp) : Core :=
  { k with p := match k.memPost o with | some a => k.p.setIfInBounds o.pn (BitVec.ofNat 16 a) | none => k.p }

/-- The core behind an instruction that leaves the results of `k'` on their way: a cycle passes. -/
def Core.after (k k' : Core) : Core :=
  (Core.cycle { k' with pc := (k.pc + nWidth (k.fetch k.pc)) % 16384 }).1

/-! ### A Dweul command that executes -/

/-- The command `h` of class `cls` stands at the head of fold `f`, which firmware serves, and may start: no CHECK of its own
is under way, no write is held (R438), and the fold has no segment stream open. -/
def AtHead (s : State) (f : Nat) (h : Hdr) (cls : Nat) : Prop :=
  s.served = true ∧ s.foldClass f = cls ∧ s.underCheck h = false ∧ s.twin.held = [] ∧ (s.fold f).seg = none ∧
    ∃ e rest, (s.fold f).taken = e :: rest ∧ e.hdr = h

/-- The same on PCIe, for a command whose block Drover has fetched (R491). -/
def Fetched (s : State) (f : Nat) (h : Hdr) (cls : Nat) : Prop :=
  s.served = true ∧ s.foldClass f = cls ∧ s.foldUdp f = false ∧ s.underCheck h = false ∧ s.twin.held = [] ∧
    ∃ e rest, (s.fold f).taken = e :: rest ∧ e.hdr = h ∧ e.needFetch = false ∧ e.fetchErr = false

/-- What the command has done has left its fold as it was, and all its writes fit into the block (R438). -/
def Stays (s u : State) (f : Nat) : Prop := u.twin.held = [] ∧ (u.fold f).taken = (s.fold f).taken

/-- The mode lets commands of kind W execute for every class (R476). -/
def OpenMode (s : State) : Prop := s.mode ≠ .standby ∧ s.mode ≠ .alarm

/-- The command ends with the answer `a` from `u`, in which its effect stands (R489, R492). -/
def Answered (c : Sys2Proof.Instr) (s : State) (f : Nat) (h : Hdr) (a : Ans) (u : State) : Prop :=
  exec c s = .next (u.answer f h a)

end Sys2Proof.Machine
end

