-- ==== Sys2Proof/Certificates/Slice0/Obligations.lean ====
section
/-!
DEFINITION. The statements about the model that the provers prove, one family of commands each.
-/

open Sys2Proof Sys2Proof.Machine

/-! ### Clocks and Bellwether -/

/-- Locks of the APLLs, and what returns with one (R228, R229, R256, R258): APLL_LOCK, NET_APLL_RELOCK,
CORE_APLL_RELOCK, AUDIO_APLL_RELOCK, CORE_SPREAD_TAKE_EFFECT. Losses of lock and of clocks (R256 to R260, R290):
CORE_APLL_UNLOCK, AUDIO_APLL_UNLOCK, NET_APLL_UNLOCK, TCXO_LOSS, TCXO_RETURN, XIN_LOSS, XIN_RETURN. -/
def Obligations.LocksAndLosses : Prop :=
  ((∀ (a : Fin 4) s, Gives (.apllLock a) s fun t => OnlyRegs [R.BELL_STATUS] s t ∧
     t.rd R.BELL_STATUS = (Fld.mk (13 + a.val) (13 + a.val)).put (s.rd R.BELL_STATUS) 1) ∧
   (∀ s, Gives .netApllRelock s fun t => OnlyRegs [R.BELL_STATUS] s t ∧
     t.rd R.BELL_STATUS = F.BELL_STATUS_NET_LOCK.put (s.rd R.BELL_STATUS) 1) ∧
   -- the domain leaves XIN for the APLL that relocks, but not on fallback resources
   (∀ (a : Fin 2) s, s.bit R.BELL_STATUS F.BELL_STATUS_CORE_XIN = true → s.fbRes = false →
     Gives (.coreApllRelock a) s fun t => OnlyRegs [R.BELL_STATUS] s t ∧
       t.rd R.BELL_STATUS = F.BELL_STATUS_CORE_SEL.put (F.BELL_STATUS_CORE_XIN.put
         ((Fld.mk (13 + a.val) (13 + a.val)).put (s.rd R.BELL_STATUS) 1) 0) a.val) ∧
   (∀ (a : Fin 2) s, s.bit R.BELL_STATUS F.BELL_STATUS_CORE_XIN = false →
     Gives (.coreApllRelock a) s fun t => OnlyRegs [R.BELL_STATUS] s t ∧
       t.rd R.BELL_STATUS = (Fld.mk (13 + a.val) (13 + a.val)).put (s.rd R.BELL_STATUS) 1) ∧
   -- 10 ms of lock end the audio bypass; the loop that was in HOLDOVER closes
   (∀ ms raw s, s.bit R.BELL_STATUS F.BELL_STATUS_AUDIO_BYP = true → 10 ≤ ms →
     ∃ u : State, exec (.audioApllRelock ms raw) s = .next (if u.loop = 3 then u.closeLoop raw else
         match u.curRef with
         | some n => if u.loop = 1 || u.loop = 2 then u.zeroError n raw else u
         | none => u) ∧ OnlyRegs [R.BELL_STATUS] s u ∧
       u.rd R.BELL_STATUS = F.BELL_STATUS_AUDIO_BYP.put (F.BELL_STATUS_AUDIO_LOCK.put (s.rd R.BELL_STATUS) 1) 0) ∧
   (∀ ms raw s, s.bit R.BELL_STATUS F.BELL_STATUS_AUDIO_BYP = false ∨ ms < 10 → exec (.audioApllRelock ms raw) s = .next s) ∧
   (∀ s, exec .coreSpreadTakeEffect s = .next { s with bell := { s.bell with spread := s.rd R.BELL_CORE_CFG } })) ∧
  -- the core domain moves to the other APLL, or, when that one is not locked, to XIN, and the loss of both is raised as well
  ((∀ (a : Fin 2) s, s.bitAt R.BELL_STATUS (13 + a.val) = true →
     (s.setBitAt R.BELL_STATUS (13 + a.val) false).fld R.BELL_STATUS F.BELL_STATUS_CORE_SEL = a.val →
     (s.setBitAt R.BELL_STATUS (13 + a.val) false).bit R.BELL_STATUS F.BELL_STATUS_CORE_XIN = false →
     ((s.setBitAt R.BELL_STATUS (13 + a.val) false).bitAt R.BELL_STATUS (14 - a.val) = true →
       Raises (.coreApllUnlock a) s (if a.val = 0 then FS.CORE_A_UNLOCK else FS.CORE_B_UNLOCK) 0 0 fun u =>
         OnlyRegs [R.BELL_STATUS, R.BELL_FLAGS] s u ∧
         u.rd R.BELL_STATUS = F.BELL_STATUS_CORE_SEL.put
           ((Fld.mk (13 + a.val) (13 + a.val)).put (s.rd R.BELL_STATUS) 0) (1 - a.val)) ∧
     ((s.setBitAt R.BELL_STATUS (13 + a.val) false).bitAt R.BELL_STATUS (14 - a.val) = false →
       ∃ u : State, exec (.coreApllUnlock a) s = .next
           ((u.raise (if a.val = 0 then FS.CORE_A_UNLOCK else FS.CORE_B_UNLOCK) 0 0).raise FS.CORE_BOTH_UNLOCK 0 0) ∧
         OnlyRegs [R.BELL_STATUS, R.BELL_FLAGS] s u ∧
         u.rd R.BELL_STATUS = F.BELL_STATUS_CORE_XIN.put
           ((Fld.mk (13 + a.val) (13 + a.val)).put (s.rd R.BELL_STATUS) 0) 1)) ∧
   -- AUDIO: the bypass, and HOLDOVER unless the loop is in FREERUN or HOLDOVER
   (∀ (s v : State), s.bit R.BELL_STATUS F.BELL_STATUS_AUDIO_LOCK = true →
     v = (s.setBit R.BELL_STATUS F.BELL_STATUS_AUDIO_LOCK false).setBit R.BELL_STATUS F.BELL_STATUS_AUDIO_BYP true →
     ∃ u : State, u = { v with bell := { v.bell with clean := false } } ∧
       exec .audioApllUnlock s = .next (((if u.loop = 0 || u.loop = 3 then u else u.enterHoldover).flag
         R.BELL_FLAGS F.BELL_FLAGS_AUDIO_UNLOCK).raise FS.AUDIO_UNLOCK 0 0)) ∧
   -- NET: every port and the Praphor link go down and the tick moves to XIN
   (∀ req raw s, s.bit R.BELL_STATUS F.BELL_STATUS_NET_LOCK = true →
     ∃ u : State, exec (.netApllUnlock req raw) s = .next
         (((List.range 4).foldl (fun (t : State) p => t.linkDown p
           ((req.filter (fun r => r.1.val = p)).map (fun r => (r.2.1.val, r.2.2.toNat))))
             (u.raise FS.NET_UNLOCK 0 0)).tickToXin.linkLost raw) ∧
       OnlyRegs [R.BELL_STATUS, R.BELL_FLAGS] s u ∧
       u.rd R.BELL_STATUS = F.BELL_STATUS_NET_LOCK.put (s.rd R.BELL_STATUS) 0) ∧
   (∀ s, s.pins.tcxoOk = true → exec .tcxoLoss s = .next ((({ s with pins := { s.pins with tcxoOk := false } } :
     State).linesSync.flag R.BELL_FLAGS F.BELL_FLAGS_TCXO_LOSS).raise FS.TCXO_LOSS 0 0)) ∧
   -- the time lost appears in O
   (∀ lost s, s.pins.tcxoOk = false → ∃ u : State, exec (.tcxoReturn lost) s = .next u.linesSync ∧ u.pins.tcxoOk = true ∧
     u.bell.ofs = s.bell.ofs - (lost : Int) * 1000 ∧ u.bell.lastPd = none ∧ u.msc = s.msc ∧ u.mem = s.mem) ∧
   (∀ s, s.pins.xinOk = true → exec .xinLoss s = .next (({ s with pins := { s.pins with xinOk := false } } : State).chipReset 2 0)) ∧
   (∀ s, exec .xinReturn s = .next { s with pins := { s.pins with xinOk := true } }))

/-- Monitors of the reference inputs (R231 to R237): REF_ACTIVITY_LOSS, REFERENCE_ACTIVE, SW_VALID_EXPIRY, FREQ_GATE_END,
REF_LIMIT_APPLY. -/
def Obligations.ReferenceMonitors : Prop :=
  -- an enabled input that becomes inactive counts anew, loses its measurement and its qualification, and BELL_REF_LOSS is
  -- raised for it
  (∀ (n : Fin 16) (s u : State), 8 ≤ n.val → s.refActive n = true →
    u = ((((s.setBitAt R.BELL_QUAL (16 + n.val) false).setRefIn n { s.refIn n with clean := 0, skip := true }).setBit
      (R.BELL_REF_STAT n) F.BELL_REF_STAT_MEAS_VALID false).disqualify n 1).syncQtLeft n → u.refEn n = true →
    exec (.refActivityLoss n) s = .next ((u.flag R.BELL_FLAGS F.BELL_FLAGS_REF_LOSS).raise FS.BELL_REF_LOSS n 0)) ∧
  (∀ (n : Fin 16) s, 8 ≤ n.val → s.refActive n = false → exec (.refActivityLoss n) s = .next s) ∧
  -- an input becomes active; its count of clean gates starts anew and the gate under way does not count
  (∀ (n : Fin 16) s, 12 ≤ n.val → s.refActive n = false → exec (.referenceActive n) s = .next
    ((s.setBitAt R.BELL_QUAL (16 + n.val) true).setRefIn n { s.refIn n with clean := 0, skip := true })) ∧
  -- REFIN10 and REFIN11 not while their receiver is unlocked
  (∀ (n : Fin 16) s, n.val = 10 ∨ n.val = 11 → s.bit (R.PORT_ARX_STAT (n.val - 10)) F.PORT_ARX_STAT_LOCK = false →
    exec (.referenceActive n) s = .next s) ∧
  -- REFIN0 to REFIN7 follow SW_VALID and the increment of their time base
  (∀ (n : Fin 16) s, n.val < 8 → exec (.refActivityLoss n) s = .next (s.syncTbRef n) ∧
    exec (.referenceActive n) s = .next (s.syncTbRef n)) ∧
  (∀ (n : Fin 8) ms s, s.bit (R.BELL_REF_CFG n) F.BELL_REF_CFG_SW_VALID = true → 2000 ≤ ms →
    exec (.swValidExpiry n ms) s = .next ((s.setBit (R.BELL_REF_CFG n) F.BELL_REF_CFG_SW_VALID false).syncTbRef n)) ∧
  (∀ (n : Fin 8) ms s, ms < 2000 → exec (.swValidExpiry n ms) s = .next s) ∧
  -- a gate end: the gate under way when the input became active is discarded, every other one is judged
  (∀ (n : Fin 16) p s, s.pins.tcxoOk = true → (s.refIn n).limits = none → s.refActive n = true →
    exec (.freqGateEnd n p) s = .next ((((if (s.refIn n).skip then s.setRefIn n { s.refIn n with skip := false }
      else s.judgeGate n p).syncQtLeft n)).agreement)) ∧
  (∀ (n : Fin 16) p s, s.pins.tcxoOk = false → exec (.freqGateEnd n p) s = .next s) ∧
  -- limits that are ordered wait for a gate end; the others are refused and raised
  (∀ (n : Fin 16) s,
    let a := F.BELL_REF_ACCEPT_LIMIT.of (s.shadowOf (R.BELL_REF_ACCEPT n)).toNat
    let j := F.BELL_REF_REJECT_LIMIT.of (s.shadowOf (R.BELL_REF_REJECT n)).toNat
    (0 < a → a < j → j ≤ 150000 → exec (.refLimitApply n) s = .next ((s.setRefIn n { s.refIn n with
        limits := some (s.shadowOf (R.BELL_REF_ACCEPT n), s.shadowOf (R.BELL_REF_REJECT n)), clean := 0 }).syncQtLeft n)) ∧
    (a = 0 ∨ j ≤ a ∨ 150000 < j → (s.refIn n).limits = none → exec (.refLimitApply n) s =
      .next (((s.dropShadows [R.BELL_REF_ACCEPT n, R.BELL_REF_REJECT n]).flag R.BELL_FLAGS F.BELL_FLAGS_APPLY_ERR).raise
        FS.BELL_APPLY_ERR 0 0)))

/-- Selection of a reference (R238 to R240): SELECTION_EVAL, REF_SEL_WRITE. -/
def Obligations.ReferenceSelection : Prop :=
  (∀ (n : Fin 16) s, Gives (.refSelWrite n) s fun t => OnlyRegs [R.BELL_SEL] s t ∧
    t.rd R.BELL_SEL = F.BELL_SEL_REQ.put (F.BELL_SEL_REF_SEL.put (s.rd R.BELL_SEL) n.val) 1) ∧
  -- a request for a candidate is served at once
  (∀ ph s, s.bit R.BELL_SEL F.BELL_SEL_REQ = true → s.cand (s.fld R.BELL_SEL F.BELL_SEL_REF_SEL) = true →
    s.curRef ≠ some (s.fld R.BELL_SEL F.BELL_SEL_REF_SEL) → exec (.selectionEval ph) s =
      .next (({ s with bell := { s.bell with better := 0 } } : State).switchTo (s.fld R.BELL_SEL F.BELL_SEL_REF_SEL)
        (ph.getD (s.fld R.BELL_SEL F.BELL_SEL_REF_SEL) 0))) ∧
  -- without a reference, and when the current one is no candidate, the best candidate is taken
  (∀ ph b s, s.bit R.BELL_SEL F.BELL_SEL_REQ = false → s.best = some b →
    (s.curRef = none ∨ ∃ c, s.curRef = some c ∧ s.cand c = false) → exec (.selectionEval ph) s =
      .next (({ s with bell := { s.bell with better := 0 } } : State).switchTo b (ph.getD b 0))) ∧
  (∀ ph c s, s.bit R.BELL_SEL F.BELL_SEL_REQ = false → s.best = none → s.curRef = some c → s.cand c = false →
    exec (.selectionEval ph) s = .next ({ s with bell := { s.bell with better := 0 } } : State).switchToNone) ∧
  -- a candidate that ranks better takes over when REVERT allows and REVERT_WAIT has passed
  (∀ ph c b s, s.bit R.BELL_SEL F.BELL_SEL_REQ = false → s.curRef = some c → s.cand c = true → s.best = some b →
    s.rank b < s.rank c → s.bit R.BELL_CTRL F.BELL_CTRL_REVERT = true →
    1000 * s.fld R.BELL_SEL F.BELL_SEL_REVERT_WAIT ≤ s.bell.better → exec (.selectionEval ph) s =
      .next (({ s with bell := { s.bell with better := 0 } } : State).switchTo b (ph.getD b 0))) ∧
  (∀ ph c b s, s.bit R.BELL_SEL F.BELL_SEL_REQ = false → s.curRef = some c → s.cand c = true → s.best = some b →
    s.rank b < s.rank c → s.bit R.BELL_CTRL F.BELL_CTRL_REVERT = false → exec (.selectionEval ph) s =
      .next { s with bell := { s.bell with better := s.bell.better + 1 } })

/-- Updates of the loop (R242, R244, R250, R253): PD_UPDATE, HISTORY_RECORD, HOLDOVER_LIMIT, LOOP_OPEN_WRITE,
BELL_FREQ_WRITE, OPEN_WD_EXPIRY. The output dividers and SYNC_IN (R262, R263): DIV_UPDATE, DIV_TAKE_EFFECT,
SYNC_IN_EDGE. -/
def Obligations.LoopAndDividers : Prop :=
  -- an update shows the phase, tracks it, makes the word and adds it to the running second
  ((∀ raw ex out s, ∃ u : State, exec (.pdUpdate raw ex out) s = .next ((u.wordStep out).syncBw).pdCount ∧
     u.bell.lastPd = some (s.pdRef, s.phaseOf s.pdRef raw) ∧
     (s.curRef = none → s.bell.stepOfs = 0 → RegsBut [R.BELL_PD, R.BELL_PD_SEQ] s u ∧
       u.rd R.BELL_PD_SEQ = (s.rd R.BELL_PD_SEQ + 1) % 2 ^ 32)) ∧
   (∀ s : State, s.pdCount.bell.count = s.bell.count + 1 ∧ s.pdCount.bell.sum = s.bell.sum + s.wordNow) ∧
   -- a second leaves the mean of its words in the history when it was LOCKED throughout
   (∀ s, s.bell.clean = false → ∃ u : State, exec .historyRecord s =
       .next (u.setBit R.BELL_STATUS F.BELL_STATUS_HO_READY u.sufficient) ∧
     u = { s with bell := { s.bell with secs := s.bell.secs + 1, sum := 0, count := 0, clean := s.loop = 2 } }) ∧
   (∀ s, s.bell.clean = true → s.bell.count ≠ 0 → ∃ u : State, exec .historyRecord s =
       .next (u.setBit R.BELL_STATUS F.BELL_STATUS_HO_READY u.sufficient) ∧
     u.bell.ring = ((s.bell.secs + 1, s.meanWord s.bell.sum s.bell.count) :: s.bell.ring).take 1024 ∧
     u.bell.secs = s.bell.secs + 1 ∧ u.bell.sum = 0 ∧ u.bell.count = 0 ∧ u.regs = s.regs) ∧
   (∀ sec s, s.loop = 3 → 0 < s.fld R.BELL_HO F.BELL_HO_LIMIT → s.fld R.BELL_HO F.BELL_HO_LIMIT ≤ sec →
     exec (.holdoverLimit sec) s = .next s.enterFreerun) ∧
   (∀ sec s, s.loop ≠ 3 ∨ s.fld R.BELL_HO F.BELL_HO_LIMIT = 0 → exec (.holdoverLimit sec) s = .next s) ∧
   (∀ raw s, (s.setBit R.BELL_CTRL F.BELL_CTRL_OPEN true).loop ≠ 4 →
     exec (.loopOpenWrite true raw) s = .next ((s.setBit R.BELL_CTRL F.BELL_CTRL_OPEN true).setLoop 4)) ∧
   (∀ raw s, (s.setBit R.BELL_CTRL F.BELL_CTRL_OPEN false).loop = 4 →
     exec (.loopOpenWrite false raw) s = .next ((s.setBit R.BELL_CTRL F.BELL_CTRL_OPEN false).closeLoop raw)) ∧
   -- BELL_FREQ takes a word in OPEN only, limited to 200 ppm
   (∀ v s, s.loop = 4 → -wordLimit ≤ v.toInt → v.toInt ≤ wordLimit → exec (.bellFreqWrite v) s =
     .next (({ s with bell := { s.bell with next := some v.toInt } } : State).setBit R.BELL_STATUS F.BELL_STATUS_FREQ_CLAMP
       false)) ∧
   (∀ v s, s.loop ≠ 4 → exec (.bellFreqWrite v) s = .next s) ∧
   (∀ sec raw s, s.loop = 4 → s.fld R.BELL_CTRL F.BELL_CTRL_OPEN_WD ≤ sec → Raises (.openWdExpiry sec raw) s FS.BELL_OPEN_WD 0 0
     fun u => u = (s.openWrite false raw).flag R.BELL_FLAGS F.BELL_FLAGS_OPEN_WD) ∧
   (∀ sec raw s, s.loop ≠ 4 → exec (.openWdExpiry sec raw) s = .next s)) ∧
  ((∀ s, divGroupBad ((List.range 6).map (fun d => s.shadowOf (R.BELL_DIV d))) = false → exec .divUpdate s =
     .next (({ s with bell := { s.bell with divs := some ((List.range 6).map (fun d => s.shadowOf (R.BELL_DIV d))) } } :
       State).setBit R.BELL_STATUS F.BELL_STATUS_DIV_PENDING true)) ∧
   (∀ s, divGroupBad ((List.range 6).map (fun d => s.shadowOf (R.BELL_DIV d))) = true → s.bell.divs = none →
     exec .divUpdate s = .next (((s.dropShadows ((List.range 6).map R.BELL_DIV)).flag R.BELL_FLAGS
       F.BELL_FLAGS_APPLY_ERR).raise FS.BELL_APPLY_ERR 0 0)) ∧
   -- a captured group acts at a block start only
   (∀ ws s, s.bell.divs = some ws → s.msc % 8 = 0 → ∃ u : State, exec .divTakeEffect s =
       .next (({ u with bell := { u.bell with divs := none, rise := (List.range 6).map (fun d =>
         if F.BELL_DIV_DIV.of (ws.getD d 0#32).toNat = 0 then u.bell.rise.getD d 0 else u.msc * 1024) } } : State).setBit
           R.BELL_STATUS F.BELL_STATUS_DIV_PENDING false) ∧
     u = s.activateConfig ((List.range 6).map (fun d => (R.BELL_DIV d, ws.getD d 0#32)))) ∧
   (∀ s, s.bell.divs = none ∨ s.msc % 8 ≠ 0 → exec .divTakeEffect s = .next s) ∧
   -- an edge of the selected direction realigns the dividers of MASK
   (∀ e k s, s.bit R.BELL_SYNC F.BELL_SYNC_EN = true → s.bit R.BELL_SYNC F.BELL_SYNC_EDGE = e →
     exec (.syncInEdge e k) s = .next ((List.range 6).foldl (fun u d =>
       if s.fld R.BELL_SYNC F.BELL_SYNC_MASK / 2 ^ d % 2 = 1 then
         u.realign (s.msc * 1024 + k + s.fld R.BELL_SYNC F.BELL_SYNC_DELAY) d else u) s)) ∧
   (∀ e k s, s.bit R.BELL_SYNC F.BELL_SYNC_EN = false → exec (.syncInEdge e k) s = .next s))

/-! ### Media time, boot, pins and faults -/

/-- The media clock and its blocks (R26, R39, R52 to R55, R246, R260): MEDIA_CLOCK_EDGE, MSC_START, BLOCK_START,
BGCFG_TAKE_EFFECT. -/
def Obligations.MediaClock : Prop :=
  -- an edge computes the sample of the present MSC, but in BOOT, and ends it
  (∀ found bad clips s, s.sched.running = true → s.pins.tcxoOk = true → s.mode ≠ .boot →
    exec (.mediaClockEdge found bad clips) s =
      .next (s.dataPlane s.msc found (bad.map (fun e => (e.1.val, e.2.toNat))) clips).edgeEnd) ∧
  (∀ found bad clips s, s.sched.running = true → s.pins.tcxoOk = true → s.mode = .boot →
    exec (.mediaClockEdge found bad clips) s = .next s.edgeEnd) ∧
  -- no clock, no edge
  (∀ found bad clips s, s.sched.running = false ∨ s.pins.tcxoOk = false →
    exec (.mediaClockEdge found bad clips) s = .next s) ∧
  -- the end of a sample: MSC and the count of edges go on by one, and nothing else changes where nothing waits for the edge
  (∀ s : State, s.alarm.fade = none → s.twin.release = .none → s.bell.next = none →
    s.edgeEnd = { s with msc := s.msc + 1, edge := s.edge + 1 }) ∧
  -- a word of the loop that waits takes effect there
  (∀ (s : State) w, s.alarm.fade = none → s.twin.release = .none → s.bell.next = some w →
    s.edgeEnd.msc = s.msc + 1 ∧ s.edgeEnd.bell.next = none ∧ s.edgeEnd.reg R.BELL_FREQ = BitVec.ofInt 32 w ∧
    RegsBut [R.BELL_FREQ] s s.edgeEnd) ∧
  (∀ s, s.pins.tcxoOk = true → s.pins.resetLow = false →
    exec .mscStart s = .next { s with sched := { s.sched with running := true } }) ∧
  -- a block start at a multiple of 8 only
  (∀ codes back late s, s.msc % 8 = 0 → s.sched.running = true → s.pins.tcxoOk = true →
    exec (.blockStart codes back late) s = .next (s.blockStart (codes.map (·.toNat)) (back.map (fun e => (e.1.val, e.2)))
      (late.map (fun e => (e.1.val, e.2.map (·.toNat)))))) ∧
  (∀ codes back late s, s.msc % 8 ≠ 0 → exec (.blockStart codes back late) s = .next s) ∧
  -- it shows the codes of the SADC
  (∀ (s : State) codes i, i < 24 → (s.sadcCodes codes).rd (R.SYS_SADC_CODE i) = codes.getD i 0 % 2 ^ 32) ∧
  -- SYS_BGCFG acts at a multiple of 128
  (∀ s, s.sched.bgPending = true → s.sched.running = true → s.msc % 128 = 0 → ∃ t : State,
    exec .bgcfgTakeEffect s = .next { t with sched := { t.sched with bgPending := false, bgActive := t.rd R.SYS_BGCFG } } ∧
    t = s.setBit R.SYS_BGCFG F.SYS_BGCFG_PENDING false) ∧
  (∀ s, s.sched.bgPending = false ∨ s.msc % 128 ≠ 0 → exec .bgcfgTakeEffect s = .next s)

/-- Events and the anchor (R56 to R59, R62 to R71): EVENT_FIRE, ANCHOR_GO, ANCHOR_TAKE. -/
def Obligations.SchedulerEvents : Prop :=
  -- nothing due, nothing fires
  (∀ s, s.nextDue = none → exec .eventFire s = .next s) ∧
  -- a single event that is due fires and frees its entry
  (∀ s e, s.sched.events = [e] → e.fire ≤ s.msc → exec .eventFire s = .next (s.fireEvent e)) ∧
  (∀ (s : State) e m, s.mode ≠ .alarm → e.act = .lineEn m →
    s.fireEvent e = (s.dropEvent e.handle).lineEnableMask m) ∧
  -- in ALARM an event of a fold below LIFE-SAFETY does not act, and says so
  (∀ (s : State) e m, s.mode = .alarm → e.cls < 3 → e.act = .lineEn m →
    s.fireEvent e = (s.dropEvent e.handle).notice e 4 2 e.target 0) ∧
  -- events fire in the order of their samples, then of their classes
  (∀ a b : Event, firesBefore a b = true ↔ a.fire < b.fire ∨ (a.fire = b.fire ∧ a.act.cls < b.act.cls)) ∧
  -- an arriving event beyond the horizon is refused and leaves the state as it was
  (∀ (s : State) e code, s.msc + 2 ^ 40 < e.target → s.arrive e code = (s, .rejected)) ∧
  -- ANCHOR_GO: the anchor waits for the next edge, and is refused once MSC is anchored
  (∀ (m : Master) (v : Word) s, s.targetFor m (m.regAddr R.SCHED_ANCHOR) = .reg R.SCHED_ANCHOR →
    (m = .bar0 → s.bit R.SYS_VIEW_LOCK F.SYS_VIEW_LOCK_BAR0_RO = false) → s.paired = false →
    s.fld R.SCHED_STATUS F.SCHED_STATUS_STATE ≠ 1 → F.SCHED_ANCHOR_GO.of v.toNat = 1 →
    ∃ t u : State, exec (.anchorGo m v) s = .next { u with out := { u.out with busErr := false } } ∧
      t = s.setFld R.SCHED_ANCHOR F.SCHED_ANCHOR_TB (F.SCHED_ANCHOR_TB.of v.toNat) ∧
      u = { t with sched := { t.sched with anchorReq := true } }) ∧
  -- ANCHOR_TAKE: MSC takes the time of the time base in samples, and the residue stays to be read
  (∀ (s u : State) tb, s.sched.anchorReq = true → s.sched.running = true → s.fld R.SCHED_STATUS F.SCHED_STATUS_STATE = 0 →
    tb = s.fld R.SCHED_ANCHOR F.SCHED_ANCHOR_TB → s.sched.events = [] → s.tbInc tb ≠ 0 →
    s.msc ≤ (s.tb tb).time * 96000 / secUnit →
    u = { s with sched := { s.sched with anchorReq := false }, msc := (s.tb tb).time * 96000 / secUnit } →
    exec .anchorTake s = .next ((((u.wrN R.SCHED_ANCHOR_RES ((s.tb tb).time * 96000 % secUnit * 65536 / secUnit)).setFld
      R.SCHED_STATUS F.SCHED_STATUS_STATE 1).setFld R.SCHED_STATUS F.SCHED_STATUS_TB tb).anchorOfs tb
        (((s.tb tb).time * 96000 % secUnit * 65536 / secUnit : Nat) : Int))) ∧
  -- and is refused where an event is pending
  (∀ s, s.sched.anchorReq = true → s.sched.running = true → s.fld R.SCHED_STATUS F.SCHED_STATUS_STATE = 0 →
    s.sched.events ≠ [] → exec .anchorTake s = .next ((({ s with sched := { s.sched with anchorReq := false } } :
      State).flag R.SCHED_FLAGS F.SCHED_FLAGS_ANCHOR_ERR).raise FS.MSC_ANCHOR_ERR 0 0)) ∧
  (∀ s, s.sched.anchorReq = false → exec .anchorTake s = .next s)

/-- Leaving reset (R27, R444, R581 to R587): RESET_END, BOOT_GO, BOOT_CONFIRM, ROLE_B_WAIT_END. -/
def Obligations.Booting : Prop :=
  -- a reset that is over boots the image of the preferred slot of NVS when it is valid
  (∀ flash sig trained (s u : State) x, s.mode = .boot → s.boot.stage = .reset → s.pins.resetLow = false →
    s.pins.xinOk = true → s.pins.railsOk = true → u = s.romStart → u.pins.bootsel % 8 = 0 → u.mem.boot.pref % 2 = 0 →
    u.image (fun a n => u.mem.nvsBytes (0x100000 + a) n) sig.1 = some x →
    exec (.resetEnd flash sig trained) s = .next ((u.runImage x 0).firmwareBoot trained)) ∧
  -- not while RESET_N is low, XIN or a rail is missing, or outside a reset
  (∀ flash sig trained s, s.mode ≠ .boot ∨ s.boot.stage ≠ .reset ∨ s.pins.resetLow = true ∨ s.pins.xinOk = false ∨
    s.pins.railsOk = false → exec (.resetEnd flash sig trained) s = .next s) ∧
  -- PCIe boot: a valid image runs, one that is not sets IMG_ERR
  (∀ bs sig trained s x, s.mode = .boot → s.boot.stage = .waitPcie → s.image (slice bs) sig = some x →
    exec (.bootGo (some bs) sig trained) s = .next ((s.runImage x 2).firmwareBoot trained)) ∧
  (∀ sig trained s, s.mode = .boot → s.boot.stage = .waitPcie →
    exec (.bootGo none sig trained) s = .next (s.setBit R.SYS_BOOT F.SYS_BOOT_IMG_ERR true)) ∧
  (∀ bs sig trained s, s.mode = .boot → s.boot.stage = .waitPcie → s.image (slice bs) sig = none →
    exec (.bootGo (some bs) sig trained) s = .next (s.setBit R.SYS_BOOT F.SYS_BOOT_IMG_ERR true)) ∧
  (∀ im sig trained s, s.mode ≠ .boot ∨ s.boot.stage ≠ .waitPcie → exec (.bootGo im sig trained) s = .next s) ∧
  -- the trial image is confirmed, and the rollback count rises to its SECVER
  (∀ s, Gives .bootConfirm s fun t => t.mem.boot = { s.mem.boot with trial := false, trialCnt := 0 } ∧
    t.mem.otp.rollback = max s.mem.otp.rollback (s.fld R.SYS_BOOT F.SYS_BOOT_SECVER) ∧ t.regs = s.regs ∧ t.mem.nvs = s.mem.nvs) ∧
  -- after 96 samples a role-B engine leaves BOOT
  (∀ n s, s.mode = .boot → s.boot.stage = .waitRoleB → 96 ≤ n → s.boot.cond = none → s.boot.noImage = false →
    exec (.roleBWaitEnd n) s = .next s.leaveBoot) ∧
  (∀ n s c, s.mode = .boot → s.boot.stage = .waitRoleB → 96 ≤ n → s.boot.cond = some c → s.pins.dutyIn = true →
    exec (.roleBWaitEnd n) s = .next (s.chipReset 4 c.2)) ∧
  (∀ n s, n < 96 → exec (.roleBWaitEnd n) s = .next s)

/-- Pins and chip reset (R578 to R580, R594, R604, R611): POWER_ON_RESET, BROWN_OUT, RESET_N_PIN, PERST, PCIE_LINK_UP, and the
instructions of the TAP. -/
def Obligations.PinsAndResets : Prop :=
  (∀ (b : Fin 8) r v s, Gives (.powerOnReset b r v) s fun t => t.regs = [] ∧ t.mem.nvs = s.mem.nvs ∧ t.mem.otp = s.mem.otp ∧
    t.mem.sram = [] ∧ t.mem.shep = [] ∧ t.mem.dram = [] ∧ t.mem.dramKey = s.mem.dramKey + 1 ∧ t.mode = .boot ∧ t.msc = 0 ∧
    t.pins = { s.pins with railsOk := true, bootsel := b.val, roleB := r, v33 := v.toNat, jtagIr := 2 }) ∧
  (∀ s, Gives .brownOut s fun t => t.regs = [] ∧ t.mem.nvs = s.mem.nvs ∧ t.mem.otp = s.mem.otp ∧ t.mem.sram = [] ∧ t.mode = .boot ∧
    t.pins = { s.pins with railsOk := false }) ∧
  -- RESET_N going low resets the chip with cause 1; it counts one reset
  (∀ s, s.pins.resetLow = false → exec (.resetNPin true) s =
    .next (({ s with pins := { s.pins with resetLow := true } } : State).chipReset 1 0)) ∧
  (∀ s, exec (.resetNPin false) s = .next { s with pins := { s.pins with resetLow := false } }) ∧
  (∀ (s : State) c src, s.mode ≠ .boot → (s.chipReset c src).rd R.SYS_RST_CAUSE = (c + src % 256 * 256) % 2 ^ 32 ∧
    (s.chipReset c src).rd R.SYS_RST_CNT = min 0xFFFFFFFF (s.rd R.SYS_RST_CNT + 1) ∧
    (s.chipReset c src).mem.nvs = s.mem.nvs ∧ (s.chipReset c src).mem.otp = s.mem.otp ∧ (s.chipReset c src).mem.sram = [] ∧
    (s.chipReset c src).pins = s.pins ∧ ∀ a, a ∉ [R.SYS_RST_CAUSE, R.SYS_RST_CNT] → (s.chipReset c src).reg a = resetAt a) ∧
  -- a cause that arrives while a reset is in progress leaves the recorded one
  (∀ (s : State) c src, s.mode = .boot → s.boot.stage = .reset →
    (s.chipReset c src).rd R.SYS_RST_CAUSE = s.rd R.SYS_RST_CAUSE) ∧
  (∀ s, exec .perst s = .next ({ s with pins := { s.pins with pcieUp := false } } : State).disablePcie) ∧
  (∀ s, s.pins.pcieUp = true ∨ s.boot.fwRuns = false →
    exec .pcieLinkUp s = .next { s with pins := { s.pins with pcieUp := true } }) ∧
  (∀ s, s.pins.pcieUp = false → s.boot.fwRuns = true → s.mem.committed = none →
    exec .pcieLinkUp s = .next { s with pins := { s.pins with pcieUp := true } }) ∧
  -- the TAP
  (∀ s, exec .jtagExtest s = .next (s.jtag 0x00) ∧ exec .jtagSamplePreload s = .next (s.jtag 0x01) ∧
    exec .jtagIdcode s = .next (s.jtag 0x02) ∧ exec .jtagHighz s = .next (s.jtag 0x03) ∧
    exec .jtagClamp s = .next (s.jtag 0x04) ∧ exec .jtagBypass s = .next (s.jtag 0xFF) ∧
    exec .jtagChipRst s = .next ((s.jtag 0xFF).chipReset 7 0)) ∧
  (∀ s, s.pins.jtagIr ≠ 0 → s.pins.jtagIr ≠ 3 → s.pins.jtagIr ≠ 4 → exec .jtagTapReset s = .next (s.jtag 2)) ∧
  (∀ s, s.pins.jtagIr = 0 ∨ s.pins.jtagIr = 3 ∨ s.pins.jtagIr = 4 →
    exec .jtagTapReset s = .next ((s.jtag 2).chipReset 7 0)) ∧
  (∀ (s : State) ir, s.jtag ir = { s with pins := { s.pins with jtagIr := ir } })

/-- Windows, quiet times, the record and the pin of the Fault Collector, and the die temperature (R457, R462 to R468,
R614): FAULT_WINDOW_CLOSE, FAULT_QUIET_EXIT, FAULT_REC_ACK, FAULT_SW_RAISE, FAULTN_READBACK, FAULTN_MIN_LOW_END,
DIE_TEMP_READING. What one event of a source does in the Fault Collector (R460, R465): it is counted, the source is
raised, and the first event of a record fills it. The frame: registers of the Fault Collector and its own bits only.
-/
def Obligations.FaultCollector : Prop :=
  -- a window that has lasted its time counts anew
  ((∀ (f : Fin 256) ms s, s.fld (R.FAULT_SRC_WIN f) F.FAULT_SRC_WIN_MS ≤ ms → s.fld (R.FAULT_SRC_STAT f) F.FAULT_SRC_STAT_WCOUNT ≠ 0 →
     Gives (.faultWindowClose f ms) s fun t => OnlyRegs [R.FAULT_SRC_STAT f] s t ∧
       t.rd (R.FAULT_SRC_STAT f) = F.FAULT_SRC_STAT_WCOUNT.put (s.rd (R.FAULT_SRC_STAT f)) 0) ∧
   (∀ (f : Fin 256) ms s, ms < s.fld (R.FAULT_SRC_WIN f) F.FAULT_SRC_WIN_MS → exec (.faultWindowClose f ms) s = .next s) ∧
   -- a quiet time makes a source NORMAL, counts a recovery, and may release the pin
   (∀ (f : Fin 256) ms s, s.fld (R.FAULT_SRC_STAT f) F.FAULT_SRC_STAT_STATE ≠ 0 →
     s.fld (R.FAULT_SRC_QUIET f) F.FAULT_SRC_QUIET_MS ≤ ms → ∃ u : State, exec (.faultQuietExit f ms) s = .next u.pinReleased ∧
       u = (((s.setFld (R.FAULT_SRC_STAT f) F.FAULT_SRC_STAT_STATE 0).countFld (R.FAULT_SRC_STAT f) F.FAULT_SRC_STAT_RECOV).setBitAt
         (R.FAULT_RAISED (f / 32)) (f % 32) false).setBitAt (R.FAULT_SEVERE (f / 32)) (f % 32) false) ∧
   (∀ (f : Fin 256) ms s, ms < s.fld (R.FAULT_SRC_QUIET f) F.FAULT_SRC_QUIET_MS → exec (.faultQuietExit f ms) s = .next s) ∧
   -- the record closes and keeps its fields
   (∀ s, Gives .faultRecAck s fun t => OnlyRegs [R.FAULT_STATUS] s t ∧
     t.rd R.FAULT_STATUS = F.FAULT_STATUS_REC_OPEN.put (s.rd R.FAULT_STATUS) 0) ∧
   -- software raises the sources of its mask, the lowest first
   (∀ (v : Word) s, exec (.faultSwRaise v []) s = .next (((List.range 16).filter (fun k =>
     F.FAULT_SW_RAISE_SRC.of v.toNat / 2 ^ k % 2 = 1)).foldl (fun (t : State) k =>
       t.raise (FS.SW0 + k) (F.FAULT_SW_RAISE_UNIT.of v.toNat) 0) s)) ∧
   -- a parity error in a configuration word is noted and raised before
   (∀ (v : Word) (f : Fin 256) s, faultNamed f = true → ∃ u : State,
     exec (.faultSwRaise v [f]) s = .next ((u.raise FS.FC_PARITY 0 0).swRaise v.toNat) ∧
     u = s.setBit (R.FAULT_SRC_STAT f) F.FAULT_SRC_STAT_PAR_ERR true) ∧
   -- the pin driven low reads high: raised once
   (∀ (ms : Nat) (s u : State), u = { s with pins := { s.pins with faultIn := true } } → u.pinLow = true → 0 < ms → s.fc.rbRaised = false →
     exec (.faultnReadback true ms) s =
       .next (({ u with fc := { u.fc with rbRaised := true } } : State).raise FS.FAULTN_READBACK 0 0)) ∧
   (∀ (ms : Nat) (s u : State), u = { s with pins := { s.pins with faultIn := false } } → u.pinLow = true → 0 < ms →
     exec (.faultnReadback false ms) s = .next { u with fc := { u.fc with rbRaised := false } }) ∧
   (∀ ms s, 10 ≤ ms → s.fc.pinMin = true →
     exec (.faultnMinLowEnd ms) s = .next ({ s with fc := { s.fc with pinMin := false } } : State).pinReleased) ∧
   (∀ ms s, ms < 10 → exec (.faultnMinLowEnd ms) s = .next s) ∧
   -- a die temperature below WARN is shown and raises nothing
   (∀ (t : BitVec 16) s, s.boot.tempRead = false → s.boot.warnRaised = false → t.toInt < 2000 →
     t.toInt < sext 16 (s.fld R.SYS_TEMP_LIM F.SYS_TEMP_LIM_WARN) →
     Gives (.dieTempReading t) s fun u => u.rd R.SYS_DIE_TEMP = t.toNat + t.toNat * 2 ^ 16 ∧ RegsBut [R.SYS_DIE_TEMP] s u ∧
       u.boot.tempRead = true ∧ u.boot.warnRaised = false ∧ u.mem = s.mem) ∧
   -- one at WARN is raised once
   (∀ (t : BitVec 16) (s : State), s.boot.tempRead = false → s.boot.warnRaised = false → t.toInt < 2000 → ∃ u v : State,
     u = s.wrN R.SYS_DIE_TEMP (t.toNat + t.toNat * 2 ^ 16) ∧ v = { u with boot := { u.boot with tempRead := true } } ∧
     (sext 16 (v.fld R.SYS_TEMP_LIM F.SYS_TEMP_LIM_WARN) ≤ t.toInt → exec (.dieTempReading t) s =
       .next (({ v with boot := { v.boot with warnRaised := true } } : State).raise FS.DIE_TEMP 0 0)))) ∧
  ((∀ (s : State) f unit detail, f < 256 → ∃ t : State, (s.collect f unit detail).1 = t ∧
     t.rd (R.FAULT_SRC_CNT f) = min 0xFFFFFFFF (s.rd (R.FAULT_SRC_CNT f) + 1) ∧
     t.bitAt (R.FAULT_RAISED (f / 32)) (f % 32) = true ∧
     t = { s with regs := t.regs, fc := t.fc } ∧
     ∀ a, a < 0x40B00000 ∨ 0x40C00000 ≤ a → t.reg a = s.reg a) ∧
   -- the first event after an acknowledgement fills the record
   (∀ (s : State) f info st react held sev, s.bit R.FAULT_STATUS F.FAULT_STATUS_REC_OPEN = false →
     (s.recordEvent f info st react held sev).bit R.FAULT_STATUS F.FAULT_STATUS_REC_OPEN = true ∧
     (s.recordEvent f info st react held sev).rd R.FAULT_REC_SRC =
       (f + st * 2 ^ 8 + react * 2 ^ 16 + held * 2 ^ 24) % 2 ^ 32 ∧
     (s.recordEvent f info st react held sev).rd R.FAULT_REC_INFO = info % 2 ^ 32 ∧
     (s.recordEvent f info st react held sev).rd R.FAULT_REC_MERGE_CNT = 0 ∧
     (s.recordEvent f info st react held sev).rd R.FAULT_REC_MSC_LO = s.msc % 2 ^ 32) ∧
   -- a reserved source never raises an event
   (∀ (s : State) f unit detail, faultNamed f = false → s.raise f unit detail = s))

/-! ### The bus, the registers, the memories, the CCU and Drover -/

/-- Writes over the bus (R42 to R44, R508, R518, R524, R552): REGISTER_WRITE, ALIAS_ACCESS, REMAP_WRITE. -/
def Obligations.BusWrites : Prop :=
  -- a write reaches its register with the bytes that are enabled
  (∀ (m : Master) (addr v : Word) (en : BitVec 4) (hw : Word) s a, s.targetFor m (addr.toNat / 4 * 4) = .reg a →
    (m = .bar0 → s.bit R.SYS_VIEW_LOCK F.SYS_VIEW_LOCK_BAR0_RO = false) → s.paired = false → ∃ u : State,
      exec (.registerWrite m addr v en hw) s = .next { u with out := { u.out with busErr := false } } ∧
      u = s.writeReg a v.toNat (enableMask en.toNat) m (addr.toNat / 4 * 4) hw.toNat) ∧
  -- an address outside the map has a bus error and is raised
  (∀ (m : Master) (addr v : Word) (en : BitVec 4) (hw : Word) s, s.targetFor m (addr.toNat / 4 * 4) = .unmapped → ∃ u : State,
      exec (.registerWrite m addr v en hw) s = .next { u with out := { u.out with busErr := true } } ∧
      u = s.raise FS.ADDR_UNMAPPED 0 0) ∧
  -- BAR0 is read only under SYS_VIEW_LOCK: a write changes nothing and is a violation
  (∀ (addr v : Word) (en : BitVec 4) (hw : Word) s, s.targetFor .bar0 (addr.toNat / 4 * 4) ≠ .unmapped →
    s.bit R.SYS_VIEW_LOCK F.SYS_VIEW_LOCK_BAR0_RO = true → ∃ u : State,
      exec (.registerWrite .bar0 addr v en hw) s = .next { u with out := { u.out with busErr := false } } ∧
      u = s.violate (addr.toNat / 4 * 4) .bar0 2) ∧
  -- a word of the alias region is one bit of the SYS control page
  (∀ (m : Master) (i : Fin 32768) (v : Word) s r, m ≠ .bar0 → m ≠ .bar2 → s.paired = false →
    regSpec? (0x40000000 + 4 * (i.val / 32)) = some r → r.acc ≠ .once → ∃ u : State,
      exec (.aliasAccess m i (some v)) s = .next { u with out := { u.out with busErr := false } } ∧
      u = s.writeReg (0x40000000 + 4 * (i.val / 32)) (v.toNat % 2 * 2 ^ (i.val % 32)) (2 ^ (i.val % 32)) m
        (0x41000000 + 4 * i.val) 0) ∧
  (∀ (m : Master) (i : Fin 32768) s, m ≠ .bar0 → m ≠ .bar2 → exec (.aliasAccess m i none) s =
    .next (State.busAnswer (s, BitVec.ofNat 32 ((s.view (0x40000000 + 4 * (i.val / 32))).toNat / 2 ^ (i.val % 32) % 2), false))) ∧
  -- SYS_REMAP can be set once and not cleared
  (∀ (m : Master) (v : Word) s, s.targetFor m (m.regAddr R.SYS_REMAP) = .reg R.SYS_REMAP →
    (m = .bar0 → s.bit R.SYS_VIEW_LOCK F.SYS_VIEW_LOCK_BAR0_RO = false) → s.paired = false →
    (v.toNat % 2 = 1 ∨ s.rd R.SYS_REMAP % 2 = 0 → ∃ u : State,
      exec (.remapWrite m v) s = .next { u with out := { u.out with busErr := false } } ∧
      u = s.wrN R.SYS_REMAP (s.rd R.SYS_REMAP ||| v.toNat % 2)) ∧
    (v.toNat % 2 = 0 → s.rd R.SYS_REMAP % 2 = 1 → ∃ u : State,
      exec (.remapWrite m v) s = .next { u with out := { u.out with busErr := false } } ∧
      u = s.violate (m.regAddr R.SYS_REMAP) m 0))

/-- What a write does in a register of each access class (R511 to R520): read only, cleared by ones, lock, staged. -/
def Obligations.RegisterClasses : Prop :=
  ∀ (s : State) a r v msk m addr hw, regSpec? a = some r →
    (r.acc = .ro → s.writeReg a v msk m addr hw = s) ∧
    (r.acc = .w1c → s.writeReg a v msk m addr hw =
      s.wrN a ((s.rd a &&& (0xFFFFFFFF - (v &&& msk &&& r.cmask))) ||| (hw &&& r.cmask))) ∧
    -- a lock that is set is not cleared: the write is a violation and the register stays
    (r.acc = .lock → msk % 2 = 1 → s.rd a % 2 = 1 → v % 2 = 0 → s.writeReg a v msk m addr hw = s.violate addr m 0) ∧
    (r.acc = .lock → msk % 2 = 1 → v % 2 = 1 → s.writeReg a v msk m addr hw = s.wrN a (s.rd a ||| 1)) ∧
    -- a staged register changes its shadow, and its active value stays
    (r.acc = .stg → (s.writeReg a v msk m addr hw).regs = s.regs ∧
      (s.writeReg a v msk m addr hw).shadowOf a =
        BitVec.ofNat 32 (mergeBits (s.shadowOf a).toNat v (msk &&& r.wmask))) ∧
    -- the violation that R520 counts, flags and raises
    (∀ kind, s.violate addr m kind = ((((s.wrN R.SYS_LOCKV_ADDR addr).wrN R.SYS_LOCKV_INFO
      (kind * 2 ^ 28 + m.code * 2 ^ 16)).count R.SYS_LOCKV_CNT).flag R.SYS_REGFLAGS F.SYS_REGFLAGS_LOCKV).raise FS.LOCK_VIOL
        m.code kind)

/-- A ONCE register takes the first write after chip reset, whatever its value, and changes no other register with it; every
later write is ignored and is a violation (R519). No register has taken its write after a chip reset. -/
def Obligations.OnceRegisters : Prop :=
  (∀ (s : State) a r v msk m addr hw, regSpec? a = some r → r.acc = .once →
    (s.boot.onceUsed.contains a = false → ∃ t : State, s.writeReg a v msk m addr hw = t ∧
      t.rd a &&& r.wmask = mergeBits (s.rd a) v (msk &&& r.wmask) &&& r.wmask ∧ RegsBut [a] s t ∧
      t.boot.onceUsed = a :: s.boot.onceUsed) ∧
    (s.boot.onceUsed.contains a = true → s.writeReg a v msk m addr hw = s.violate addr m 1)) ∧
  (∀ (s : State) cause detail, (s.chipReset cause detail).boot.onceUsed = [])

/-- Reads over the bus, and the memories behind it (R11, R61, R541, R551): LATCHED_PAIR_READ, BUS_TIMEOUT, MSG_DRAM_WRITE. -/
def Obligations.BusReads : Prop :=
  -- a read of the low word of MSC latches the high word
  (∀ (m : Master) (addr : Word) s, s.targetFor m (addr.toNat / 4 * 4) = .reg R.SCHED_MSC_LO →
    exec (.latchedPairRead m addr) s = .next (State.busAnswer (s.latchHi R.SCHED_MSC_LO
      (BitVec.ofNat 32 (s.msc / 2 ^ 32 % 2 ^ 32)), BitVec.ofNat 32 (s.msc % 2 ^ 32), false))) ∧
  -- and the next read of the high word takes it
  (∀ (m : Master) (addr : Word) s v, s.targetFor m (addr.toNat / 4 * 4) = .reg R.SCHED_MSC_HI →
    s.latchOf R.SCHED_MSC_LO = some v →
    exec (.latchedPairRead m addr) s = .next (State.busAnswer (s.dropLatch R.SCHED_MSC_LO, v, false))) ∧
  -- a word of SRAM is read low byte first and leaves the state as it was but for the answer
  (∀ (m : Master) (addr : Word) s o, s.targetFor m (addr.toNat / 4 * 4) = .sram o → s.poisoned 1 o = false →
    exec (.latchedPairRead m addr) s = .next (State.busAnswer (s,
      BitVec.ofNat 32 (ofLe ((List.range 4).map (fun j => (Sparse.get zeroByte s.mem.sram (o + j)).toNat))), false))) ∧
  -- a write to SRAM changes the bytes that are enabled and no other byte of any memory
  (∀ (m : Master) (addr v : Word) (en : BitVec 4) (hw : Word) s o, s.targetFor m (addr.toNat / 4 * 4) = .sram o →
    (m = .bar0 → s.bit R.SYS_VIEW_LOCK F.SYS_VIEW_LOCK_BAR0_RO = false) →
    Gives (.registerWrite m addr v en hw) s fun t =>
      (∀ x, Sparse.get zeroByte t.mem.sram x = if o ≤ x ∧ x < o + 4 ∧ en.getLsbD (x - o) = true then
        BitVec.ofNat 8 (v.toNat / 256 ^ (x - o)) else Sparse.get zeroByte s.mem.sram x) ∧
      t = { s with mem := { s.mem with sram := t.mem.sram }, out := { s.out with busErr := false } }) ∧
  -- an access that times out reads 0, is recorded and raised for its master
  (∀ (m : Master) (addr : Word) s took, ∃ u : State,
    exec (.busTimeout m addr none took) s = .next { u with out := { u.out with busData := 0#32, busErr := true } } ∧
    u = ((s.wr R.SYS_BUS_TO_ADDR addr).flag R.SYS_MEMFLAGS F.SYS_MEMFLAGS_TIMEOUT).raise FS.BUS_TIMEOUT m.code 0) ∧
  -- ALARM_MSG_DRAM takes one write
  (∀ (m : Master) (v : Word) s, s.targetFor m (m.regAddr R.ALARM_MSG_DRAM) = .reg R.ALARM_MSG_DRAM →
    (m = .bar0 → s.bit R.SYS_VIEW_LOCK F.SYS_VIEW_LOCK_BAR0_RO = false) → s.paired = false →
    s.boot.onceUsed.contains R.ALARM_MSG_DRAM = false → ∃ u : State,
      exec (.msgDramWrite m v) s = .next { u with out := { u.out with busErr := false } } ∧
      u = ({ s with boot := { s.boot with onceUsed := R.ALARM_MSG_DRAM :: s.boot.onceUsed } } : State).msgDramStart
        (BitVec.ofNat 32 (mergeBits (s.rd R.ALARM_MSG_DRAM) v.toNat (0xFFFFFFFF &&& 0x3FFFFF))))

/-- Scrubbers, retraining and the FRESH counter (R527, R544, R545, R556): SCRUB_LINE, DRAM_RETRAIN, SYS_FRESH_REQ, FRESH_DONE. -/
def Obligations.MemoryService : Prop :=
  -- a clean line of a pass that goes on changes nothing
  (∀ s, exec (.scrubLine [] false) s = .next s) ∧
  -- a correctable word of SRAM is counted, recorded and raised; its content stays
  (∀ i s, ∃ u : State, exec (.scrubLine [(.mem 1 i, false)] false) s = .next (u.raise FS.SRAM_ECC_CE 0 0) ∧
    u = (((s.count R.SYS_ECC_CE_CNT).wr R.SYS_ECC_ADDR (BitVec.ofNat 32 (8 * i))).wrN R.SYS_ECC_INFO
      (0 + 0 + 7 % 16 * 2 ^ 16 + 1 % 16)).flag R.SYS_MEMFLAGS F.SYS_MEMFLAGS_CE) ∧
  -- an uncorrectable one is poisoned as well
  (∀ i s, s.mem.poison.contains (1, i) = false → ∃ u v : State,
    exec (.scrubLine [(.mem 1 i, true)] false) s = .next (v.raise FS.SRAM_ECC_UE 0 0) ∧
    u = { s with mem := { s.mem with poison := (1, i) :: s.mem.poison } } ∧
    v = (((u.count R.SYS_ECC_UE_CNT).wr R.SYS_ECC_ADDR (BitVec.ofNat 32 (8 * i))).wrN R.SYS_ECC_INFO
      (2 ^ 31 + 0 + 7 % 16 * 2 ^ 16 + 1 % 16)).flag R.SYS_MEMFLAGS F.SYS_MEMFLAGS_UE) ∧
  -- a retraining that fails ends DRAM, one that passes changes nothing
  (∀ s, s.bit R.SYS_DRAM_STAT F.SYS_DRAM_STAT_TRAINED = true → s.bit R.SYS_DRAM_STAT F.SYS_DRAM_STAT_FAIL = false →
    Raises (.dramRetrain false) s FS.DRAM_FAIL 0 0 fun u => OnlyRegs [R.SYS_DRAM_STAT] s u ∧
      u.rd R.SYS_DRAM_STAT = F.SYS_DRAM_STAT_USABLE.put (F.SYS_DRAM_STAT_FAIL.put (s.rd R.SYS_DRAM_STAT) 1) 0) ∧
  (∀ s, exec (.dramRetrain true) s = .next s) ∧
  -- REQ clears DONE, and the second edge of the slow clock sets it
  (∀ s, Gives .sysFreshReq s fun t => t.boot.freshLeft = 2 ∧ RegsBut [R.SYS_FRESH] s t ∧
    t.rd R.SYS_FRESH = F.SYS_FRESH_DONE.put (s.rd R.SYS_FRESH) 0 ∧ t.mem = s.mem) ∧
  (∀ n s, s.boot.freshLeft = 2 → 2 ≤ n → Gives (.freshDone n) s fun t => t.boot.freshLeft = 0 ∧ RegsBut [R.SYS_FRESH] s t ∧
    t.rd R.SYS_FRESH = F.SYS_FRESH_DONE.put (s.rd R.SYS_FRESH) 1 ∧ t.mem = s.mem) ∧
  (∀ n s, n < s.boot.freshLeft → exec (.freshDone n) s = .next s)

/-- The Configuration Check Unit (R528 to R531): CCU_COMMIT_EXPLICIT, CCU_COMMIT_MEASURED, CCU_PASS_END, CCU_DEADLINE. -/
def Obligations.ConfigurationCheck : Prop :=
  -- an explicit commit takes the reference that software has written
  (∀ s, ∃ u : State, exec (.ccuCommitExplicit 1#3) s =
      .next { u with ccu := { u.ccu with adopting := u.ccu.adopting.set 0 false } } ∧
    u = (((s.setCcuState 0 1).setCcuAdopt 0 false).setCcuDeadline 0 noDeadline).wr (R.CCU_ACT_REF 0)
      ((((s.setCcuState 0 1).setCcuAdopt 0 false).setCcuDeadline 0 noDeadline).reg (R.CCU_REF 0))) ∧
  -- a measured one leaves it to a pass that begins later
  (∀ s, ∃ u : State, exec (.ccuCommitMeasured 4#3) s =
      .next { u with ccu := { u.ccu with adopting := u.ccu.adopting.set 2 false } } ∧
    u = (s.setCcuAdopt 2 true).setCcuDeadline 2 noDeadline) ∧
  -- region by region
  (∀ (m : BitVec 3) s, exec (.ccuCommitExplicit m) s = .next ([0, 1, 2].foldl (fun (t : State) r =>
      if m.toNat / 2 ^ r % 2 = 1 then t.commitExplicit r else t) s) ∧
    exec (.ccuCommitMeasured m) s = .next ([0, 1, 2].foldl (fun (t : State) r =>
      if m.toNat / 2 ^ r % 2 = 1 then t.commitMeasured r else t) s)) ∧
  -- a pass shows its CRC; on a CHECKED region that differs from its reference it flags, counts and raises
  (∀ (s u : State) w, u = s.wr (R.CCU_LAST 1) w → u.ccuAdopt 1 = false → u.ccuState 1 = 1 → u.ccu.whole.getD 1 false = true →
    w ≠ u.reg (R.CCU_ACT_REF 1) → exec (.ccuPassEnd 1 (some w) []) s =
      .next ((((u.flag R.CCU_FLAGS F.CCU_FLAGS_MISMATCH).count R.CCU_MISM_CNT).raise FS.CCU_MISMATCH 1 0).beginPass 1)) ∧
  -- one that agrees changes nothing else
  (∀ (s u : State) w, u = s.wr (R.CCU_LAST 1) w → u.ccuAdopt 1 = false → w = u.reg (R.CCU_ACT_REF 1) →
    exec (.ccuPassEnd 1 (some w) []) s = .next (u.beginPass 1)) ∧
  -- one that began after MEASURED adopts what it has read
  (∀ (s u : State) w, u = s.wr (R.CCU_LAST 1) w → u.ccuAdopt 1 = true → u.ccu.adopting.getD 1 false = true →
    u.ccu.changed.getD 1 true = false → exec (.ccuPassEnd 1 (some w) []) s =
      .next (((((u.setCcuState 1 1).setCcuAdopt 1 false).setCcuDeadline 1 noDeadline).wr (R.CCU_ACT_REF 1) w).flag R.CCU_FLAGS
        F.CCU_FLAGS_ADOPTED |>.beginPass 1)) ∧
  -- the deadline of a region in GRACE is reported once
  (∀ (r : Fin 3) s, s.ccuState r = 2 → s.ccuAdopt r = false → s.ccuDeadline r ≤ s.msc → s.ccu.timedOut.getD r true = false →
    ∃ u : State, exec (.ccuDeadline r) s = .next ((u.flag R.CCU_FLAGS F.CCU_FLAGS_TIMEOUT).raise FS.CCU_COMMIT_TIMEOUT r 0) ∧
      u = { s with ccu := { s.ccu with timedOut := s.ccu.timedOut.set r true } }) ∧
  (∀ (r : Fin 3) s, s.ccuState r ≠ 2 ∨ s.ccuAdopt r = true ∨ s.msc < s.ccuDeadline r → exec (.ccuDeadline r) s = .next s)

/-- Drover (R561 to R572): DROVER_START, DROVER_ABORT, DESCRIPTOR_FETCH, DESCRIPTOR_COMPLETE, DROVER_BUS_ERROR. -/
def Obligations.DroverCommands : Prop :=
  -- START: the channel runs and fetches from its descriptor address
  (∀ (c : Fin 16) s, s.paired = false → s.drvState c ≠ 1 → ∃ u : State,
    exec (.droverStart .shepherd c) s = .next { u with out := { u.out with busErr := false } } ∧
    u = (((s.wrN (R.DROVER_CH_STAT c) 1).setDrv c { next := s.rd64 (R.DROVER_CH_DESC_LO c) (R.DROVER_CH_DESC_HI c) }).wrN
      (R.DROVER_CH_DESC_CNT c) 0).wrN (R.DROVER_CH_BYTES c) 0) ∧
  -- ABORT: a running channel stops with cause 4 at the burst boundary
  (∀ (c : Fin 16) n host (s u : State), s.paired = false → s.drvState c = 1 →
    u = { (s.setDrv c { s.drv c with abort := true }) with
      out := { (s.setDrv c { s.drv c with abort := true }).out with busErr := false } } →
    exec (.droverAbort .shepherd c n host) s = .next (u.drvStop c n host 3 4)) ∧
  -- the budget of descriptors stops a channel
  (∀ (c : Fin 16) host s, s.drvState c = 1 → (s.drv c).desc = none → (s.drv c).abort = false →
    s.fld (R.DROVER_CH_CFG c) F.DROVER_CH_CFG_BUDGET ≤ (s.drv c).fetched → exec (.descriptorFetch c host) s =
      .next (((s.drvEnter c 4 2).flag R.DROVER_FLAGS F.DROVER_FLAGS_BUDGET).raise FS.DROVER_BUDGET c 0)) ∧
  -- a descriptor address that is not aligned is a descriptor error
  (∀ (c : Fin 16) host s, s.drvState c = 1 → (s.drv c).desc = none → (s.drv c).abort = false →
    (s.drv c).fetched < s.fld (R.DROVER_CH_CFG c) F.DROVER_CH_CFG_BUDGET → (s.drv c).next % 32 ≠ 0 →
    exec (.descriptorFetch c host) s =
      .next (((s.drvEnter c 4 1).flag R.DROVER_FLAGS F.DROVER_FLAGS_DESC_ERR).raise FS.DROVER_DESC_ERR c 0)) ∧
  -- a descriptor in host memory is read little-endian, counted, and taken unless R566 refuses it
  (∀ (c : Fin 16) host s (d : Desc) (u : State), s.drvState c = 1 → (s.drv c).desc = none → (s.drv c).abort = false →
    (s.drv c).fetched < s.fld (R.DROVER_CH_CFG c) F.DROVER_CH_CFG_BUDGET → (s.drv c).next % 32 = 0 →
    spaceOf (s.drv c).next = 2 → spaceOf ((s.drv c).next + 24) = 2 → offsetOf (s.drv c).next + 32 ≤ 2 ^ 62 →
    d = (ofLe ((List.range 4).map (fun j => (s.hostBytes (offsetOf (s.drv c).next) host (offsetOf (s.drv c).next + j)).toNat)),
      ofLe ((List.range 4).map (fun j => (s.hostBytes (offsetOf (s.drv c).next) host (offsetOf (s.drv c).next + 4 + j)).toNat)),
      ofLe ((List.range 8).map (fun j => (s.hostBytes (offsetOf (s.drv c).next) host (offsetOf (s.drv c).next + 8 + j)).toNat)),
      ofLe ((List.range 8).map (fun j => (s.hostBytes (offsetOf (s.drv c).next) host (offsetOf (s.drv c).next + 16 + j)).toNat)),
      ofLe ((List.range 8).map (fun j => (s.hostBytes (offsetOf (s.drv c).next) host (offsetOf (s.drv c).next + 24 + j)).toNat))) →
    u = ((s.wr64 (R.DROVER_CH_CUR_LO c) (R.DROVER_CH_CUR_HI c) (s.drv c).next).bump).setDrv c
      { s.drv c with fetched := (s.drv c).fetched + 1 } → u.descError c d = false →
    exec (.descriptorFetch c host) s = .next (u.setDrv c { u.drv c with desc := some d })) ∧
  -- a descriptor whose last element has moved: the channel goes on to the next one, or is done
  (∀ (c : Fin 16) host conf s d (u : State), (s.drv c).desc = some d → s.drvState c = 1 →
    s.drvMove c d (Desc.count d) (s.hostBytes (offsetOf (Desc.src d)) host) (conf.map (·.val)) = (u, none) →
    spaceOf (Desc.dst d) = 2 → Desc.irq d = false → (u.bump.count (R.DROVER_CH_DESC_CNT c)).drvState c = 1 → Desc.next d = 0 →
    exec (.descriptorComplete c host conf) s = .next ((u.bump.count (R.DROVER_CH_DESC_CNT c)).drvEnter c 2 0)) ∧
  (∀ (c : Fin 16) host conf s, (s.drv c).desc = none → exec (.descriptorComplete c host conf) s = .next s) ∧
  -- a bus error halts every running channel
  (∀ wr (k : Fin 4) (a : DWord) mv s, (List.range 16).any (fun c => s.drvState c = 1) = true →
    exec (.droverBusError wr k a mv) s = .next (s.drvBusError { write := wr, kind := k.val, addr := a.toNat }
      (some (mv.map (fun x => (x.1.val, x.2.1, x.2.2)))))) ∧
  (∀ wr (k : Fin 4) (a : DWord) mv s, (List.range 16).any (fun c => s.drvState c = 1) = false →
    exec (.droverBusError wr k a mv) s = .next s) ∧
  -- a holding register: padding above or below, sign, and what is dropped (R564)
  (∀ (d : Desc) v, widthBits d.sw = widthBits d.dw → d.convert v = v) ∧
  (∀ (d : Desc) v, widthBits d.sw < widthBits d.dw → d.align = true →
    d.convert v = v * 2 ^ (widthBits d.dw - widthBits d.sw)) ∧
  (∀ (d : Desc) v, widthBits d.dw < widthBits d.sw → d.align = false → d.convert v = v % 2 ^ widthBits d.dw)

/-! ### Quilt and Seam -/

/-- Meters and delay taps (R102, R111 to R113): METER_PEAK_READ, DLY_APPLY, DLY_DELAY_WRITE, DLY_XF_END. Writes of
stitch records (R116, R117, R119, R136): DIRECT_STITCH_WRITE, DIRECT_WRITE_PAIRED_APPLY, BASTE_WRITE. -/
def Obligations.MetersTapsAndStitches : Prop :=
  -- a read of a peak answers it and restarts it
  ((∀ (m : Fin 1024) s, Gives (.meterPeakRead m) s fun t => t.out.busData = s.reg (R.QUILT_METER_PEAK m) ∧
     t.rd (R.QUILT_METER_PEAK m) = 0 ∧ RegsBut [R.QUILT_METER_PEAK m] s t ∧
     t = { s with regs := t.regs, out := { s.out with busData := s.reg (R.QUILT_METER_PEAK m), busErr := false } }) ∧
   -- a group that fits and whose tap no bus names is accepted for the next block start
   (∀ (t : Fin 4096) s, 8 ≤ F.QUILT_DLY_RLEN_RLEN.of (s.sh (R.QUILT_DLY_RLEN t)) →
     4096 * s.sh (R.QUILT_DLY_BASE t) + 4 * F.QUILT_DLY_RLEN_RLEN.of (s.sh (R.QUILT_DLY_RLEN t)) ≤ s.dramUsable →
     (∀ b ∈ s.quilt.live.used, (s.quilt.live.bus b).dlyEn = true → (s.quilt.live.bus b).dlytap ≠ t.val) →
     exec (.dlyApply t) s = .next (s.setTap t { s.tap t with
       apply := some (s.shadowOf (R.QUILT_DLY_BASE t), s.shadowOf (R.QUILT_DLY_RLEN t)) })) ∧
   -- any other is refused and raised, and the tap stays as it was
   (∀ (t : Fin 4096) s, (s.tap t).apply = none → F.QUILT_DLY_RLEN_RLEN.of (s.sh (R.QUILT_DLY_RLEN t)) < 8 ∨
       s.dramUsable < 4096 * s.sh (R.QUILT_DLY_BASE t) + 4 * F.QUILT_DLY_RLEN_RLEN.of (s.sh (R.QUILT_DLY_RLEN t)) →
     exec (.dlyApply t) s = .next (((s.reloadShadows [R.QUILT_DLY_BASE t, R.QUILT_DLY_RLEN t] []).flag R.QUILT_FLAGS
       F.QUILT_FLAGS_APPLY_ERR).raise FS.DLY_CFG_ERR t 0)) ∧
   -- a delay within the region acts at the next block start, or is held during a crossfade
   (∀ (t : Fin 4096) (v : Word) s, 8 ≤ s.rd (R.QUILT_DLY_RLEN t) →
     v.toNat % 2 ^ 18 ≤ min 240000 (s.rd (R.QUILT_DLY_RLEN t) - 8) → ∃ u : State,
       exec (.dlyDelayWrite t v) s = .next (State.ccuConfigChange s (u.syncTap t) (R.QUILT_DLY_DELAY t)) ∧
       u = (s.wrN (R.QUILT_DLY_DELAY t) (v.toNat % 2 ^ 18)).setTap t
         (if (s.tap t).xfLen = 0 then { s.tap t with next := some (v.toNat % 2 ^ 18) }
          else { s.tap t with held := some (v.toNat % 2 ^ 18) })) ∧
   (∀ (t : Fin 4096) (v : Word) s, s.rd (R.QUILT_DLY_RLEN t) < 8 ∨
       min 240000 (s.rd (R.QUILT_DLY_RLEN t) - 8) < v.toNat % 2 ^ 18 →
     exec (.dlyDelayWrite t v) s = .next ((s.flag R.QUILT_FLAGS F.QUILT_FLAGS_DLY_ERR).raise FS.DLY_CFG_ERR t 0)) ∧
   -- the end of a crossfade: a held delay starts its own
   (∀ (t : Fin 4096) s (u : State), (s.tap t).xfLen ≠ 0 → (s.tap t).xfAt + (s.tap t).xfLen ≤ s.msc →
     u = (s.setTap t { s.tap t with xfLen := 0, held := none }).syncTap t →
     ((s.tap t).held = none → exec (.dlyXfEnd t) s = .next u) ∧
     (∀ d, (s.tap t).held = some d → exec (.dlyXfEnd t) s = .next (u.tapMove t u.msc d))) ∧
   (∀ (t : Fin 4096) s, (s.tap t).xfLen = 0 ∨ s.msc < (s.tap t).xfAt + (s.tap t).xfLen → exec (.dlyXfEnd t) s = .next s)) ∧
  -- a whole record that no reason of R117 refuses is applied at once, in a paired engine at the second block start
  ((∀ (tile : Fin 16) (slot : Fin 65536) v s, s.dwrReason (65536 * tile + slot) v = 0 →
     (s.paired = false → exec (.directStitchWrite tile slot v 255#8) s =
       .next ((s.dropHold (65536 * tile + slot)).dwrApply (65536 * tile + slot) v)) ∧
     (s.paired = true → exec (.directStitchWrite tile slot v 255#8) s = .next { s with quilt := { s.quilt with
       hold := s.quilt.hold.filter (fun e => e.1 ≠ tile), paired := s.quilt.paired ++
         [⟨65536 * tile + slot, v, 8 * (s.msc / 8) + 16⟩] } })) ∧
   -- one that a reason refuses is refused with the lowest reason
   (∀ (tile : Fin 16) (slot : Fin 65536) v s, s.dwrReason (65536 * tile + slot) v ≠ 0 →
     exec (.directStitchWrite tile slot v 255#8) s =
       .next (s.dwrRefuse (65536 * tile + slot) (s.dwrReason (65536 * tile + slot) v))) ∧
   -- the reasons in their order
   (∀ (s : State) key w, (s.bstate = 4 → s.dwrReason key w = 1) ∧
     (s.bstate ≠ 4 → (stitchOf (s.quilt.live.slot key)).lifesafe = true → s.dwrReason key w = 2) ∧
     (s.bstate ≠ 4 → (stitchOf (s.quilt.live.slot key)).lifesafe = false → pairOf (s.quilt.live.slot key) ≠ pairOf w →
       s.dwrReason key w = 3) ∧
     (s.bstate ≠ 4 → (stitchOf (s.quilt.live.slot key)).lifesafe = false → pairOf (s.quilt.live.slot key) = pairOf w →
       s.dwrReason key w = if s.quilt.live.inList key = true then 0 else 4)) ∧
   -- a refused write shows its reason, tile and slot, is counted, flagged and raised
   (∀ (s u : State) key r,
     u = (((s.wrN R.QUILT_DWR_STAT (r * 2 ^ 28 + key / 65536 * 2 ^ 16 + key % 65536)).count R.QUILT_DWR_REJ_CNT).flag
       R.QUILT_FLAGS F.QUILT_FLAGS_DWR_REJ).raise FS.QUILT_DWR_REJECT (key / 65536) r →
     s.dwrRefuse key r = if (stitchOf (u.quilt.live.slot key)).lifesafe = true then
       (u.flag R.QUILT_FLAGS F.QUILT_FLAGS_LS_VIOL).raise FS.LIFESAFE_VIOL (key / 65536) 0 else u) ∧
   -- the low word alone waits in its tile; a write of no byte does nothing
   (∀ (tile : Fin 16) (slot : Fin 65536) v s, exec (.directStitchWrite tile slot v 15#8) s = .next { s with
       quilt := { s.quilt with hold := (tile.val, BitVec.ofNat 32 v.toNat) :: s.quilt.hold.filter (fun e => e.1 ≠ tile) } }) ∧
   (∀ (tile : Fin 16) (slot : Fin 65536) v s, exec (.directStitchWrite tile slot v 0#8) s = .next s) ∧
   -- the waiting writes of a paired engine act at their block start
   (∀ s w, s.quilt.paired = [w] → w.due ≤ s.msc → exec .directWritePairedApply s =
     .next (({ s with quilt := { s.quilt with paired := [] } } : State).dwrAct w.key w.word).1) ∧
   (∀ s, (∀ w ∈ s.quilt.paired, s.msc < w.due) → exec .directWritePairedApply s = .next s) ∧
   -- BASTE takes writes in OPEN and CHECKED only, and a write leaves LIVE as it is
   (∀ w v (en : BitVec 8) s, s.basteOpen = true → Gives (.basteWrite w v en) s fun t => t = s.putBaste w v.toNat en.toNat ∧
     t.quilt.live = s.quilt.live ∧ t.mem = s.mem ∧ RegsBut [R.SEAM_STATUS] s t ∧
     (∀ tile slot, w = .slot tile slot → t.quilt.baste.slot (65536 * tile + slot) =
       BitVec.ofNat 64 (mergeBytes 8 (s.quilt.baste.slot (65536 * tile + slot)).toNat v.toNat en.toNat))) ∧
   (∀ w v (en : BitVec 8) s, s.basteOpen = false → exec (.basteWrite w v en) s =
     .next ((s.count R.SEAM_BUSY_CNT).flag R.SEAM_FLAGS F.SEAM_FLAGS_BUSY_WR)))

/-- A direct write that is applied (R118): the record and the current gain of its slot, at once and without a ramp, and no
other record. -/
def Obligations.DirectWriteEffect : Prop :=
  ∀ (s : State) key w, (s.dwrApply key w).quilt.live.slot key = w ∧
    (s.dwrApply key w).quilt.live.gain key = (stitchOf w).target ∧
    (∀ k, k ≠ key → (s.dwrApply key w).quilt.live.slot k = s.quilt.live.slot k ∧
      (s.dwrApply key w).quilt.live.gain k = s.quilt.live.gain k) ∧
    (∀ e ∈ (s.dwrApply key w).seam.ramps, e.1 ≠ key) ∧ (s.dwrApply key w).quilt.live.desc = s.quilt.live.desc ∧
    (s.dwrApply key w).quilt.live.dmap = s.quilt.live.dmap ∧ (s.dwrApply key w).quilt.baste = s.quilt.baste ∧
    (s.dwrApply key w).mem = s.mem

/-- The cycle of BASTE (R136, R138, R146 to R149, R153, R159): SEAM_CMD_CHECK, SEAM_CMD_DISCARD, SEAM_CMD_FORCE, CHECK_DONE,
SEW_ARM_CHECK_DONE, UNRAVEL_END, REBASTE_DONE, LIVE_CRC_DONE. -/
def Obligations.BasteCycle : Prop :=
  (∀ (cls : Fin 4) s, s.bstate = 0 ∨ s.bstate = 2 → exec (.seamCmdCheck cls) s =
    .next (({ s with seam := { s.seam with checking := some (cls.val, none, none) } } : State).setBstate 1)) ∧
  (∀ (cls : Fin 4) s, s.bstate ≠ 0 → s.bstate ≠ 2 → exec (.seamCmdCheck cls) s = .next (s.count R.SEAM_BUSY_CNT)) ∧
  -- DISCARD by the state of BASTE; FORCE counts from class 3 only
  (∀ (cls : Fin 4) s, s.bstate = 0 ∨ s.bstate = 2 → ∃ u : State, u = { s with seam := { s.seam with sew := none } } ∧
    exec (.seamCmdDiscard cls) s = .next (u.setBstate 6) ∧ exec (.seamCmdForce cls) s = .next (u.setBstate 6)) ∧
  (∀ (cls : Fin 4) e s, s.bstate = 3 → s.seam.sew = some e →
    exec (.seamCmdDiscard cls) s = .next ((s.cancelEvent e).setBstate 6) ∧
    exec (.seamCmdForce cls) s = .next ((s.cancelEvent e).setBstate 6)) ∧
  (∀ (cls : Fin 4) s, s.bstate = 4 → exec (.seamCmdDiscard cls) s = .next s ∧ exec (.seamCmdForce cls) s = .next s) ∧
  (∀ (cls : Fin 4) s, s.bstate = 1 ∨ s.bstate = 5 ∨ s.bstate = 6 →
    exec (.seamCmdDiscard cls) s = .next (s.count R.SEAM_BUSY_CNT)) ∧
  (∀ (cls : Fin 4) s, s.bstate = 5 → cls ≠ 3 → exec (.seamCmdForce cls) s = .next (s.count R.SEAM_BUSY_CNT)) ∧
  (∀ s, s.bstate = 5 → Raises (.seamCmdForce 3) s FS.SEAM_FORCED 0 0 fun u =>
    u = (({ s with seam := { s.seam with outs := [] } } : State).unravelOver).flag R.SEAM_FLAGS F.SEAM_FLAGS_FORCED) ∧
  -- a check that passes makes BASTE CHECKED and shows its CRC and class; one that fails makes it OPEN
  (∀ cls (s u : State) r, s.seam.checking = some (cls, none, none) → u = { s with seam := { s.seam with checking := none } } →
    u.checkBank u.quilt.baste cls = r →
    (r.1 = 0 → exec (.checkDone []) s = .next ((((u.noteCheck r 0).setBstate 2).wrN R.SEAM_CHK_CRC
      (u.noteCheck r 0).quilt.baste.crc).setFld R.SEAM_STATUS F.SEAM_STATUS_CHK_CLASS cls)) ∧
    (r.1 ≠ 0 → exec (.checkDone []) s = .next ((u.noteCheck r 0).setBstate 0))) ∧
  (∀ s, s.seam.checking = none → exec (.checkDone []) s = .next s) ∧
  -- the check of an armed SEW
  (∀ s e, s.seam.sew = some e → s.seam.arming = true → s.bstate = 4 →
    exec .sewArmCheckDone s = .next (s.armCheck e).1) ∧
  (∀ s, s.seam.sew = none ∨ s.seam.arming = false ∨ s.bstate ≠ 4 → exec .sewArmCheckDone s = .next s) ∧
  -- the unravel ends at E: the copy begins, or under KEEP the bank opens
  (∀ s (u : State), s.bstate = 5 → s.rd64 R.SEAM_UNRAVEL_END_LO R.SEAM_UNRAVEL_END_HI ≤ s.msc →
    u = { s with seam := { s.seam with outs := [] } } →
    (s.seam.keep = false → exec .unravelEnd s = .next (u.setBstate 6)) ∧
    (s.seam.keep = true → exec .unravelEnd s = .next u.basteReturned)) ∧
  (∀ s, s.bstate ≠ 5 ∨ s.msc < s.rd64 R.SEAM_UNRAVEL_END_LO R.SEAM_UNRAVEL_END_HI → exec .unravelEnd s = .next s) ∧
  -- the copy: BASTE is LIVE without its overlay records, and opens
  (∀ s, s.bstate = 6 → ∃ u : State, exec (.rebasteDone []) s = .next u.basteReturned ∧
    u.quilt.baste = { s.quilt.live with slots := s.quilt.overlay.foldl (fun m k => Sparse.erase m k) s.quilt.live.slots,
                                        gains := [] } ∧
    u.quilt.live = s.quilt.live ∧ u.regs = s.regs ∧ u.mem = s.mem ∧ u.seam = s.seam) ∧
  (∀ s, s.bstate ≠ 6 → exec (.rebasteDone []) s = .next s) ∧
  (∀ s : State, s.seam.sew = none → s.basteReturned = s.setBstate 0) ∧
  (∀ s c, s.seam.liveCrc = some c → exec .liveCrcDone s = .next ((({ s with seam := { s.seam with liveCrc := none } } :
    State).wr R.SEAM_LIVE_CRC c).flag R.SEAM_FLAGS F.SEAM_FLAGS_LIVE_CRC_RDY)) ∧
  (∀ s, s.seam.liveCrc = none → exec .liveCrcDone s = .next s)

/-! ### Line drive -/

/-- Short circuits (R380 to R382): OCP_LIMITED_PERIOD, OCP_N_ASSERT, OCP_RETRY. Sensing, calibration and supervision
of a line (R374, R375, R387, R388): SENSE_LOSS, CALIBRATION_PASS, SUPERVISION_RESULT. -/
def Obligations.LineFaultsAndSensing : Prop :=
  -- a limited period is counted and flagged; the 32nd within 96 samples is a trip
  ((∀ (n : Fin 16) s l, s.gates n = .switching → l = s.edge :: (s.lineCh n).limited.filter (fun e => s.edge < e + 96) →
     ∃ u : State, u = ((s.setLineCh n { s.lineCh n with limited := l }).count (R.LINE_CH_OCP_CNT n)).flag R.LINE_FLAGS
       F.LINE_FLAGS_OCP ∧
     (l.length < 32 → exec (.ocpLimitedPeriod n) s = .next u) ∧
     (32 ≤ l.length → exec (.ocpLimitedPeriod n) s = .next (u.lineTrip n))) ∧
   (∀ (n : Fin 16) s, s.gates n ≠ .switching → exec (.ocpLimitedPeriod n) s = .next s) ∧
   -- a trip waits for a retry, or locks when eight retries lie in the window
   (∀ (n : Nat) (s u : State) r, (s.lineCh n).stopAt = none → r = (s.lineCh n).retries.filter (fun e => s.edge < e + 57600000) →
     u = (((((s.setLineCh n { s.lineCh n with
       st := if 8 ≤ r.length then 3 else 2, limited := [], retries := r, waitFrom := s.edge }).lineRetries n).lineSync n).count (R.LINE_CH_TRIP_CNT n)).flag R.LINE_FLAGS
         F.LINE_FLAGS_TRIP).raise FS.LINE_OCP_TRIP n 0 →
     (r.length < 8 → s.lineTrip n = u) ∧
     (8 ≤ r.length → s.lineTrip n = (u.flag R.LINE_FLAGS F.LINE_FLAGS_LOCK).raise FS.LINE_OCP_LOCK n 0)) ∧
   -- an assertion of OCP_N restarts the wait, and 192,000 samples without one end it
   (∀ (n : Fin 16) s, (s.lineCh n).st = 2 → exec (.ocpNAssert n) s =
     .next (s.setLineCh n { s.lineCh n with waitFrom := s.edge })) ∧
   (∀ (n : Fin 16) s, (s.lineCh n).st ≠ 2 → exec (.ocpNAssert n) s = .next s ∧ exec (.ocpRetry n) s = .next s) ∧
   (∀ (n : Fin 16) s, (s.lineCh n).st = 2 → (s.lineCh n).waitFrom + 192000 ≤ s.edge → exec (.ocpRetry n) s =
     .next ((((s.setLineCh n { s.lineCh n with st := 1, since := 0, retries := s.edge :: (s.lineCh n).retries }).countFld
       (R.LINE_CH_RETRY n) F.LINE_CH_RETRY_COUNT).lineRetries n).lineSync n)) ∧
   (∀ (n : Fin 16) s, s.edge < (s.lineCh n).waitFrom + 192000 → exec (.ocpRetry n) s = .next s)) ∧
  -- a loss is flagged and raised once
  ((∀ (n : Fin 16) s, s.bit (R.LINE_CH_STAT n) F.LINE_CH_STAT_VS_LOSS = false →
     Raises (.senseLoss n true) s FS.LINE_SENSE_LOSS n 0 fun u => OnlyRegs [R.LINE_CH_STAT n, R.LINE_FLAGS] s u ∧
       u.rd (R.LINE_CH_STAT n) = F.LINE_CH_STAT_VS_LOSS.put (s.rd (R.LINE_CH_STAT n)) 1) ∧
   (∀ (n : Fin 16) s, s.bit (R.LINE_CH_STAT n) F.LINE_CH_STAT_IS_LOSS = false →
     Raises (.senseLoss n false) s FS.LINE_SENSE_LOSS n 0 fun u => OnlyRegs [R.LINE_CH_STAT n, R.LINE_FLAGS] s u ∧
       u.rd (R.LINE_CH_STAT n) = F.LINE_CH_STAT_IS_LOSS.put (s.rd (R.LINE_CH_STAT n)) 1) ∧
   (∀ (n : Fin 16) s, s.bit (R.LINE_CH_STAT n) F.LINE_CH_STAT_VS_LOSS = true → exec (.senseLoss n true) s = .next s) ∧
   -- corrections of 3 % and less are taken
   (∀ (n : Fin 16) ofs ratio s, -30000 ≤ ofs → ofs ≤ 30000 → -30000 ≤ ratio → ratio ≤ 30000 →
     ∃ u : State, exec (.calibrationPass n ofs ratio) s = .next (u.setLineCh n
       { s.lineCh n with calOfs := ofs, calGain := ratio }) ∧ OnlyRegs [R.LINE_CH_STAT n] s u ∧
       u.rd (R.LINE_CH_STAT n) = F.LINE_CH_STAT_CAL_ERR.put (s.rd (R.LINE_CH_STAT n)) 0) ∧
   -- larger ones are an error, and the corrections stay
   (∀ (n : Fin 16) ofs ratio s, (ofs < -30000 ∨ 30000 < ofs) ∨ ratio < -30000 ∨ 30000 < ratio →
     Raises (.calibrationPass n ofs ratio) s FS.LINE_CAL_ERR n 0 fun u => OnlyRegs [R.LINE_CH_STAT n, R.LINE_FLAGS] s u ∧
       u.rd (R.LINE_CH_STAT n) = F.LINE_CH_STAT_CAL_ERR.put (s.rd (R.LINE_CH_STAT n)) 1) ∧
   -- a measured period shows impedance and earth value and enters the qualification
   (∀ (n : Fin 16) mag ph (ef : BitVec 12) (s u : State), (s.lineCh n).st = 1 → s.holdBits (s.lineCh n) = 0 →
     s.bit (R.LINE_CH_STAT n) F.LINE_CH_STAT_VS_LOSS = false → s.bit (R.LINE_CH_STAT n) F.LINE_CH_STAT_IS_LOSS = false →
     u = s.wrN (R.LINE_CH_ZMAG n) (wrapN 16 ph * 2 ^ 16 + min 65535 mag) →
     u.fld (R.LINE_CH_CFG n) F.LINE_CH_CFG_EF_SEL ≠ 31 → exec (.supervisionResult n (some (mag, ph, ef))) s =
       .next ((u.wrN (R.LINE_CH_EF n) ef.toNat).lineClassify n (min 65535 mag) ef.toNat)) ∧
   (∀ (n : Fin 16) m s, (s.lineCh n).st ≠ 1 ∨ s.holdBits (s.lineCh n) ≠ 0 → exec (.supervisionResult n m) s = .next s) ∧
   (∀ (n : Fin 16) s, exec (.supervisionResult n none) s = .next s))

/-- Commands and configuration of a line channel (R370, R382, R385, R390): LINE_CH_ENABLE, LINE_CH_DISABLE, LINE_CH_CLEAR,
LINE_CTRL_WRITE, LINE_APPLY. -/
def Obligations.LineCommands : Prop :=
  -- ENABLE and DISABLE act at the next block start, at the second one when the engine is paired
  (∀ (n : Fin 16) s, exec (.lineChEnable n) s = .next (s.setLineCh n { s.lineCh n with
      cmds := (s.lineCh n).cmds ++ [⟨true, 8 * (s.msc / 8) + (if s.paired = true then 16 else 8)⟩] }) ∧
    exec (.lineChDisable n) s = .next (s.setLineCh n { s.lineCh n with
      cmds := (s.lineCh n).cmds ++ [⟨false, 8 * (s.msc / 8) + (if s.paired = true then 16 else 8)⟩] })) ∧
  -- CLEAR leaves LOCKED and empties the window
  (∀ (n : Fin 16) s, exec (.lineChClear n) s = .next (((s.setLineCh n { s.lineCh n with
    retries := [], st := if (s.lineCh n).st = 3 then 0 else (s.lineCh n).st }).lineRetries n).lineSync n)) ∧
  -- LINE_CTRL: REGION and QF change only while every channel is DISABLED; a K below 128 keeps K
  (∀ v (s u : State), (∀ e ∈ s.line.chs, e.2.st = 0) → 128 ≤ F.LINE_CTRL_K.of v.toNat →
    u = s.wrN R.LINE_CTRL (F.LINE_CTRL_QF.put (F.LINE_CTRL_REGION.put (F.LINE_CTRL_K.put (s.rd R.LINE_CTRL)
      (F.LINE_CTRL_K.of v.toNat)) (F.LINE_CTRL_REGION.of v.toNat)) (F.LINE_CTRL_QF.of v.toNat)) →
    exec (.lineCtrlWrite v) s = .next (State.ccuConfigChange s u R.LINE_CTRL)) ∧
  (∀ v (s u : State) e, e ∈ s.line.chs → e.2.st ≠ 0 → F.LINE_CTRL_K.of v.toNat < 128 →
    F.LINE_CTRL_REGION.of v.toNat ≠ s.fld R.LINE_CTRL F.LINE_CTRL_REGION →
    u = (s.wrN R.LINE_CTRL (s.rd R.LINE_CTRL)).flag R.LINE_FLAGS F.LINE_FLAGS_CFG_IGN →
    exec (.lineCtrlWrite v) s = .next (State.ccuConfigChange s u R.LINE_CTRL)) ∧
  -- LINE_APPLY shows its code; an accepted group waits for the block start, a refused one is raised
  (∀ (n : Fin 16) (s u : State), u = s.wrN R.LINE_APPLY_RESULT (s.lineCheck n * 2 ^ 24 + n.val) →
    (s.lineCheck n = 0 → exec (.lineApply n) s = .next (u.setLineCh n { u.lineCh n with
      pend := (lineGroup n).map (fun a => (a, u.shadowOf a)) })) ∧
    (s.lineCheck n ≠ 0 → exec (.lineApply n) s = .next (((u.reloadShadows (lineGroup n) (u.lineCh n).pend).flag
      R.LINE_FLAGS F.LINE_FLAGS_APPLY_ERR).raise FS.LINE_APPLY_ERR n 0)))

/-! ### Alarm operation -/

/-- Alarm inputs (R395 to R397, R404): ALARM_INPUT_QUALIFY, ALARM_INPUT_RELEASE, PARTNER_ALARM_MESSAGE,
ALARM_IN_CFG_WRITE. Alarm operation (R404, R405, R409, R410): ALARM_ACTION, CHANGEOVER_REPLACE. -/
def Obligations.AlarmInputsAndOperation : Prop :=
  -- an enabled input that has held for its debounce time qualifies, once
  ((∀ (a : Fin 32) e s, s.bit (R.ALARM_IN_CFG a) F.ALARM_IN_CFG_EN = true →
     s.fld (R.ALARM_IN_CFG a) F.ALARM_IN_CFG_DB ≤ e →
     (s.bitAt R.ALARM_IN_STATE a = false → exec (.alarmInputQualify a e) s = .next (s.inputQualify a s.msc) ∧
       exec (.alarmInputRelease a e) s = .next s) ∧
     (s.bitAt R.ALARM_IN_STATE a = true → exec (.alarmInputRelease a e) s = .next (s.inputRelease a s.msc) ∧
       exec (.alarmInputQualify a e) s = .next s)) ∧
   (∀ (a : Fin 32) e s, s.bit (R.ALARM_IN_CFG a) F.ALARM_IN_CFG_EN = false ∨
       e < s.fld (R.ALARM_IN_CFG a) F.ALARM_IN_CFG_DB →
     exec (.alarmInputQualify a e) s = .next s ∧ exec (.alarmInputRelease a e) s = .next s) ∧
   -- a qualified input shows its state, is latched where LATCH says so, and acts 64 to 71 samples later at a block start
   (∀ (s u : State) a q, u = s.setBitAt R.ALARM_IN_STATE a true → u.mode ≠ .boot →
     (u.bit (R.ALARM_IN_CFG a) F.ALARM_IN_CFG_LATCH = false → s.inputQualify a q = { u with alarm := { u.alarm with
       acts := u.alarm.acts ++ [⟨8 * ((q + 71) / 8), u.activeSet, a, true, none⟩] } }) ∧
     (u.bit (R.ALARM_IN_CFG a) F.ALARM_IN_CFG_LATCH = true →
       s.inputQualify a q = (u.setBitAt R.ALARM_IN_LATCH a true).alarmTrigger q a true none)) ∧
   -- a released input loses its state and its suppression
   (∀ (s : State) a q, s.inputRelease a q =
     ((s.setBitAt R.ALARM_IN_STATE a false).setBitAt R.ALARM_IN_SUPP a false).alarmTrigger q a false none) ∧
   -- a partner's message counts while paired only; for an input that waits here too the earlier action sample holds
   (∀ (a : Fin 32) b q s, s.paired = false → exec (.partnerAlarmMessage a b q) s = .next s) ∧
   (∀ (a : Fin 32) q s, s.paired = true → (∀ e ∈ s.alarm.acts, e.trigger ≠ a.val) →
     s.bit (R.ALARM_IN_CFG a) F.ALARM_IN_CFG_EN = true → s.bitAt R.ALARM_IN_STATE a = false →
     exec (.partnerAlarmMessage a true q) s = .next (s.inputQualify a q)) ∧
   (∀ (a : Fin 32) q e s, s.paired = true → s.alarm.acts = [e] → e.trigger = a.val → e.on = true →
     exec (.partnerAlarmMessage a true q) s = .next { s with alarm := { s.alarm with
       acts := [{ e with due := min e.due (8 * ((q + 71) / 8)) }] } }) ∧
   -- ALARM_IN_CFG takes writes in BOOT and COMMISSION only
   (∀ (a : Fin 32) v s, s.mode = .boot ∨ s.mode = .commission → 8 ≤ F.ALARM_IN_CFG_DB.of v.toNat →
     F.ALARM_IN_CFG_DB.of v.toNat ≤ 2400 → exec (.alarmInCfgWrite a v) s =
       .next (State.ccuConfigChange s (s.wrN (R.ALARM_IN_CFG a) (v.toNat &&& 0xE00FFF0F)) (R.ALARM_IN_CFG a))) ∧
   (∀ (a : Fin 32) v s, s.mode ≠ .boot → s.mode ≠ .commission →
     exec (.alarmInCfgWrite a v) s = .next (s.flag R.ALARM_FLAGS F.ALARM_FLAGS_CFG_IGN))) ∧
  ((∀ s, s.msc % 8 ≠ 0 → exec .alarmAction s = .next s) ∧
   -- one due trigger with an active pattern: entry, in ALARM the pattern in force changes when another governs
   (∀ s (u : State) e, s.msc % 8 = 0 → s.alarm.change = none → s.alarm.acts = [e] → e.due ≤ s.msc → e.undo = none →
     u = { s with alarm := { s.alarm with acts := [] } } → s.mode ≠ .boot →
     (e.active ≠ 0 → s.mode ≠ .alarm → exec .alarmAction s = .next (u.alarmEnter e.active
       (if (e.on && e.trigger < 32) = true then Cause.alarmInput else Cause.alarmCommand) s.msc)) ∧
     (e.active ≠ 0 → s.mode = .alarm → e.trigger ≠ 33 → ∃ v : State,
       v = { u with alarm := { u.alarm with acted := e.active } } ∧
       exec .alarmAction s = .next (if v.governOf e.active ≠ v.alarm.govern then v.changeBegin (v.governOf e.active) s.msc
         else v)) ∧
     -- and exit when none is active
     (e.active = 0 → s.mode = .alarm → exec .alarmAction s =
       .next (({ u with alarm := { u.alarm with acted := 0 } } : State).alarmExit s.msc)) ∧
     (e.active = 0 → s.mode ≠ .alarm → exec .alarmAction s = .next { u with alarm := { u.alarm with acted := 0 } })) ∧
   (∀ s, s.alarm.change = none → (∀ e ∈ s.alarm.acts, s.msc < e.due) → exec .alarmAction s = .next s) ∧
   -- the incoming pattern of a changeover governs from its replacement sample on
   (∀ s at_ g, s.alarm.change = some (at_, g) → at_ ≤ s.msc → exec .changeoverReplace s =
     .next (({ s with alarm := { s.alarm with change := none } } : State).beginGovern g s.msc
       (if s.alarm.ducking.isNone = true then [] else keptPlayers s.alarm.ducking (s.patOf g)))) ∧
   (∀ s at_ g, s.alarm.change = some (at_, g) → s.msc < at_ → exec .changeoverReplace s = .next s) ∧
   (∀ s, s.alarm.change = none → exec .changeoverReplace s = .next s))

/-- Message players, message copies and the fallback image (R414 to R416, R421): PLAYER_MESSAGE_END, PLAYER_GAP_END,
MSG_COPY_DONE, FALLBACK_APPLY. -/
def Obligations.MessagesAndFallback : Prop :=
  -- the last repetition ends a player; another one begins its gap
  (∀ (p : Fin 64) s v rest, (s.player p).voices = v :: rest → (s.player p).st = 1 → v.ends ≤ s.msc →
    v.settled s.msc = true →
    ((s.player p).reps = 1 → exec (.playerMessageEnd p) s = .next (s.setPlayer p {})) ∧
    ((s.player p).reps ≠ 1 → exec (.playerMessageEnd p) s = .next (s.setPlayer p { s.player p with
      st := 2, reps := (s.player p).reps - 1, gapEnd := v.ends + 96 * (s.player p).gap }))) ∧
  (∀ (p : Fin 64) s, (s.player p).st ≠ 1 → exec (.playerMessageEnd p) s = .next s) ∧
  -- after the gap a message plays anew: a 96 kHz one from now, a 48 kHz one without its lead of 16 samples
  (∀ (p : Fin 64) s v rest, (s.player p).voices = v :: rest → (s.player p).st = 2 → (s.player p).gapEnd ≤ s.msc →
    exec (.playerGapEnd p) s = .next (s.setPlayer p { s.player p with st := 1, voices :=
      [{ v with start := if v.msg.hi = true then s.msc else s.msc - 16, xfAt := none, stopAt := none }] })) ∧
  (∀ (p : Fin 64) s, (s.player p).st ≠ 2 → exec (.playerGapEnd p) s = .next s) ∧
  -- a copy that passes lies in DRAM and shows DRAM_OK
  (∀ (k : Fin 512) s m (u : State), s.alarm.toCopy.contains k.val = true →
    u = { s with alarm := { s.alarm with toCopy := s.alarm.toCopy.filter (· ≠ k) } } → u.msgOf k = some m →
    u.msgDram m + m.bytes ≤ u.dramUsable → exec (.msgCopyDone k) s = .next (({ u with
      mem := ((u.mem.nvsBytes (dataBase + m.off) m.bytes).foldl (fun (r : Mem × Nat) b =>
        (r.1.dramPut r.2 b, r.2 + 1)) (u.mem, u.msgDram m)).1 } : State).setBit (R.ALARM_MSG_STAT k)
          F.ALARM_MSG_STAT_DRAM_OK true)) ∧
  (∀ (k : Fin 512) s, s.alarm.toCopy.contains k.val = false → exec (.msgCopyDone k) s = .next s) ∧
  -- on fallback resources the image is applied at the first block start after the fade
  (∀ s f, s.alarm.fade = some f → s.fbRes = true → f + 9 ≤ s.edge → s.msc % 8 = 0 →
    exec .fallbackApply s = .next s.fallbackApply) ∧
  (∀ s, s.alarm.fade = none → exec .fallbackApply s = .next s) ∧
  (∀ s f, s.alarm.fade = some f → s.edge < f + 9 ∨ s.msc % 8 ≠ 0 → exec .fallbackApply s = .next s)

/-! ### Twin operation -/

/-- Joining a pair (R431 to R436): LANES_DETECTED, LINK_TRAINED, LINK_TRAIN_TIMEOUT, LINK_RETRY, CLOCK_LOCK,
MSC_TRANSFER, COPY_COMPLETE, SETTLE_END. Reports, return and link faults (R441 to R443, R449 to R453): HEALTH_REPORT,
REPORT_STALE, REVERT_REQUEST, HANDOVER_REQUEST, LANE_LOSS, BOTH_LANES_LOST, PER_BLOCK_COPY_APPLY. -/
def Obligations.TwinPair : Prop :=
  ((∀ s, s.tstate = 0 → exec .lanesDetected s = .next (s.setTstate 1)) ∧
   (∀ s, s.tstate ≠ 0 → exec .lanesDetected s = .next s) ∧
   -- training is complete while the roles are complementary
   (∀ (l : BitVec 2) s, s.tstate = 1 → l ≠ 0#2 → s.duty = true ∨ s.baseMode = .standby →
     exec (.linkTrained l true) s = .next ((({ s with twin := { s.twin with locked := false } } : State).setTstate 2).setFld
       R.TWIN_STATUS F.TWIN_STATUS_LANES l.toNat)) ∧
   (∀ (l : BitVec 2) s, s.tstate ≠ 1 ∨ l = 0#2 → exec (.linkTrained l true) s = .next s) ∧
   (∀ (l : BitVec 2) s, exec (.linkTrained l false) s = .next s) ∧
   -- 10 ms without training end LINK, and a retry follows after 1 s
   (∀ n s, s.tstate = 1 → (960 ≤ n → exec (.linkTrainTimeout n) s = .next (s.setTstate 0)) ∧
     (n < 960 → exec (.linkTrainTimeout n) s = .next s)) ∧
   (∀ n s, s.tstate = 0 → (96000 ≤ n → exec (.linkRetry n) s = .next (s.setTstate 1)) ∧
     (n < 96000 → exec (.linkRetry n) s = .next s)) ∧
   (∀ s, s.baseMode = .standby → 2 ≤ s.tstate → exec .clockLock s =
     .next { s with twin := { s.twin with locked := true } }) ∧
   (∀ s, s.baseMode ≠ .standby ∨ s.tstate < 2 → exec .clockLock s = .next s) ∧
   -- a locked standby takes MSC and time base, once; an MSC that differs afterwards is a failure of the pair
   (∀ (m : DWord) tb a s, s.tstate = 2 → s.msc % 8 = 0 → s.baseMode = .standby → s.twin.locked = true →
     s.twin.mscRefused = false →
     (s.fld R.SCHED_STATUS F.SCHED_STATUS_STATE = 0 → ∃ u : State, u = { s with msc := m.toNat } ∧
       exec (.mscTransfer m tb a) s = .next (((u.setFld R.SCHED_STATUS F.SCHED_STATUS_STATE 1).setFld R.SCHED_STATUS
         F.SCHED_STATUS_TB tb.val).setTstate 3)) ∧
     (s.fld R.SCHED_STATUS F.SCHED_STATUS_STATE ≠ 0 → s.msc = m.toNat → exec (.mscTransfer m tb a) s =
       .next (s.setTstate 3)) ∧
     (s.fld R.SCHED_STATUS F.SCHED_STATUS_STATE ≠ 0 → s.msc ≠ m.toNat → exec (.mscTransfer m tb a) s =
       .next ((({ s with twin := { s.twin with mscRefused := true } } : State).flag R.TWIN_FLAGS
         F.TWIN_FLAGS_MSC_DIFF).raise FS.TWIN_SYNC_FAIL 0 0))) ∧
   (∀ (m : DWord) tb s, s.tstate = 2 → s.msc % 8 = 0 → s.baseMode ≠ .standby → s.duty = true →
     exec (.mscTransfer m tb true) s = .next (s.setTstate 3) ∧ exec (.mscTransfer m tb false) s = .next s) ∧
   (∀ (m : DWord) tb a s, s.tstate ≠ 2 ∨ s.msc % 8 ≠ 0 → exec (.mscTransfer m tb a) s = .next s) ∧
   (∀ s, s.tstate = 3 → exec .copyComplete s = .next (s.setTstate 4)) ∧
   (∀ s, s.tstate ≠ 3 → exec .copyComplete s = .next s) ∧
   -- SETTLE ends after its time; in a standby the exposure window ends with it
   (∀ n s, s.tstate = 4 → s.fld R.TWIN_CFG F.TWIN_CFG_SETTLE ≤ n → (s.setTstate 5).baseMode ≠ .standby →
     exec (.settleEnd n) s = .next (s.setTstate 5)) ∧
   (∀ n m s, s.tstate = 4 → s.fld R.TWIN_CFG F.TWIN_CFG_SETTLE ≤ n → (s.setTstate 5).baseMode = .standby →
     s.twin.exposeFrom = some m → ∃ u : State, u = (s.setTstate 5).wrN R.TWIN_EXPOSE ((s.msc - m) / 8) ∧
       exec (.settleEnd n) s = .next { u with twin := { u.twin with exposeFrom := none, healthy := !s.twin.bistFail } }) ∧
   (∀ n s, s.tstate ≠ 4 ∨ n < s.fld R.TWIN_CFG F.TWIN_CFG_SETTLE → exec (.settleEnd n) s = .next s)) ∧
  -- a report shows its fields and its age starts anew
  ((∀ (t : Fin 8) c h (n : BitVec 16) s, 2 ≤ s.tstate → ∃ u : State,
     u = (s.wrN R.TWIN_HEALTH (n.toNat + t.val * 2 ^ 16 + (if c = true then 2 ^ 30 else 0) +
       (if h = true then 2 ^ 31 else 0))).wrN R.TWIN_HEALTH_AGE 0 ∧
     exec (.healthReport t c h n) s = .next (({ u with twin := { u.twin with staleRaised := false } } :
       State).followPartner t)) ∧
   (∀ (t : Fin 8) c h (n : BitVec 16) s, s.tstate < 2 → exec (.healthReport t c h n) s = .next s) ∧
   -- the pair state follows a partner that has left PAIRED
   (∀ s : State, s.tstate = 5 → s.followPartner 3 = s.leavePaired.setTstate 3 ∧
     s.followPartner 6 = s.leavePaired.setTstate 6 ∧ s.followPartner 5 = s) ∧
   (∀ s, 17 ≤ s.fld R.TWIN_HEALTH_AGE F.TWIN_HEALTH_AGE_BLOCKS →
     s.fld R.TWIN_HEALTH_AGE F.TWIN_HEALTH_AGE_BLOCKS < 0xFFFF →
     (s.twin.staleRaised = false → Raises .reportStale s FS.TWIN_REPORT_STALE 0 0 fun u =>
       u = { s with twin := { s.twin with staleRaised := true } }) ∧
     (s.twin.staleRaised = true → exec .reportStale s = .next s)) ∧
   (∀ s, s.fld R.TWIN_HEALTH_AGE F.TWIN_HEALTH_AGE_BLOCKS ≤ 16 → exec .reportStale s = .next s) ∧
   -- the healthy standby that the preference names asks for duty after HOLD_BACK
   (∀ n s, s.baseMode = .standby → s.bit R.TWIN_CFG F.TWIN_CFG_REVERT = true →
     s.fld R.TWIN_CFG F.TWIN_CFG_PREFER = (if s.pins.roleB = true then 1 else 0) → s.tstate = 5 → s.twin.healthy = true →
     s.fld R.TWIN_CFG F.TWIN_CFG_HOLD_BACK ≤ n → exec (.revertRequest n) s =
       .next { s with twin := { s.twin with asked := true } }) ∧
   (∀ n s, s.baseMode ≠ .standby ∨ s.twin.healthy = false ∨ n < s.fld R.TWIN_CFG F.TWIN_CFG_HOLD_BACK →
     exec (.revertRequest n) s = .next s) ∧
   -- the duty engine enters a HANDOVER event 9,600 samples ahead
   (∀ s, s.duty = true → s.baseMode = .service → s.tstate = 5 → exec .handoverRequest s =
     .next (s.arrive (eventOf .handover (s.msc + 9600) 255 3 0 0 0 []) 0).1) ∧
   (∀ s, s.duty = false ∨ s.baseMode ≠ .service ∨ s.tstate ≠ 5 → exec .handoverRequest s = .next s) ∧
   -- one of two lanes is lost: the other stays
   (∀ (l : Fin 2) s, s.fld R.TWIN_STATUS F.TWIN_STATUS_LANES = 3 → Raises (.laneLoss l) s FS.TWIN_LANE_LOSS l 0 fun u =>
     OnlyRegs [R.TWIN_STATUS, R.TWIN_FLAGS] s u ∧
     u.rd R.TWIN_STATUS = F.TWIN_STATUS_LANES.put (s.rd R.TWIN_STATUS) (2 - l.val)) ∧
   (∀ (l : Fin 2) s, s.fld R.TWIN_STATUS F.TWIN_STATUS_LANES ≠ 3 → exec (.laneLoss l) s = .next s) ∧
   -- both are lost: the pair is SOLO
   (∀ raw s (v : State), s.tstate ≠ 0 → (s.baseMode ≠ .standby ∨ s.tstate < 2) →
     v = (s.leavePaired.setTstate 0).setFld R.TWIN_STATUS F.TWIN_STATUS_LANES 0 → exec (.bothLanesLost raw) s =
       .next ((({ v with twin := { v.twin with locked := false } } : State).flag R.TWIN_FLAGS
         F.TWIN_FLAGS_LINK_DOWN).raise FS.TWIN_LINK_DOWN 0 0)) ∧
   (∀ raw s, s.tstate = 0 → exec (.bothLanesLost raw) s = .next s) ∧
   -- a standby takes the items of a copy in their order; a word of BASTE leaves LIVE as it is
   (∀ items s (t : State), s.paired = true → s.msc % 8 = 0 → s.baseMode = .standby → t = items.foldl State.takeItem s →
     (∀ i ∈ items, i.late = false) → exec (.perBlockCopyApply items none) s = .next t) ∧
   (∀ k w g s, s.paired = true → s.msc % 8 = 0 → s.baseMode = .standby →
     Gives (.perBlockCopyApply [.slot false k w g] none) s fun t => t.quilt.live = s.quilt.live ∧
       t.quilt.baste.slot k = w ∧ t.twin.unchecked = true ∧ t.regs = s.regs ∧ t.mem = s.mem) ∧
   -- the destination CRC of a block agrees, or does not
   (∀ (s : State) k c, s.twin.destCrcs.find? (fun e => e.1 = k) = some (k, c) →
     s.compareCrc k c = s.count R.TWIN_CHECK_CNT) ∧
   (∀ items crc s, s.paired = false ∨ s.msc % 8 ≠ 0 → exec (.perBlockCopyApply items crc) s = .next s))

/-- Duty and the commands of TWIN_CMD (R428, R429, R431, R444, R445, R456): DUTY_IN_DEASSERT, DUTY_IN_ASSERT, TAKEOVER,
MEDIA_WATCHDOG, TWIN_CMD_RESYNC, TWIN_CMD_RELEASE, TWIN_CMD_SELFTEST, SELFTEST_END. -/
def Obligations.DutyAndTwinCommands : Prop :=
  (∀ s, s.pins.dutyIn = true → exec .dutyInDeassert s = .next (({ s with
    pins := { s.pins with dutyIn := false }, twin := { s.twin with dutyLost := true } } : State).linesSync)) ∧
  (∀ s, s.pins.dutyIn = false → exec .dutyInDeassert s = .next s) ∧
  -- an assertion acts at once; of two engines with duty the one of role B gives it up
  (∀ (s u : State), u = { s with pins := { s.pins with dutyIn := true },
                                 twin := { s.twin with dutyLost := false, byHandover := false } } →
    (s.duty = true → s.pins.roleB = true → exec .dutyInAssert s = .next u.dualDuty.linesSync) ∧
    (s.duty = false ∨ s.pins.roleB = false → exec .dutyInAssert s = .next u.linesSync)) ∧
  (∀ s : State, s.mode = .service → s.dualDuty = ((s.setSys .standby s.retMode false s.fbRes Cause.switchOver).flag
    R.TWIN_FLAGS F.TWIN_FLAGS_DUAL_DUTY).raise FS.TWIN_DUAL_DUTY 0 0) ∧
  -- a standby that has lost DUTY_IN takes duty; so does an engine in FALLBACK
  (∀ raw s, s.pins.dutyIn = false → s.duty = false → s.twin.release = .none →
    (s.baseMode = .standby ∧ s.twin.dutyLost = true) ∨ s.baseMode = .fallback →
    exec (.takeover raw) s = .next (s.takeDuty raw)) ∧
  (∀ raw s, s.pins.dutyIn = true ∨ s.duty = true → exec (.takeover raw) s = .next s) ∧
  -- 31.25 µs without a media clock edge end duty
  (∀ n s, 31250 ≤ n → s.duty = true → exec (.mediaWatchdog n) s =
    .next (s.setSys s.mode s.retMode false s.fbRes Cause.switchOver).linesSync) ∧
  (∀ n s, n < 31250 ∨ s.duty = false → exec (.mediaWatchdog n) s = .next s) ∧
  (∀ s, 3 ≤ s.tstate → s.tstate ≤ 5 → exec .twinCmdResync s = .next (s.leavePaired.setTstate 3)) ∧
  (∀ s, s.tstate < 3 ∨ 5 < s.tstate → exec .twinCmdResync s = .next (s.flag R.TWIN_FLAGS F.TWIN_FLAGS_WR_IGN)) ∧
  (∀ s, s.duty = true → s.partnerReady = true → s.twin.release = .none → exec .twinCmdRelease s =
    .next { s with twin := { s.twin with release := .standby, releaseAt := s.msc + 1 } }) ∧
  (∀ s, s.duty = false ∨ s.partnerReady = false →
    exec .twinCmdRelease s = .next (s.flag R.TWIN_FLAGS F.TWIN_FLAGS_WR_IGN)) ∧
  (∀ s, s.baseMode = .standby → s.tstate = 4 ∨ s.tstate = 5 → exec .twinCmdSelftest s =
    .next s.leavePaired.selftestRuns) ∧
  (∀ s, s.baseMode ≠ .standby ∨ s.tstate < 4 ∨ 5 < s.tstate →
    exec .twinCmdSelftest s = .next (s.flag R.TWIN_FLAGS F.TWIN_FLAGS_WR_IGN)) ∧
  (∀ p s, s.tstate = 6 → s.baseMode = .standby → exec (.selftestEnd p) s =
    .next (({ s with twin := { s.twin with bistFail := !p } } : State).setTstate 3)) ∧
  (∀ p s, s.tstate ≠ 6 → exec (.selftestEnd p) s = .next s)

/-! ### Precision time -/

/-- Time bases (R268 to R272, R276, R290): TB_INC_APPLY, TB_STEP, STEP_APPLY, TIME_BASE_TICK, MAP_CAPTURE. Reads of
the PTP unit (R274, R276, R285): TB_TIME_READ, TB_MAP_READ, TXTS_HEAD_READ. -/
def Obligations.TimeBasesAndReads : Prop :=
  -- an increment of 0, or within 1.998 ns to 2.002 ns, waits for the next tick; another one is refused
  ((∀ (n : Fin 8) s v, v = (s.shadowOf (R.PTP_TB_INC_LO n)).toNat + (s.shadowOf (R.PTP_TB_INC_HI n)).toNat % 256 * 2 ^ 32 →
     (v = 0 ∨ (1998 * 2 ^ 32 ≤ 1000 * v ∧ 1000 * v ≤ 2002 * 2 ^ 32) → exec (.tbIncApply n) s =
       .next (s.setTb n { s.tb n with inc := some (s.shadowOf (R.PTP_TB_INC_LO n), s.shadowOf (R.PTP_TB_INC_HI n)) })) ∧
     (v ≠ 0 → 1000 * v < 1998 * 2 ^ 32 ∨ 2002 * 2 ^ 32 < 1000 * v → (s.tb n).inc = none → exec (.tbIncApply n) s =
       .next (((s.dropShadows [R.PTP_TB_INC_LO n, R.PTP_TB_INC_HI n]).flag R.PTP_FLAGS F.PTP_FLAGS_APPLY_ERR).raise
         FS.PTP_APPLY_ERR 0 0))) ∧
   -- every time base ticks, in order; one without a pending increment adds the one in force, twenty times on XIN
   (∀ s, s.bit R.PTP_STATUS F.PTP_STATUS_TICK_DEG = false → exec .timeBaseTick s =
     .next ((List.range 8).foldl State.tickTb s)) ∧
   (∀ (s : State) n, (s.tb n).inc = none → s.tickTb n = s.setTb n { s.tb n with
     inc := none, ticked := (s.tb n).step.isSome,
     time := ((s.tb n).time + (if s.bit R.PTP_STATUS F.PTP_STATUS_TICK_DEG = true then 20 else 1) * s.tbInc n) %
       (2 ^ 48 * (1000000000 * 2 ^ 32)) }) ∧
   -- a step is captured, one at a time
   (∀ (n : Fin 8) s, (s.tb n).step = none → exec (.tbStep n) s = .next ((s.setTb n { s.tb n with
     step := some ((s.reg (R.PTP_TB_STEP_SEC n)).toInt, (s.reg (R.PTP_TB_STEP_NS n)).toInt), ticked := false }).setBit
       (R.PTP_TB_STAT n) F.PTP_TB_STAT_STEP_PEND true)) ∧
   (∀ (n : Fin 8) v s, (s.tb n).step = some v → exec (.tbStep n) s = .next (s.flag R.PTP_FLAGS F.PTP_FLAGS_STEP_BUSY)) ∧
   -- and acts after the tick: the time moves, the epoch and the count advance
   (∀ (n : Fin 8) sec ns (s u v : State) now, (s.tb n).step = some (sec, ns) → (s.tb n).ticked = true →
     u = s.setBit (R.PTP_TB_STAT n) F.PTP_TB_STAT_STEP_PEND false →
     now = ((s.tb n).time : Int) + (sec * 1000000000 + ns) * (2 ^ 32 : Nat) → -999999999 ≤ ns → ns ≤ 999999999 →
     0 ≤ now → now < (2 ^ 48 * (1000000000 * 2 ^ 32) : Nat) →
     v = u.setTb n { s.tb n with step := none, ticked := false, time := now.toNat } →
     (∀ w : State, w = ((v.setFld (R.PTP_TB_STAT n) F.PTP_TB_STAT_EPOCH (v.epoch n + 1)).count
       (R.PTP_TB_STEP_CNT n)).flag R.PTP_FLAGS F.PTP_FLAGS_STEP_DONE → w.anchoredTb ≠ some n.val →
       exec (.stepApply n) s = .next (w.raise FS.PTP_STEP 0 0))) ∧
   -- a step out of range is refused
   (∀ (n : Fin 8) sec ns (s u : State), (s.tb n).step = some (sec, ns) → (s.tb n).ticked = true →
     u = s.setBit (R.PTP_TB_STAT n) F.PTP_TB_STAT_STEP_PEND false → 999999999 < ns ∨ ns < -999999999 →
     exec (.stepApply n) s = .next (((u.setTb n { s.tb n with step := none, ticked := false }).flag R.PTP_FLAGS
       F.PTP_FLAGS_STEP_ERR).raise FS.PTP_STEP_ERR 0 0)) ∧
   (∀ (n : Fin 8) s, (s.tb n).step = none ∨ (s.tb n).ticked = false → exec (.stepApply n) s = .next s) ∧
   -- every 96 samples the map offsets are captured, and the tracking flows realign
   (∀ (s u v : State), s.msc % 96 = 0 → u = (List.range 8).foldl State.captureMap s →
     v = u.net.rx.foldl (fun t e => t.realignRx e.1) u →
     exec .mapCapture s = .next (v.net.tx.foldl (fun t e => t.realignTx e.1) v)) ∧
   (∀ s, s.msc % 96 ≠ 0 → exec .mapCapture s = .next s) ∧
   -- a capture sets the map offset of every time base, within 1 ns of the exact difference
   (∀ (s : State) n, ∃ d : Int, -65536 ≤ d ∧ d ≤ 65536 ∧ ((s.captureMap n).tb n).map =
     rdiv ((s.msc * 1000000000 * 65536 : Nat) : Int) 96000 - (((s.tb n).time / 2 ^ 16 : Nat) : Int) + d)) ∧
  -- a read of nanoseconds latches the rest of the same tick
  ((∀ (n : Fin 8) s, Gives (.tbTimeRead n) s fun t =>
     t.out.busData = BitVec.ofNat 32 ((s.tb n).time % (1000000000 * 2 ^ 32) / 2 ^ 32) ∧
     (t.tb n).timeLatch = some (s.tb n).time ∧ (t.tb n).time = (s.tb n).time ∧ t.regs = s.regs ∧ t.mem = s.mem) ∧
   (∀ (n : Fin 8) s, Gives (.tbMapRead n) s fun t => t.out.busData = BitVec.ofInt 32 ((s.tb n).map / 65536) ∧
     (t.tb n).mapLatch = some (s.tb n).map ∧ (t.tb n).map = (s.tb n).map ∧ t.regs = s.regs ∧ t.mem = s.mem) ∧
   -- a read of the head of a port's queue takes the oldest entry and loads its time
   (∀ (p : Fin 4) s e q, s.txQueue p = e :: q → Gives (.txtsHeadRead p) s fun t =>
     t.out.busData = BitVec.ofNat 32 (2 ^ 31 + (if e.abort = true then 2 ^ 30 else 0) + e.tb * 2 ^ 24 + e.epoch * 2 ^ 20 +
       e.id) ∧ t.txQueue p = q ∧
     t.rd (R.PTP_TXTS_NS p) = e.ns % 2 ^ 32 ∧ t.rd (R.PTP_TXTS_SEC_LO p) = e.sec % 2 ^ 32 ∧
     RegsBut [R.PTP_TXTS_STAT p, R.PTP_TXTS_NS p, R.PTP_TXTS_SEC_LO p, R.PTP_TXTS_SEC_HI p] s t ∧ t.mem = s.mem) ∧
   (∀ (p : Fin 4) s, s.txQueue p = [] → exec (.txtsHeadRead p) s =
     .next { s with out := { s.out with busData := 0#32, busErr := false } }) ∧
   -- an entry joins a queue with room; on a full one it is dropped, counted, and raised the first time
   (∀ (s : State) p e, (s.txQueue p).length < 64 → s.pushStamp p e = s.setTxQueue p (s.txQueue p ++ [e])) ∧
   (∀ (s : State) p e, 64 ≤ (s.txQueue p).length → s.bitAt R.PTP_FLAGS (8 + p) = true →
     s.pushStamp p e = (s.count (R.PTP_TXTS_DROP_CNT p)).setBitAt R.PTP_FLAGS (8 + p) true))

/-! ### The Stream Engine -/

/-- Links and flow groups (R284, R296, R303, R316): LINK_UP, LINK_DOWN, LEG_DOWN, NET_APPLY. Frames and packets (R284,
R297, R298, R301, R302, R312, R317): FRAME_RECEIVE, FRAME_TRANSMIT, TX_PACKET_READY, TX_PACKET_DISCARD. -/
def Obligations.NetworkStreams : Prop :=
  -- 10 ms of block lock on an enabled port bring its link up
  ((∀ (p : Fin 4) ms s, 10 ≤ ms → s.fld (R.NET_PORT_CFG p) F.NET_PORT_CFG_MODE ≠ 0 →
     s.bit R.BELL_STATUS F.BELL_STATUS_NET_LOCK = true → Gives (.linkUp p ms) s fun t =>
       OnlyRegs [R.NET_PORT_STAT p] s t ∧ t.rd (R.NET_PORT_STAT p) = F.NET_PORT_STAT_LINK.put
         (F.NET_PORT_STAT_BLOCK_LOCK.put (s.rd (R.NET_PORT_STAT p)) 1) 1) ∧
   (∀ (p : Fin 4) ms s, ms < 10 ∨ s.fld (R.NET_PORT_CFG p) F.NET_PORT_CFG_MODE = 0 → exec (.linkUp p ms) s = .next s) ∧
   -- a link that goes down is raised once, after the entries of the frames that are discarded
   (∀ (p : Fin 4) req s (u : State), u = req.foldl (fun (t : State) (r : Fin 8 × BitVec 16) =>
       t.abortStamp p r.1.val r.2.toNat) ((s.setBit (R.NET_PORT_STAT p) F.NET_PORT_STAT_BLOCK_LOCK false).setBit
         (R.NET_PORT_STAT p) F.NET_PORT_STAT_LINK false) →
     (s.bit (R.NET_PORT_STAT p) F.NET_PORT_STAT_LINK = true →
       exec (.linkDown p req) s = .next ((u.setBitAt R.NET_FLAGS (9 + p) true).raise FS.NET_LINK_DOWN p 0)) ∧
     (s.bit (R.NET_PORT_STAT p) F.NET_PORT_STAT_LINK = false → exec (.linkDown p req) s = .next u)) ∧
   -- a leg of a running flow is down after 4 packet times; with the other leg up that is raised
   (∀ (f : Fin 1024) s (u : State), (s.rxFlow f).st = 3 → s.bit (R.NET_RXF_STAT f) F.NET_RXF_STAT_LEG_A_UP = true →
     4 * (s.rxFmt f).packetTime ≤ s.msc - (s.rxFlow f).legA →
     u = (s.setBit (R.NET_RXF_STAT f) F.NET_RXF_STAT_LEG_A_UP false).flag R.NET_FLAGS F.NET_FLAGS_LEG_DOWN →
     exec (.legDown f false) s = .next (if u.bit (R.NET_RXF_STAT f) F.NET_RXF_STAT_LEG_B_UP = true then
       u.raise FS.NET_LEG_DOWN f 0 else u)) ∧
   (∀ (f : Fin 1024) s, s.msc - (s.rxFlow f).legB < 4 * (s.rxFmt f).packetTime → exec (.legDown f true) s = .next s) ∧
   -- NET_APPLY shows its code; an accepted group is in force at once, and a flow with CH = 0 is OFF
   (∀ (f : Fin 1024) s (u v : State), s.rxCheck f = 0 → u = s.wrN R.NET_APPLY_RESULT f → v = u.takeConfig (rxGroup f) →
     exec (.netApply false f) s = .next (v.putRx f { v.rxFlow f with st := if (v.rxFmt f).ch = 0 then 0 else 1 })) ∧
   (∀ (f : Fin 1024) s (u v : State), s.txCheck f = 0 → u = s.wrN R.NET_APPLY_RESULT (2 ^ 23 + f) →
     v = u.takeConfig (txGroup f) → exec (.netApply true f) s =
       .next (v.putTx f { v.txFlow f with st := if (v.txFmt f).ch = 0 then 0 else 1 }).syncLoads) ∧
   (∀ (f : Fin 1024) s, s.rxCheck f ≠ 0 → exec (.netApply false f) s =
     .next ((((s.wrN R.NET_APPLY_RESULT (s.rxCheck f * 2 ^ 24 + f)).dropShadows (rxGroup f)).flag R.NET_FLAGS
       F.NET_FLAGS_APPLY_ERR).raise FS.NET_APPLY_ERR f 0)) ∧
   (∀ (f : Fin 1024) s, s.txCheck f ≠ 0 → exec (.netApply true f) s =
     .next ((((s.wrN R.NET_APPLY_RESULT (s.txCheck f * 2 ^ 24 + 2 ^ 23 + f)).dropShadows (txGroup f)).flag R.NET_FLAGS
       F.NET_FLAGS_APPLY_ERR).raise FS.NET_APPLY_ERR (65536 + f) 0))) ∧
  -- a frame without a link, or with two tags, is lost; a bad one is counted
  ((∀ (p : Fin 4) fr sub full s, s.bit (R.NET_PORT_STAT p) F.NET_PORT_STAT_LINK = false ∨ 1 < fr.tags →
     exec (.frameReceive p fr sub full) s = .next s) ∧
   (∀ (p : Fin 4) fr sub full s, s.bit (R.NET_PORT_STAT p) F.NET_PORT_STAT_LINK = true → fr.tags ≤ 1 →
     fr.fcsOk = false ∨ fr.fragment = true ∨ fr.badSum = true ∨ 9022 < fr.size →
     exec (.frameReceive p fr sub full) s = .next (s.count (R.NET_PORT_RXERR_CNT p))) ∧
   -- a good one goes to the flow that matches, or to Shepherd
   (∀ (p : Fin 4) fr sub full s, s.bit (R.NET_PORT_STAT p) F.NET_PORT_STAT_LINK = true → fr.tags ≤ 1 → fr.size ≤ 1522 →
     fr.fcsOk = true → fr.fragment = false → fr.badSum = false →
     (∀ a b c r f l, fr.udp = some (a, b, c, r) → s.streamMatch p a b c = some (f, l) →
       exec (.frameReceive p fr sub full) s = .next (s.streamPacket p f l r)) ∧
     (∀ a b c r, fr.udp = some (a, b, c, r) → s.streamMatch p a b c = none →
       exec (.frameReceive p fr sub full) s = .next (s.hostFrame p fr sub full)) ∧
     (fr.udp = none → exec (.frameReceive p fr sub full) s = .next (s.hostFrame p fr sub full))) ∧
   -- a frame for a full queue is dropped and counted; another one is queued with its stamp
   (∀ (s : State) p fr sub, s.hostFrame p fr sub true = s.count (R.NET_PORT_HOST_DROP_CNT p)) ∧
   (∀ (s : State) p fr sub tb, s.boot.fwRuns = false → tb = s.rxTb p fr.domain → s.hostFrame p fr sub false =
     { s with net := { s.net with host := s.net.host ++ [⟨p, tb, s.epoch tb,
       (s.stamp tb sub (s.portAdj (R.PTP_PORT_RX_ADJ p))).1, (s.stamp tb sub (s.portAdj (R.PTP_PORT_RX_ADJ p))).2⟩] } }) ∧
   -- a packet with padding, or against the flow's format, is counted; the second is raised
   (∀ (s : State) p f l r, r.padding = true → s.streamPacket p f l r = s.count (R.NET_PORT_RXERR_CNT p)) ∧
   (∀ (s : State) p f l r, r.padding = false → s.formatBad f r = true → s.streamPacket p f l r =
     ((s.count (R.NET_PORT_RXERR_CNT p)).flag R.NET_FLAGS F.NET_FLAGS_FORMAT).raise FS.NET_RX_FORMAT f 0) ∧
   -- a frame with a requested timestamp pushes its entry as it leaves
   (∀ (p : Fin 4) tb id sub s, s.bit (R.NET_PORT_STAT p) F.NET_PORT_STAT_LINK = true →
     exec (.frameTransmit p (.host (some (tb, id))) sub) s = .next (s.pushStamp p ⟨id, tb, s.epoch tb, false,
       (s.stamp tb sub (s.portAdj (R.PTP_PORT_TX_ADJ p))).1, (s.stamp tb sub (s.portAdj (R.PTP_PORT_TX_ADJ p))).2⟩)) ∧
   (∀ (p : Fin 4) f l sub s, s.bit (R.NET_PORT_STAT p) F.NET_PORT_STAT_LINK = true → (s.txLeg f l).1 = p.val →
     exec (.frameTransmit p (.stream f l) sub) s = .next (s.sendStream f l)) ∧
   (∀ (p : Fin 4) w sub s, s.bit (R.NET_PORT_STAT p) F.NET_PORT_STAT_LINK = false →
     exec (.frameTransmit p w sub) s = .next s) ∧
   -- the oldest formed packet becomes ready at its edge, with the copies that can be sent; the others are counted
   (∀ (f : Fin 1024) s p rest, (s.txFlow f).formed = p :: rest → p.readyAt ≤ s.msc → s.drives = true →
     s.releasing = false → p.legA = true → p.legB = false →
     (s.legBlocked f false = false → exec (.txPacketReady f) s = .next (((s.putTx f { s.txFlow f with
       formed := rest, ready := (s.txFlow f).ready ++ [{ p with legA := true, legB := false }] }).countBy
         (R.NET_TXF_DROP_CNT f) 0).txSettle f)) ∧
     (s.legBlocked f false = true → exec (.txPacketReady f) s = .next (((s.putTx f { s.txFlow f with
       formed := rest }).countBy (R.NET_TXF_DROP_CNT f) 1).txSettle f))) ∧
   -- an engine that does not drive its outputs sends none
   (∀ (f : Fin 1024) s p rest, (s.txFlow f).formed = p :: rest → p.readyAt ≤ s.msc → s.drives = false →
     exec (.txPacketReady f) s = .next ((s.putTx f { s.txFlow f with formed := rest }).txSettle f)) ∧
   (∀ (f : Fin 1024) s, (s.txFlow f).formed = [] → exec (.txPacketReady f) s = .next s) ∧
   -- a ready packet that could not leave within its packet time is discarded
   (∀ (f : Fin 1024) s p rest, (s.txFlow f).ready = p :: rest → p.readyAt + (s.txFmt f).packetTime ≤ s.msc →
     exec (.txPacketDiscard f) s = .next (((((s.putTx f { s.txFlow f with ready := rest }).txSettle f).count
       (R.NET_TXF_DROP_CNT f)).flag R.NET_FLAGS F.NET_FLAGS_TX_LATE).raise FS.NET_TX_LATE f 0)) ∧
   (∀ (f : Fin 1024) s, (s.txFlow f).ready = [] → exec (.txPacketDiscard f) s = .next s))

/-! ### Local ports -/

/-- Groups and frames of local ports (R330 to R333, R345, R346): PORT_APPLY, PORT_GROUP_TAKE_EFFECT, LOCAL_FRAME_RECEIVE,
RATE_MEASURE. -/
def Obligations.PortGroupsAndFrames : Prop :=
  -- a refused group shows its code and slot and is raised
  (∀ q s, (s.portCheck q).1 ≠ 0 → exec (.portApply q) s = .next ((((s.wrN R.PORT_APPLY_RESULT ((s.portCheck q).1 * 2 ^ 24 +
    (s.portCheck q).2 * 2 ^ 16 + q.kind * 2 ^ 8 + q.index)).reloadShadows (q.mainGroup ++ q.csGroup)
      ((s.lport q).pend ++ (s.lport q).csPend)).flag R.PORT_FLAGS F.PORT_FLAGS_APPLY_ERR).raise FS.PORT_APPLY_ERR q.unit 0)) ∧
  -- an accepted transmitter waits for its frame boundary; one with EN = 0 is OFF at once
  (∀ (k : Fin 32) s (u v : State), (s.portCheck (.atx k)).1 = 0 →
    u = s.wrN R.PORT_APPLY_RESULT ((s.portCheck (.atx k)).1 * 2 ^ 24 + (s.portCheck (.atx k)).2 * 2 ^ 16 +
      (LocalPort.atx k).kind * 2 ^ 8 + (LocalPort.atx k).index) →
    (((LocalPort.atx k).cfg (u.sh (LocalPort.atx k).cfgAddr)).en = false →
      v = ((u.takeConfig ((LocalPort.atx k).mainGroup ++ (LocalPort.atx k).csGroup)).putPort (.atx k) {}).wrN
        (R.PORT_ATX_STAT k) 0 →
      exec (.portApply (.atx k)) s = .next ((v.setFld R.PORT_STATUS F.PORT_STATUS_ASRC_USED
        (v.asrcUsed none)).directOverride [])) ∧
    (((LocalPort.atx k).cfg (u.sh (LocalPort.atx k).cfgAddr)).en = true →
      v = u.putPort (.atx k) { s.lport (.atx k) with
        st := if (s.lport (.atx k)).st = 0 then 1 else (s.lport (.atx k)).st,
        pend := (LocalPort.atx k).mainGroup.map (fun a => (a, u.shadowOf a)),
        csPend := (LocalPort.atx k).csGroup.map (fun a => (a, u.shadowOf a)) } →
      exec (.portApply (.atx k)) s = .next ((v.setFld R.PORT_STATUS F.PORT_STATUS_ASRC_USED
        (v.asrcUsed none)).directOverride []))) ∧
  -- a waiting group takes effect at the boundary of its port
  (∀ (k : Fin 32) s, (s.lport (.atx k)).st ≠ 0 → (s.lport (.atx k)).pend ≠ [] →
    exec (.portGroupTakeEffect (.atx k) false) s = .next ((s.activateConfig (s.lport (.atx k)).pend).putPort (.atx k)
      { s.lport (.atx k) with pend := [] })) ∧
  (∀ q s, (s.lport q).st ≠ 0 → (s.lport q).csPend ≠ [] → s.blockFrame q = true →
    exec (.portGroupTakeEffect q true) s = .next ((s.activateConfig (s.lport q).csPend).putPort q
      { s.lport q with csPend := [] })) ∧
  (∀ q b s, (s.lport q).st = 0 → exec (.portGroupTakeEffect q b) s = .next s) ∧
  -- a frame of a synchronous TDM port enters every slot in use at the position that its edge gives
  (∀ (p : Fin 16) ts ws s c (x : LPort) a, c = s.portCfg (.tdm p) → x = s.lport (.tdm p) → x.st ≠ 0 →
    s.portLive (.tdm p) = true → c.asrc = false → a = assign x.anchor c.hi ts → a.2.2 = false →
    exec (.localFrameReceive (.tdm p) ts ws) s = .next (s.setPort (.tdm p) ((List.range (min 32 c.slots)).foldl
      (fun (y : LPort) i => match ws[i]? with
        | some w => y.setRxCh i ((y.rxCh i).enter (a.1 + (if c.hi = true then 16 else 32))
          (some (fromExternal c.bits (Machine.sext c.bits w.bits.toNat))) false false)
        | none => y) { x with anchor := some a.2.1 }))) ∧
  -- a port that is OFF, or has no clock, takes no frame and measures no rate; a transmitter never does
  (∀ q ts ws rate s, (s.lport q).st = 0 ∨ s.portLive q = false →
    exec (.localFrameReceive q ts ws) s = .next s ∧ exec (.rateMeasure q rate) s = .next s) ∧
  (∀ (k : Fin 32) ts ws rate s, exec (.localFrameReceive (.atx k) ts ws) s = .next s ∧
    exec (.rateMeasure (.atx k) rate) s = .next s) ∧
  -- the rate of a receiver: on the synchronous path 1,000 ppm are its limit
  (∀ (r : Fin 32) (rate : Nat) s (u : State), (s.lport (.arx r)).st ≠ 0 → s.portLive (.arx r) = true →
    (s.portCfg (.arx r)).asrc = false → u = s.wrN (R.PORT_ARX_RATE r) rate →
    (1000 * ((rate : Int) - (16 * (s.portCfg (.arx r)).rate : Nat)).natAbs ≤ 16 * (s.portCfg (.arx r)).rate →
      exec (.rateMeasure (.arx r) rate) s = .next (u.setBit (R.PORT_ARX_STAT r) F.PORT_ARX_STAT_RATE_ERR false)) ∧
    (16 * (s.portCfg (.arx r)).rate < 1000 * ((rate : Int) - (16 * (s.portCfg (.arx r)).rate : Nat)).natAbs →
      u.rateErr (.arx r) = false → exec (.rateMeasure (.arx r) rate) s = .next
        (((u.setBit (R.PORT_ARX_STAT r) F.PORT_ARX_STAT_RATE_ERR true).flag R.PORT_FLAGS F.PORT_FLAGS_RATE_ERR).raise
          FS.PORT_RATE_ERR (LocalPort.arx r).unit 0))) ∧
  -- a position: the edge of the first frame, then one or two samples a frame; four samples off, the anchor is new
  (∀ hi ts, assign none hi ts = (ts / 256, (ts / 256, 1), false)) ∧
  (∀ m j ts, ((m + 1 * j : Nat) : Int) - 4 ≤ (ts / 256 : Nat) → ((ts / 256 : Nat) : Int) ≤ (m + 1 * j : Nat) + 4 →
    assign (some (m, j)) true ts = (m + 1 * j, (m, j + 1), false)) ∧
  (∀ m j ts, m + 2 * j + 4 < ts / 256 → assign (some (m, j)) false ts = (ts / 256, (ts / 256, 1), true))

/-- Receivers and clocks (R333, R335, R338, R340, R349, R357): AES_LOCK, AES_UNLOCK, CS_BLOCK_END, ARX_CS_READ, ASRC_LOCK,
ASRC_UNLOCK, ATX_CLK_LOSS, ATX_CLOCK_RETURN, TDM_CLK_LOSS, TDM_CLK_RETURN. -/
def Obligations.ReceiversAndClocks : Prop :=
  (∀ (r : Fin 32) s, (s.lport (.arx r)).st ≠ 0 → exec (.aesLock r) s = .next (((s.setBitAt R.PORT_AES_LOCK r true).setBit
    (R.PORT_ARX_STAT r) F.PORT_ARX_STAT_LOCK true).setPort (.arx r) { s.lport (.arx r) with anchor := none })) ∧
  (∀ (r : Fin 32) s, (s.lport (.arx r)).st = 0 → exec (.aesLock r) s = .next s) ∧
  (∀ (r : Fin 32) s, s.bitAt R.PORT_AES_LOCK r = true → ∃ u : State,
    u = (s.setBitAt R.PORT_AES_LOCK r false).setBit (R.PORT_ARX_STAT r) F.PORT_ARX_STAT_LOCK false ∧
    exec (.aesUnlock r) s = .next (((u.count (R.PORT_ARX_UNLOCK_CNT r)).flag R.PORT_FLAGS F.PORT_FLAGS_UNLOCK).raise
      FS.PORT_AES_UNLOCK (LocalPort.arx r).unit 0)) ∧
  (∀ (r : Fin 32) w a b c d s, s.bitAt R.PORT_AES_LOCK r = false → exec (.aesUnlock r) s = .next s ∧
    exec (.csBlockEnd r w a b c d) s = .next s) ∧
  -- a whole block is accepted, subframe by subframe, a broken one is counted and raised
  (∀ (r : Fin 32) (a b c d : BitVec 192) s, s.bitAt R.PORT_AES_LOCK r = true → exec (.csBlockEnd r true a b c d) s =
    .next ((((s.csBlock r (R.PORT_ARX_CS_A r) a.toNat).csBlock r (R.PORT_ARX_CS_B r) b.toNat).wr192 (R.PORT_ARX_UB_A r)
      c.toNat).wr192 (R.PORT_ARX_UB_B r) d.toNat)) ∧
  (∀ (r : Fin 32) a b c d s, s.bitAt R.PORT_AES_LOCK r = true → exec (.csBlockEnd r false a b c d) s =
    .next (((s.count (R.PORT_ARX_BLKERR_CNT r)).flag R.PORT_FLAGS F.PORT_FLAGS_BLKERR).raise FS.PORT_AES_BLOCK
      (LocalPort.arx r).unit 0)) ∧
  -- a read of word 0 of a group latches the other five; one of CS_A clears CS_NEW
  (∀ (r : Fin 32) (g : Fin 4) s, Gives (.arxCsRead r g) s fun t => t.out.busData = s.reg (arxGroupAddr r g 0) ∧
    (∀ w, 1 ≤ w → w ≤ 5 → t.latchOf (arxGroupAddr r g w) = some (s.reg (arxGroupAddr r g w))) ∧
    RegsBut [R.PORT_ARX_STAT r] s t ∧ t.mem = s.mem ∧ (g = 0 → t.rd (R.PORT_ARX_STAT r) =
      F.PORT_ARX_STAT_CS_NEW.put (s.rd (R.PORT_ARX_STAT r)) 0)) ∧
  -- rate converters
  (∀ q s, (s.lport q).st ≠ 0 → (s.portCfg q).asrc = true → s.portLive q = true → s.asrcLocked q = false →
    exec (.asrcLock q) s = .next ((s.setBit q.statAddr q.asrcFld true).setPort q { s.lport q with
      lockAt := s.msc,
      rx := (s.lport q).rx.map (fun e => (e.1, { e.2 with gap := none, since := 8, bad := [] })) })) ∧
  (∀ q s, (s.portCfg q).asrc = false ∨ s.asrcLocked q = true → exec (.asrcLock q) s = .next s) ∧
  (∀ q s, s.asrcLocked q = true → exec (.asrcUnlock q) s = .next (((s.setBit q.statAddr q.asrcFld false).flag R.PORT_FLAGS
    F.PORT_FLAGS_ASRC_UNLOCK).raise FS.PORT_ASRC_UNLOCK q.unit 0)) ∧
  (∀ q s, s.asrcLocked q = false → exec (.asrcUnlock q) s = .next s) ∧
  -- clocks of transmitters and TDM ports
  (∀ (k : Fin 32) s, (s.lport (.atx k)).st ≠ 0 → (s.portCfg (.atx k)).asrc = true →
    s.bit (R.PORT_ATX_STAT k) F.PORT_ATX_STAT_CLK_LOSS = false → exec (.atxClkLoss k) s =
      .next ((((s.setBit (R.PORT_ATX_STAT k) F.PORT_ATX_STAT_CLK_LOSS true).setPort (.atx k) { s.lport (.atx k) with
        resume := none, sent := [] }).flag R.PORT_FLAGS F.PORT_FLAGS_CLK_LOSS).raise FS.PORT_CLK_LOSS
          (LocalPort.atx k).unit 0)) ∧
  (∀ (k : Fin 32) s, (s.portCfg (.atx k)).asrc = false → exec (.atxClkLoss k) s = .next s) ∧
  (∀ (k : Fin 32) s, s.bit (R.PORT_ATX_STAT k) F.PORT_ATX_STAT_CLK_LOSS = true → exec (.atxClockReturn k) s =
    .next (s.setPort (.atx k) { s.lport (.atx k) with resume := some (8 * (s.msc / 8) + 8) })) ∧
  (∀ (k : Fin 32) s, s.bit (R.PORT_ATX_STAT k) F.PORT_ATX_STAT_CLK_LOSS = false →
    exec (.atxClockReturn k) s = .next s) ∧
  (∀ (p : Fin 16) s, (s.lport (.tdm p)).st ≠ 0 → (s.portCfg (.tdm p)).master = false →
    s.bit (R.PORT_TDM_STAT p) F.PORT_TDM_STAT_CLK = true → exec (.tdmClkLoss p) s =
      .next (((((s.setTdmClk p false).setPort (.tdm p) { s.lport (.tdm p) with sent := [] }).count
        (R.PORT_TDM_CLKLOSS_CNT p)).flag R.PORT_FLAGS F.PORT_FLAGS_CLK_LOSS).raise FS.PORT_CLK_LOSS
          (LocalPort.tdm p).unit 0)) ∧
  (∀ (p : Fin 16) s, (s.lport (.tdm p)).st ≠ 0 → exec (.tdmClkReturn p) s =
    .next ((s.setTdmClk p true).setPort (.tdm p) { s.lport (.tdm p) with anchor := none })) ∧
  (∀ (p : Fin 16) s, (s.lport (.tdm p)).st = 0 → exec (.tdmClkLoss p) s = .next s ∧ exec (.tdmClkReturn p) s = .next s)

/-! ### Folds and Shepherd -/

/-- Configuration of folds (R478, R479): FOLD_CFG_WRITE. -/
def Obligations.FoldConfiguration : Prop :=
  -- a write reaches the word of the fold, at the address that the master gave
  (∀ (m : Master) (f : Fin 128) w (v : Word) (en : BitVec 4) s a, a = m.regAddr (FoldWord.addr f w) →
    s.targetFor m a = .reg (FoldWord.addr f w) → (m = .bar0 → s.bit R.SYS_VIEW_LOCK F.SYS_VIEW_LOCK_BAR0_RO = false) →
    ∃ u : State, exec (.foldCfgWrite m f w v en) s = .next { u with out := { u.out with busErr := false } } ∧
      u = s.foldCfgWrite f w v.toNat (enableMask en.toNat) m a) ∧
  -- while EN = 1 a write applies to EN only and sets CFG_IGN
  (∀ (s : State) (f : Fin 128) w v msk m a, s.foldEn f = true → s.bit R.FOLD_CTRL F.FOLD_CTRL_LS_LOCK = false → w ≠ .cfg →
    s.foldCfgWrite f w v msk m a =
      State.ccuConfigChange s (s.flag R.FOLD_FLAGS F.FOLD_FLAGS_CFG_IGN) (FoldWord.addr f w)) ∧
  (∀ (s : State) (f : Fin 128) v msk m a r new, s.foldEn f = true → s.bit R.FOLD_CTRL F.FOLD_CTRL_LS_LOCK = false →
    regSpec? (R.FOLD_CFG f) = some r → new = rwWord r f (s.rd (R.FOLD_CFG f)) v msk →
    (F.FOLD_CFG_EN.of new = 1 → s.foldCfgWrite f .cfg v msk m a =
      State.ccuConfigChange s (s.flag R.FOLD_FLAGS F.FOLD_FLAGS_CFG_IGN) (R.FOLD_CFG f)) ∧
    (F.FOLD_CFG_EN.of new = 0 → s.foldCfgWrite f .cfg v msk m a =
      State.ccuConfigChange s ((s.flag R.FOLD_FLAGS F.FOLD_FLAGS_CFG_IGN).disableFold f) (R.FOLD_CFG f))) ∧
  -- while EN = 0 a word is written; FOLD_CFG enables the fold last
  (∀ (s : State) (f : Fin 128) v msk m a r new, s.foldEn f = false → s.bit R.FOLD_CTRL F.FOLD_CTRL_LS_LOCK = false →
    regSpec? (R.FOLD_CFG f) = some r → new = rwWord r f (s.rd (R.FOLD_CFG f)) v msk →
    (F.FOLD_CFG_EN.of new = 1 → s.foldCfgWrite f .cfg v msk m a = State.ccuConfigChange s
      ((s.wrN (R.FOLD_CFG f) (F.FOLD_CFG_EN.put new 0)).enableFold f) (R.FOLD_CFG f)) ∧
    (F.FOLD_CFG_EN.of new = 0 → s.foldCfgWrite f .cfg v msk m a = State.ccuConfigChange s
      (s.wrN (R.FOLD_CFG f) (F.FOLD_CFG_EN.put new 0)) (R.FOLD_CFG f))) ∧
  (∀ (s : State) (f : Fin 128) k v msk m a, s.foldEn f = false → s.bit R.FOLD_CTRL F.FOLD_CTRL_LS_LOCK = false →
    s.foldCfgWrite f (.key k) v msk m a = State.ccuConfigChange s
      (s.wrN (R.FOLD_KEY f k) (mergeBits (s.rd (R.FOLD_KEY f k)) v msk)) (R.FOLD_KEY f k)) ∧
  -- LS_LOCK: a LIFE-SAFETY fold is not disabled, its key not written, and no fold becomes or ceases to be one
  (∀ (s : State) (f : Fin 128) v msk m a r new, s.bit R.FOLD_CTRL F.FOLD_CTRL_LS_LOCK = true →
    regSpec? (R.FOLD_CFG f) = some r → new = rwWord r f (s.rd (R.FOLD_CFG f)) v msk →
    (s.foldEn f = true → s.foldClass f = 3 → F.FOLD_CFG_EN.of new = 0 → s.foldCfgWrite f .cfg v msk m a = s.violate a m 4) ∧
    (s.foldEn f = false → s.foldClass f ≠ 3 → F.FOLD_CFG_CLASS.of new = 3 →
      s.foldCfgWrite f .cfg v msk m a = s.violate a m 4) ∧
    (s.foldEn f = false → s.foldClass f = 3 → F.FOLD_CFG_CLASS.of new ≠ 3 →
      s.foldCfgWrite f .cfg v msk m a = s.violate a m 4)) ∧
  (∀ (s : State) (f : Fin 128) k v msk m a, s.bit R.FOLD_CTRL F.FOLD_CTRL_LS_LOCK = true → s.foldClass f = 3 →
    s.foldCfgWrite f (.key k) v msk m a = s.violate a m 4) ∧
  -- a fold that is disabled with nothing outstanding loses its ring positions, notices and subscriptions
  (∀ (s t : State) (f : Fin 128), (s.fold f).taken = [] → (s.fold f).waiting = [] → t = s.disableFold f →
    t.foldEn f = false ∧ t.rd (R.FOLD_CHEAD f) = 0 ∧ t.rd (R.FOLD_RTAIL f) = 0 ∧ t.rd (R.FOLD_RHEAD f) = 0 ∧
    (t.fold f).notices = [] ∧ (t.fold f).subs = [])

/-- Command and reply rings (R477, R480 to R482, R491): FOLD_DOORBELL, FOLD_RHEAD_WRITE, BULK_FETCH_DONE. Datagrams
(R483 to R485): DWEUL_DATAGRAM. -/
def Obligations.FoldRingsAndDatagrams : Prop :=
  -- a doorbell of a fold that is not served changes nothing; a tail outside the ring is an error of the ring
  ((∀ (f : Fin 128) tail ps s, s.foldEn f = false ∨ s.foldUdp f = true ∨ s.ringServed = false →
     exec (.foldDoorbell f tail ps) s = .next s) ∧
   (∀ (f : Fin 128) (tail : BitVec 16) ps s, s.foldEn f = true → s.foldUdp f = false → s.ringServed = true →
     (2 ^ s.fld (R.FOLD_RING_CFG f) F.FOLD_RING_CFG_CSIZE ≤ tail.toNat → exec (.foldDoorbell f tail ps) s =
       .next (((s.setBit (R.FOLD_STAT f) F.FOLD_STAT_RING_ERR true).flag R.FOLD_FLAGS F.FOLD_FLAGS_RING_ERR).raise
         FS.FOLD_RING_ERR f 0)) ∧
     (tail.toNat < 2 ^ s.fld (R.FOLD_RING_CFG f) F.FOLD_RING_CFG_CSIZE → exec (.foldDoorbell f tail ps) s =
       .next ((s.setFold f { s.fold f with ctail := tail.toNat }).readRing f ps))) ∧
   -- the engine reads packet by packet up to the tail, unless the ring has an error or replies wait
   (∀ (s : State) (f : Nat) h l size head avail, size = 2 ^ s.fld (R.FOLD_RING_CFG f) F.FOLD_RING_CFG_CSIZE →
     head = s.fld (R.FOLD_CHEAD f) F.FOLD_CHEAD_SLOT → avail = ((s.fold f).ctail + size - head) % size →
     (s.bit (R.FOLD_STAT f) F.FOLD_STAT_RING_ERR = true ∨ s.bit (R.FOLD_STAT f) F.FOLD_STAT_RPL_FULL = true ∨ avail = 0 →
       s.readRing f (h :: l) = s) ∧
     (s.bit (R.FOLD_STAT f) F.FOLD_STAT_RING_ERR = false → s.bit (R.FOLD_STAT f) F.FOLD_STAT_RPL_FULL = false → avail ≠ 0 →
       slotsOf h.length ≤ avail → head + slotsOf h.length ≤ size → s.readRing f (h :: l) =
         ((s.setFld (R.FOLD_CHEAD f) F.FOLD_CHEAD_SLOT ((head + slotsOf h.length) % size)).intake f 0 h).1.readRing f l) ∧
     (s.bit (R.FOLD_STAT f) F.FOLD_STAT_RING_ERR = false → s.bit (R.FOLD_STAT f) F.FOLD_STAT_RPL_FULL = false → avail ≠ 0 →
       avail < slotsOf h.length ∨ size < head + slotsOf h.length → s.readRing f (h :: l) = s.ringError f)) ∧
   -- a packet takes the slots of its 16 bytes of header and LENGTH bytes after it
   (∀ n k, slotsOf n = k ↔ 64 * k < 16 + n + 64 ∧ 16 + n ≤ 64 * k) ∧
   -- new reply slots: waiting replies and notices go out, and the ring is read again
   (∀ (f : Fin 128) (v : BitVec 16) ps s (u : State), u = s.setFld (R.FOLD_RHEAD f) F.FOLD_RHEAD_SLOT v.toNat →
     (s.foldUdp f = true → exec (.foldRheadWrite f v ps) s = .next u) ∧
     (s.foldUdp f = false → s.foldEn f = true → s.ringServed = true →
       exec (.foldRheadWrite f v ps) s = .next ((u.drainFold f).readRing f ps)) ∧
     (s.foldUdp f = false → s.foldEn f = false ∨ s.ringServed = false →
       exec (.foldRheadWrite f v ps) s = .next (u.drainFold f))) ∧
   -- the end of a bulk fetch is noted at the commands that wait for it, and nowhere else
   (∀ (f : Fin 128) (seq : Word) ok s, exec (.bulkFetchDone f seq ok) s = .next (s.setFold f { s.fold f with
     taken := (s.fold f).taken.map (fun e => if e.needFetch = true ∧ e.hdr.seq = seq.toNat then
       { e with needFetch := false, fetchErr := !ok } else e) }))) ∧
  (∀ (port : Fin 4) (ip : Word) (sp : BitVec 16) (bytes : List Byte) (s : State) (n : Nat) (packet : List Byte) (h : Hdr),
     n = bytes.length - 16 → packet = bytes.take n → h = hdrOf packet →
     -- a port that FOLD_NET does not name, or firmware that does not serve
     (s.served = false ∨ s.fld R.FOLD_NET F.FOLD_NET_PORTS / 2 ^ port.val % 2 = 0 →
       exec (.dweulDatagram port ip sp bytes) s = .next s) ∧
     -- no fold of UDP, or another tag than the fold's: counted at the fold, and raised
     (s.served = true → s.fld R.FOLD_NET F.FOLD_NET_PORTS / 2 ^ port.val % 2 = 1 → h.fold < 128 →
       s.foldEn h.fold = false ∨ s.foldUdp h.fold = false ∨ bytes.drop n ≠ s.dweulTag h.fold packet →
       exec (.dweulDatagram port ip sp bytes) s = .next (((s.count (R.FOLD_AUTH_CNT h.fold)).flag R.FOLD_FLAGS
         F.FOLD_FLAGS_AUTH).raise FS.FOLD_AUTH_FAIL h.fold 0)) ∧
     (s.served = true → s.fld R.FOLD_NET F.FOLD_NET_PORTS / 2 ^ port.val % 2 = 1 → h.fold < 128 →
       s.foldEn h.fold = true → s.foldUdp h.fold = true → h.flags / 4 % 2 = 1 → 32 ≤ bytes.length →
       bytes.drop n = s.dweulTag h.fold packet → ∀ u : State,
       u = (s.wrN (R.FOLD_PEER_IP h.fold) ip.toNat).wrN (R.FOLD_PEER_PORT h.fold) sp.toNat →
       -- a new SEQ: the command goes to the intake
       (∀ x, (s.fold h.fold).window h.seq = some x → 16 + h.length = packet.length →
         exec (.dweulDatagram port ip sp bytes) s = .next ((u.setFold h.fold x).intake h.fold port h).1) ∧
       -- a SEQ of the latest 4 replies: that reply again
       (∀ r, (s.fold h.fold).window h.seq = none → (s.fold h.fold).high < h.seq + 64 →
         (s.fold h.fold).last.find? (fun r => r.seq = h.seq) = some r →
         exec (.dweulDatagram port ip sp bytes) s = .next { u with out := { u.out with replies := u.out.replies ++ [r] } }) ∧
       -- any other SEQ is dropped
       ((s.fold h.fold).window h.seq = none → (s.fold h.fold).last.find? (fun r => r.seq = h.seq) = none →
         exec (.dweulDatagram port ip sp bytes) s = .next (u.count (R.FOLD_ERR_CNT h.fold)))) ∧
     -- the window: a higher SEQ moves it, one of the 64 below the highest is accepted once
     (∀ (x : Fold) q, x.high < q → ∃ y, x.window q = some y ∧ y.high = q ∧ y.seen % 2 = 1) ∧
     (∀ (x : Fold) q, q ≤ x.high → 1 ≤ q → x.high < q + 64 → x.seen / 2 ^ (x.high - q) % 2 = 0 →
       x.window q = some { x with seen := x.seen + 2 ^ (x.high - q) }) ∧
     (∀ (x : Fold) q, q ≤ x.high → x.high ≥ q + 64 ∨ x.seen / 2 ^ (x.high - q) % 2 = 1 → x.window q = none))

/-- Intake of commands (R490, R493, R494, R495): a bad header, BUSY, an unknown opcode, and the queues. Replies (R480,
R482, R483, R488, R492): what answering a command does, and where its reply goes. -/
def Obligations.IntakeAndAnswers : Prop :=
  ((∀ (s : State) f port h, s.badHeader f h ≠ 0 →
     s.intake f port h = (s.reply f port (replyOf f h 8 (s.badHeader f h) false []), false)) ∧
   (∀ (s : State) f port h, s.badHeader f h = 0 → s.busyDetail f h ≠ 0 → s.busyDetail f h ≠ 2 →
     s.intake f port h = (s.reply f port (replyOf f h 1 (s.busyDetail f h) false []), false)) ∧
   (∀ (s : State) f port h, s.badHeader f h = 0 → s.busyDetail f h = 2 →
     s.intake f port h = ((s.reply f port (replyOf f h 1 2 false [])).rateEvent f, false)) ∧
   -- a full credit, an empty bucket and the load state make a command wait outside
   (∀ (s : State) f h, s.fld (R.FOLD_CFG f) F.FOLD_CFG_CREDIT ≤ (s.fold f).taken.length + (s.fold f).waiting.length →
     s.busyDetail f h = 1) ∧
   (∀ (s : State) f h, (s.fold f).taken.length + (s.fold f).waiting.length < s.fld (R.FOLD_CFG f) F.FOLD_CFG_CREDIT →
     (s.fld (R.FOLD_RATE f) F.FOLD_RATE_RATE ≠ 0 → s.tokens f < 96000 → s.foldClass f ≠ 3 → s.busyDetail f h = 2) ∧
     (s.fld (R.FOLD_RATE f) F.FOLD_RATE_RATE = 0 → s.foldClass f ≠ 3 → 2 ≤ s.load → h.opcode / 256 ≠ 0x0C →
       s.busyDetail f h = 4) ∧
     (s.fld (R.FOLD_RATE f) F.FOLD_RATE_RATE = 0 → s.foldClass f ≠ 3 → 1 ≤ s.load → h.opcode / 256 = 0x0C →
       s.busyDetail f h = 3) ∧
     (s.fld (R.FOLD_RATE f) F.FOLD_RATE_RATE = 0 → s.foldClass f = 3 → s.shep.lsq.length < 64 → s.busyDetail f h = 0)) ∧
   -- a command that passes costs a token, is counted, and joins the queue of its class
   (∀ (s : State) f port h (x : Fold) (u : State), s.badHeader f h = 0 → s.busyDetail f h = 0 → h.opcode ∈ opcodes →
     s.foldUdp f = true → s.fld (R.FOLD_RATE f) F.FOLD_RATE_RATE ≠ 0 →
     x = { s.fold f with taken := (s.fold f).taken ++ [⟨h, port, false, false⟩], tokens := s.tokens f - 96000,
                         tokAt := s.edge } →
     u = (s.count (R.FOLD_CMD_CNT f)).setFold f x →
     (s.foldClass f = 3 → s.intake f port h =
       (State.syncFold { u with shep := { u.shep with lsq := u.shep.lsq ++ [f] } } f, true)) ∧
     (s.foldClass f ≠ 3 → s.intake f port h =
       (State.syncFold { u with shep := { u.shep with genq := u.shep.genq ++ [f] } } f, true))) ∧
   (∀ (s : State) f port h, s.badHeader f h = 0 → s.busyDetail f h = 0 → h.opcode ∉ opcodes →
     s.fld (R.FOLD_RATE f) F.FOLD_RATE_RATE = 0 → s.intake f port h =
       (((s.count (R.FOLD_CMD_CNT f)).setFold f { s.fold f with tokens := s.tokens f, tokAt := s.edge }).reply f port
         (replyOf f h 7 0 false []), false)) ∧
   -- VERSION, FOLD and ENGINE are tested in this order
   (∀ (s : State) f (h : Hdr), (h.version ≠ 1 → s.badHeader f h = 1) ∧ (h.version = 1 → h.fold ≠ f → s.badHeader f h = 2) ∧
     (h.version = 1 → h.fold = f → h.engine ≠ s.fld R.SYS_ENGINE_ID F.SYS_ENGINE_ID_ENGINE → s.badHeader f h = 3) ∧
     (h.version = 1 → h.fold = f → h.engine = s.fld R.SYS_ENGINE_ID F.SYS_ENGINE_ID_ENGINE →
       4080 < h.length ∨ h.length % 4 ≠ 0 → s.badHeader f h = 4))) ∧
  -- the command leaves its fold and its queue, and its reply follows
  ((∀ (s u : State) f h a e rest, (s.fold f).taken = e :: rest → u = s.setFold f { s.fold f with taken := rest } →
     s.answer f h a = State.reply { u with shep := { u.shep with lsq := u.shep.lsq.erase f, genq := u.shep.genq.erase f } }
       f e.port ⟨f, h.opcode, h.seq, h.flags % 32 + 256 + (if a.late = true then 1024 else 0), h.group, a.status, a.detail,
         a.results⟩) ∧
   -- over UDP it leaves at once and is kept with the latest 4; one that does not fit is REJECTED
   (∀ (s : State) f port (r : Reply), s.foldUdp f = true → r.status ≠ 1 → r.status ≠ 8 → r.length ≤ s.udpLimit port →
     ∃ u : State, u = s.setFold f { s.fold f with last := (r :: (s.fold f).last).take 4 } ∧ s.reply f port r =
       (State.closeFold { u with out := { u.out with replies := u.out.replies ++ [r] } } f).syncFold f) ∧
   (∀ (s : State) f port (r : Reply), s.foldUdp f = true → r.status = 0 → s.udpLimit port < r.length →
     s.reply f port r = s.reply f port { r with status := 2, detail := 1, results := [] }) ∧
   -- in a ring it waits behind the others for room, and they go out in order
   (∀ (s : State) f port (r : Reply), s.foldUdp f = false → r.status ≠ 1 → r.status ≠ 8 → s.reply f port r =
     (s.setFold f { s.fold f with waiting := (s.fold f).waiting ++ [r] }).drainFold f) ∧
   (∀ (s : State) f r l, (s.ringRoom f (slotsOf r.length) = true → s.ringDrain f (r :: l) = (s.ringWrite f r).ringDrain f l) ∧
     (s.ringRoom f (slotsOf r.length) = false → s.ringDrain f (r :: l) = (s, r :: l))) ∧
   -- a packet does not cross the ring's end; the ring is never full
   (∀ (s : State) f n size tail, size = 2 ^ s.fld (R.FOLD_RING_CFG f) F.FOLD_RING_CFG_RSIZE →
     tail = s.fld (R.FOLD_RTAIL f) F.FOLD_RTAIL_SLOT → s.ringRoom f n = true → tail < size →
     s.fld (R.FOLD_RHEAD f) F.FOLD_RHEAD_SLOT < size →
     (tail + size - s.fld (R.FOLD_RHEAD f) F.FOLD_RHEAD_SLOT) % size + n < size) ∧
   (∀ (s : State) f (r : Reply) size tail, size = 2 ^ s.fld (R.FOLD_RING_CFG f) F.FOLD_RING_CFG_RSIZE →
     tail = s.fld (R.FOLD_RTAIL f) F.FOLD_RTAIL_SLOT → tail + slotsOf r.length ≤ size → ∃ u : State,
     u = s.setFld (R.FOLD_RTAIL f) F.FOLD_RTAIL_SLOT ((tail + slotsOf r.length) % size) ∧ s.ringWrite f r =
       { u with out := { u.out with replies := u.out.replies ++ [r],
                                    msix := u.out.msix ++ (if s.bit (R.FOLD_CFG f) F.FOLD_CFG_IRQ_EN = true then [f] else []) } }))

/-- The life of Shepherd's command service (R496, R502 to R504): SHEPHERD_FRAME, TELEMETRY_REFRESH, SHEP_WDOG_EXPIRY,
SHEP_TRAP, SHEP_RESTART. -/
def Obligations.ShepherdService : Prop :=
  -- the backlog, and the load state with its hysteresis; an entry to overload is raised
  (∀ (b : BitVec 24) s (n : Nat), s.served = true → n = (if s.shep.genq = [] then 0 else b.toNat) → ∃ u : State,
    u = (s.wrN R.FOLD_BACKLOG n).setFld R.FOLD_STATUS F.FOLD_STATUS_LOAD (loadStep s.load n) ∧
    exec (.shepherdFrame b) s = .next (if loadStep s.load n = 2 ∧ s.load ≠ 2 then
      (u.flag R.FOLD_FLAGS F.FOLD_FLAGS_OVERLOAD).raise FS.FOLD_OVERLOAD 0 0 else u)) ∧
  (∀ n, (loadStep 0 n = 1 ↔ 1000 < n) ∧ (loadStep 0 n = 0 ↔ n ≤ 1000) ∧ (loadStep 1 n = 2 ↔ 4000 < n) ∧
    (loadStep 1 n = 0 ↔ n < 500) ∧ (loadStep 2 n = 1 ↔ n < 2000) ∧ (loadStep 2 n = 2 ↔ 2000 ≤ n)) ∧
  (∀ (b : BitVec 24) s, s.served = false → exec (.shepherdFrame b) s = .next s) ∧
  -- a refresh keeps the set with the MSC of its block; a set of KIND 8 restarts its peaks
  (∀ (sel : BitVec 16) s, selOk sel.toNat = true → selKind sel.toNat ≠ 8 → s.load ≠ 0 ∨ s.served = false →
    exec (.telemetryRefresh sel) s = .next { s with shep := { s.shep with
      telem := Sparse.set telemDefault s.shep.telem sel.toNat (8 * (s.msc / 8), s.telemWords sel.toNat) } }) ∧
  (∀ (sel : BitVec 16) s, selOk sel.toNat = true → selKind sel.toNat = 8 → s.load ≠ 0 ∨ s.served = false →
    exec (.telemetryRefresh sel) s = .next { s with shep := { s.shep with
      telem := Sparse.set telemDefault s.shep.telem sel.toNat (8 * (s.msc / 8), s.telemWords sel.toNat),
      telemPeak := s.shep.telemPeak.filter (fun e => e.1 / 16 ≠ selIndex sel.toNat) } }) ∧
  (∀ (sel : BitVec 16) s, selOk sel.toNat = false → exec (.telemetryRefresh sel) s = .next s) ∧
  -- a subscription that is due gives a notice, the others count on
  (∀ (s : State) f sel set, (s.fold f).subs.find? (fun u => u.sel = sel) = none → s.telemPush f sel set = s) ∧
  (∀ (s : State) f sel set v, (s.fold f).subs.find? (fun u => u.sel = sel) = some v → v.count + 1 < v.period →
    s.telemPush f sel set = s.setFold f { s.fold f with
      subs := (s.fold f).subs.map (fun w => if w.sel = sel then { w with count := w.count + 1 } else w) }) ∧
  -- 100 ms without a restart of the watchdog; the third within 10 s is fatal
  (∀ ms s (recent : List Nat), s.firmwareRuns = true → 100 ≤ ms →
    recent = s.shep.wdogs.filter (fun e => decide (s.edge < e + 960000)) → ∃ u : State,
    u = State.raise { s with shep := { s.shep with restarting := true, wdogs := recent ++ [s.edge] } } FS.SHEP_WDOG 0 0 ∧
    exec (.shepWdogExpiry ms) s = .next (if 2 ≤ recent.length then u.raise FS.SHEP_FATAL 0 0 else u)) ∧
  (∀ ms s, s.firmwareRuns = false ∨ ms < 100 → exec (.shepWdogExpiry ms) s = .next s) ∧
  -- a trap stops command service until its restart
  (∀ s, s.firmwareRuns = true → exec .shepTrap s =
    .next (State.raise { s with shep := { s.shep with restarting := true } } FS.SHEP_TRAP 0 0)) ∧
  (∀ s, s.firmwareRuns = false → exec .shepTrap s = .next s) ∧
  -- a restart that succeeds answers ABORTED to every command that was taken; one that fails is fatal
  (∀ s, s.firmwareRuns = true → s.shep.restarting = true → ∃ u : State,
    u = { s with shep := { s.shep with restarting := false }, fc := { s.fc with trapPend := false } } ∧
    exec (.shepRestart true) s = .next ((s.shep.folds.map (·.1)).foldl State.abortFold u.abortCheck)) ∧
  (∀ (s : State) f, s.abortFold f = (s.fold f).taken.foldl (fun (t : State) e => t.answer f e.hdr { status := 9 }) s) ∧
  (∀ s, s.firmwareRuns = true → s.shep.restarting = true → exec (.shepRestart false) s =
    .next (s.raise FS.SHEP_FATAL 0 0)) ∧
  (∀ ok s, s.firmwareRuns = false ∨ s.shep.restarting = false → exec (.shepRestart ok) s = .next s)

/-! ### Needle cores -/

/-- How a core issues an instruction (R182, R184, R185, R197, R208, R209): results land when their cycles are over, and what
cannot execute traps. -/
def Obligations.InstructionIssue : Prop :=
  -- a core that does not run, that has halted, or that takes an interrupt issues nothing
  (∀ (s : State) c e f, (s.core c).issues = false → s.issue c e f = s) ∧
  -- an uncorrectable program word and a reserved encoding trap, whatever the command
  (∀ (s : State) c a f, (s.core c).issues = true → s.issue c (.uncorrectable a) f = s.eccTrap c a) ∧
  (∀ (s : State) c f k, k = s.core c → k.issues = true → (0, k.pc) ∈ k.poison →
    s.issue c .clean f = s.eccTrap c (needleEccAddr c 0 k.pc)) ∧
  (∀ (s : State) c f k, k = s.core c → k.issues = true → k.poison = [] →
    decodeNeedle (k.fetch k.pc) (k.fetch (k.pc + 1)) = none → s.issue c .clean f = s.trapCore c 1) ∧
  -- an instruction that may not stand in a delay slot or under REP traps there, an access outside the map traps
  (∀ (s : State) c f k i r, k = s.core c → k.issues = true → k.poison = [] →
    decodeNeedle (k.fetch k.pc) (k.fetch (k.pc + 1)) = some i → f i k = some r →
    (i.noSlot = true → k.slots ≠ 0 ∨ k.rep ≠ 0 → s.issue c .clean f = s.trapCore c 2) ∧
    (i.noSlot = false → r = .badAddr → s.issue c .clean f = s.trapCore c 3) ∧
    (i.noSlot = false → ∀ y a, r = .badWord y a → s.issue c .clean f = s.eccTrap c (needleEccAddr c y a))) ∧
  -- a trap records its cause and the PC, sets the core's bit, empties the pipeline and raises NEEDLE_TRAP
  (∀ (s : State) c n, c < 32 → n ≠ 4 → ∃ u : State, u = s.setCore c { s.core c with
      st := .trapped, cause := n, haltPc := (s.core c).pc, pend := [], flow := .none, slots := 0, rep := 0, wait := .none,
      halting := false, haltAtClose := false, fadeOut := true } ∧
    s.trapCore c n = (u.setBitAt R.NEEDLE_TRAP_LO c true).raise FS.NEEDLE_TRAP c 0) ∧
  -- a cycle: results with one cycle left land, the others come one cycle closer
  (∀ k : Core, k.cycle.1.pend = (k.pend.filter (fun e => 1 < e.left)).map (fun e => { e with left := e.left - 1 })) ∧
  (∀ (k : Core) n v, k.pend = [⟨.d n, v, 1, false, k.cyc⟩] → k.cycle.1 = { k with
    d := k.d.setIfInBounds n (BitVec.ofNat 32 v), pend := [], cyc := k.cyc + 1,
    blockAge := if k.irqPend % 2 = 1 then k.blockAge + 1 else k.blockAge }) ∧
  (∀ (k : Core) (f : FlagSet), f.vals < 16 → k.land ⟨.flags, f.vals + 16 * f.mask, 1, false, k.cyc⟩ =
    { k with sr := applyFlags k.sr f }) ∧
  -- a MAC sees the result of an earlier MAC into its accumulator at once, every other consumer sees it when it lands
  (∀ (k : Core) n v, (k.postMac n v).accM n = sgnVal 72 (pattern 72 v) ∧ (k.postMac n v).accO n = k.accO n) ∧
  -- a flag update leaves the flags outside its mask, and SV stays set
  (∀ (sr : Word) (f : FlagSet) j, j < 4 → (applyFlags sr f).toNat / 2 ^ j % 2 =
    if f.mask / 2 ^ j % 2 = 1 then f.vals / 2 ^ j % 2 else sr.toNat / 2 ^ j % 2) ∧
  (∀ (sr : Word) (f : FlagSet), sr.toNat / 16 % 2 = 1 → (applyFlags sr f).toNat / 16 % 2 = 1) ∧
  (∀ (sr : Word) (f : FlagSet), (applyFlags sr f).toNat / 32 = sr.toNat / 32)

/-- The ALU group and the immediates (R165, R193, R194, R216, R218, R219): AL_ADD to AL_NORM, AL_ADDI, AL_CMPI, AL_LDI and
AL_LDI32. Each writes its destination with the flags that R219 names and no other register. -/
def Obligations.AluInstructions : Prop :=
  ∀ (c : Fin 64) (s : State) (k : Core) (dd da db sh n : Nat) (w x y : Word) (v : Int),
    x = k.dReg da → y = k.dReg db →
    (Issues s c k (.add dd da db) → v = fit 32 (srSat k.sr) (x.toInt + y.toInt) → exec (.alAdd c .clean) s =
      .next (s.setCore c (k.gives dd v (flagsZNCV v (2 ^ 32 ≤ x.toNat + y.toNat) (outOfRange 32 (x.toInt + y.toInt)))))) ∧
    (Issues s c k (.sub dd da db) → v = fit 32 (srSat k.sr) (x.toInt - y.toInt) → exec (.alSub c .clean) s =
      .next (s.setCore c (k.gives dd v (flagsZNCV v (x.toNat < y.toNat) (outOfRange 32 (x.toInt - y.toInt)))))) ∧
    (Issues s c k (.neg dd da) → v = fit 32 (srSat k.sr) (-x.toInt) → exec (.alNeg c .clean) s =
      .next (s.setCore c (k.gives dd v (flagsZNCV v (0 < x.toNat) (outOfRange 32 (-x.toInt)))))) ∧
    (Issues s c k (.abs dd da) → v = fit 32 (srSat k.sr) x.toInt.natAbs → exec (.alAbs c .clean) s =
      .next (s.setCore c (k.gives dd v (flagsZNV v (outOfRange 32 x.toInt.natAbs))))) ∧
    (Issues s c k (.min dd da db) → v = min x.toInt y.toInt → exec (.alMin c .clean) s =
      .next (s.setCore c (k.gives dd v (flagsZN v)))) ∧
    (Issues s c k (.max dd da db) → v = max x.toInt y.toInt → exec (.alMax c .clean) s =
      .next (s.setCore c (k.gives dd v (flagsZN v)))) ∧
    (Issues s c k (.cmp da db) → v = fit 32 (srSat k.sr) (x.toInt - y.toInt) → exec (.alCmp c .clean) s =
      .next (s.setCore c { k.passed with
        pend := [k.flagsLeft (flagsZNCV v (x.toNat < y.toNat) (outOfRange 32 (x.toInt - y.toInt)))] })) ∧
    (Issues s c k (.and dd da db) → exec (.alAnd c .clean) s =
      .next (s.setCore c (k.gives dd (x &&& y).toInt (flagsZN (x &&& y).toInt)))) ∧
    (Issues s c k (.or dd da db) → exec (.alOr c .clean) s =
      .next (s.setCore c (k.gives dd (x ||| y).toInt (flagsZN (x ||| y).toInt)))) ∧
    (Issues s c k (.xor dd da db) → exec (.alXor c .clean) s =
      .next (s.setCore c (k.gives dd (x ^^^ y).toInt (flagsZN (x ^^^ y).toInt)))) ∧
    (Issues s c k (.not dd da) → exec (.alNot c .clean) s =
      .next (s.setCore c (k.gives dd (~~~ x).toInt (flagsZN (~~~ x).toInt)))) ∧
    (Issues s c k (.shl dd da sh) → v = fit 32 (srSat k.sr) (x.toInt * (2 ^ sh : Nat)) → exec (.alShl c .clean) s =
      .next (s.setCore c (k.gives dd v (flagsZNV v (outOfRange 32 (x.toInt * (2 ^ sh : Nat))))))) ∧
    (Issues s c k (.shr dd da sh) → v = x.toInt / (2 ^ sh : Nat) → exec (.alShr c .clean) s =
      .next (s.setCore c (k.gives dd v (flagsZN v)))) ∧
    (Issues s c k (.lsr dd da sh) → exec (.alLsr c .clean) s =
      .next (s.setCore c (k.gives dd (x >>> sh).toInt (flagsZN (x >>> sh).toInt)))) ∧
    (Issues s c k (.rshr dd da sh) → v = dropBits (srRnd k.sr) sh x.toInt → exec (.alRshr c .clean) s =
      .next (s.setCore c (k.gives dd v (flagsZN v)))) ∧
    (Issues s c k (.shlv dd da db) → v = fit 32 (srSat k.sr) (x.toInt * (2 ^ (y.toNat % 32) : Nat)) →
      exec (.alShlv c .clean) s =
        .next (s.setCore c (k.gives dd v (flagsZNV v (outOfRange 32 (x.toInt * (2 ^ (y.toNat % 32) : Nat))))))) ∧
    (Issues s c k (.shrv dd da db) → v = x.toInt / (2 ^ (y.toNat % 32) : Nat) → exec (.alShrv c .clean) s =
      .next (s.setCore c (k.gives dd v (flagsZN v)))) ∧
    (Issues s c k (.mov dd da) → exec (.alMov c .clean) s =
      .next (s.setCore c { k.passed with d := k.d.setIfInBounds dd x })) ∧
    (Issues s c k (.norm dd da) → exec (.alNorm c .clean) s =
      .next (s.setCore c (k.gives dd (normCount x) (flagsZ (normCount x))))) ∧
    (Issues s c k (.addi dd da n) → v = fit 32 (srSat k.sr) (x.toInt + (imm16 n).toInt) → exec (.alAddi c .clean) s =
      .next (s.setCore c (k.gives dd v (flagsZNCV v (2 ^ 32 ≤ x.toNat + (imm16 n).toNat)
        (outOfRange 32 (x.toInt + (imm16 n).toInt)))))) ∧
    (Issues s c k (.cmpi da n) → v = fit 32 (srSat k.sr) (x.toInt - (imm16 n).toInt) → exec (.alCmpi c .clean) s =
      .next (s.setCore c { k.passed with pend := [k.flagsLeft (flagsZNCV v (x.toNat < (imm16 n).toNat)
        (outOfRange 32 (x.toInt - (imm16 n).toInt)))] })) ∧
    (Issues s c k (.ldi dd n) → exec (.alLdi c .clean) s =
      .next (s.setCore c { k.passed with d := k.d.setIfInBounds dd (imm16 n) })) ∧
    (Issues s c k (.ldi32 dd w) → exec (.alLdi32 c .clean) s =
      .next (s.setCore c { k.passed with d := k.d.setIfInBounds dd w })) ∧
    -- NORM counts the bits below the sign bit that equal it; results saturate or wrap, and rounding follows SR.RND
    (normCount 0#32 = 31 ∧ normCount 1#32 = 30 ∧ normCount 0x7FFFFFFF#32 = 0 ∧ normCount 0xFFFFFFFF#32 = 31) ∧
    (∀ e : Int, -(2 ^ 31) ≤ e → e < 2 ^ 31 → fit 32 true e = e ∧ outOfRange 32 e = false) ∧
    (∀ e : Int, 2 ^ 31 ≤ e → fit 32 true e = 2 ^ 31 - 1 ∧ outOfRange 32 e = true) ∧
    (∀ e : Int, e < -(2 ^ 31) → fit 32 true e = -(2 ^ 31) ∧ outOfRange 32 e = true)

/-- Moves and address registers (R182, R211, R213, R216, R221): AL_MOVS, AL_SETA, AL_ADDP. Loads and stores of a core
(R167, R177, R202, R211 to R216, R226): AL_LD, AL_ST, AL_LDS, AL_STS, AL_LDQ, AL_STQ, AL_DLS. -/
def Obligations.AddressesAndMemory : Prop :=
  (∀ (c : Fin 64) (s : State) (k : Core) (dx n v : Nat) (l : NLoc),
     (Issues s c k (.movs true dx l) → exec (.alMovs c .clean) s =
       .next (s.setCore c { k.passed with d := k.d.setIfInBounds dx (k.specRead l) })) ∧
     -- an address register is written after three cycles, SR after two, the others after one
     (Issues s c k (.movs false dx (.p n)) → exec (.alMovs c .clean) s =
       .next (s.setCore c { k.passed with pend := [⟨.p n, (k.dReg dx).toNat, 2, false, k.cyc⟩] })) ∧
     (Issues s c k (.movs false dx .sr) → exec (.alMovs c .clean) s =
       .next (s.setCore c { k.passed with pend := [⟨.sr, (k.dReg dx).toNat, 1, false, k.cyc⟩] })) ∧
     (Issues s c k (.movs false dx .lr) → exec (.alMovs c .clean) s =
       .next (s.setCore c { k.passed with lr := BitVec.ofNat 14 (k.dReg dx).toNat })) ∧
     (Issues s c k (.movs false dx .ipc) → exec (.alMovs c .clean) s =
       .next (s.setCore c { k.passed with ipc := BitVec.ofNat 14 (k.dReg dx).toNat })) ∧
     (Issues s c k (.seta 0 n v) → exec (.alSeta c .clean) s =
       .next (s.setCore c { k.passed with pend := [⟨.p n, v, 2, false, k.cyc⟩] })) ∧
     (Issues s c k (.seta 1 n v) → exec (.alSeta c .clean) s =
       .next (s.setCore c { k.passed with pend := [⟨.b n, v, 2, false, k.cyc⟩] })) ∧
     (Issues s c k (.seta 2 n v) → exec (.alSeta c .clean) s =
       .next (s.setCore c { k.passed with pend := [⟨.l n, v, 2, false, k.cyc⟩] })) ∧
     (Issues s c k (.seta 3 n v) → exec (.alSeta c .clean) s =
       .next (s.setCore c { k.passed with pend := [⟨.m n, v, 2, false, k.cyc⟩] })) ∧
     (Issues s c k (.addp n v) → exec (.alAddp c .clean) s = .next (s.setCore c { k.passed with
       p := k.p.setIfInBounds n (BitVec.ofNat 16 (k.step n (sgnVal 16 v))) })) ∧
     -- a step of a pointer without a circular buffer wraps at 16 bits; with one it stays in the buffer
     (∀ x : Int, k.lReg n = 0 → (k.step n x : Int) = ((k.pReg n : Int) + x) % 65536) ∧
     (∀ x : Int, k.lReg n ≠ 0 → k.bReg n + k.lReg n ≤ 65536 →
       k.bReg n ≤ k.step n x ∧ k.step n x < k.bReg n + k.lReg n)) ∧
  (∀ (c : Fin 64) (s : State) (k : Core) (r : Nat) (l : NLoc) (o : MemOp) (a : Nat) (w : Word),
     a = k.memAddr o → w = k.readWord c s.needle.tag o.y a →
     -- a load: the word arrives after two cycles, the pointer moves after one, a read of NX_DBELL clears it
     (Issues s c k (.ld r o) → badWord o.y a = false → exec (.alLd c .clean) s =
       .next (s.setCore c { ((k.pointed o).afterRead o.y a).passed with
         pend := [⟨.d r, w.toNat, 1, false, k.cyc⟩] })) ∧
     (Issues s c k (.lds l o) → badWord o.y a = false → specLoadLatency l ≠ 1 → exec (.alLds c .clean) s =
       .next (s.setCore c { ((k.pointed o).afterRead o.y a).passed with
         pend := [⟨l, w.toNat, specLoadLatency l - 1, false, k.cyc⟩] })) ∧
     (Issues s c k (.lds .lr o) → badWord o.y a = false → exec (.alLds c .clean) s =
       .next (s.setCore c { ((k.pointed o).afterRead o.y a).passed with lr := BitVec.ofNat 14 w.toNat })) ∧
     -- a store: memory at once; an I/O register after two cycles
     (Issues s c k (.st r o) → badWord o.y a = false → o.y = true ∨ a < 0x8100 → exec (.alSt c .clean) s =
       .next (s.setCore c ((k.pointed o).writeWord o.y a (k.dReg r)).passed)) ∧
     (Issues s c k (.st r o) → badWord o.y a = false → o.y = false → 0x8100 ≤ a → exec (.alSt c .clean) s =
       .next (s.setCore c { (k.pointed o).passed with pend := [⟨.nx a, (k.dReg r).toNat, 1, false, k.cyc⟩] })) ∧
     (Issues s c k (.sts l o) → badWord o.y a = false → o.y = true ∨ a < 0x8100 → exec (.alSts c .clean) s =
       .next (s.setCore c ((k.pointed o).writeWord o.y a (k.specRead l)).passed)) ∧
     -- outside the map an access traps with cause ADDR
     (Issues s c k (.ld r o) → badWord o.y a = true → exec (.alLd c .clean) s = .next (s.trapCore c 3)) ∧
     (Issues s c k (.st r o) → badWord o.y a = true → exec (.alSt c .clean) s = .next (s.trapCore c 3)) ∧
     (∀ b, (badWord true b = true ↔ 0x8800 ≤ b) ∧ (badWord false b = true ↔ 0x8120 ≤ b)) ∧
     -- quad accesses: four words, none of them an I/O register
     (Issues s c k (.ldq r o) → badQuad o.y (k.quadAddrs o) = false → exec (.alLdq c .clean) s =
       .next (s.setCore c { (k.pointed o).passed with pend := (List.range 4).map (fun j =>
         ⟨.d (r + j), (k.readWord c s.needle.tag o.y ((k.quadAddrs o).getD j 0)).toNat, 1, false, k.cyc⟩) })) ∧
     (Issues s c k (.stq r o) → badQuad o.y (k.quadAddrs o) = false → exec (.alStq c .clean) s =
       .next (s.setCore c (((k.quadAddrs o).zip ((List.range 4).map (fun j => k.dReg (r + j)))).foldl
         (fun (t : Core) e => t.writeWord o.y e.1 e.2) (k.pointed o)).passed)) ∧
     (Issues s c k (.ldq r o) → badQuad o.y (k.quadAddrs o) = true → exec (.alLdq c .clean) s = .next (s.trapCore c 3)) ∧
     -- a dual access: both sides with the core as it is at issue
     (∀ p : DualOp, Issues s c k (.dls p) → badWord false (k.memAddr p.x) = false → badWord true (k.memAddr p.yy) = false →
       exec (.alDls c .clean) s = .next (s.setCore c
         (k.after (k.side (k.side k c s.needle.tag p.x p.xst p.xd) c s.needle.tag p.yy p.yst p.yd)))) ∧
     (∀ p : DualOp, Issues s c k (.dls p) → badWord false (k.memAddr p.x) = true →
       exec (.alDls c .clean) s = .next (s.trapCore c 3)) ∧
     -- a word that is stored is read back, and a store changes no other word of its space
     (∀ (t : Core) b v, b < 0x8000 → (t.writeWord true b v).readWord c s.needle.tag true b = v ∧
       (t.writeWord false b v).readWord c s.needle.tag false b = v) ∧
     (∀ (t : Core) y b b' v, b < 0x8000 → b' < 0x8000 → b' ≠ b →
       (t.writeWord y b v).readWord c s.needle.tag y b' = t.readWord c s.needle.tag y b' ∧
       (t.writeWord y b v).readWord c s.needle.tag (!y) b' = t.readWord c s.needle.tag (!y) b'))

/-- Multiply-accumulates (R193, R214, R222, R226): AL_MAC, AL_MSU, AL_MPY, AL_MPYN, their quad forms from D registers
and from memory, AL_MACDL. Accumulator functions and extracts (R193, R194, R223, R224): AL_ACLR to AL_ASHR, AL_EXT,
AL_QEXT, AL_QEXTS. -/
def Obligations.AccumulatorInstructions : Prop :=
  (∀ (c : Fin 64) (s : State) (k : Core) (an da db : Nat) (bc : Bool) (o : MacmOp) (p : DualOp) (m : Int),
     m = (k.dReg da).toInt * (k.dReg db).toInt →
     -- one lane: the accumulator with or without the product or its negative, seen by MACs at once and by others after three cycles
     (Issues s c k (.mac 0 an da db) → exec (.alMac c .clean) s = .next (s.setCore c { k.passed with pend :=
       [⟨.acc an, pattern 72 (fit 72 (srSat k.sr) (k.accO an + m)), 2, true, k.cyc⟩,
        k.flagsLeft (flagsV (outOfRange 72 (k.accO an + m)))] })) ∧
     (Issues s c k (.mac 1 an da db) → exec (.alMsu c .clean) s = .next (s.setCore c { k.passed with pend :=
       [⟨.acc an, pattern 72 (fit 72 (srSat k.sr) (k.accO an - m)), 2, true, k.cyc⟩,
        k.flagsLeft (flagsV (outOfRange 72 (k.accO an - m)))] })) ∧
     (Issues s c k (.mac 2 an da db) → exec (.alMpy c .clean) s = .next (s.setCore c { k.passed with pend :=
       [⟨.acc an, pattern 72 (fit 72 (srSat k.sr) m), 2, true, k.cyc⟩, k.flagsLeft (flagsV (outOfRange 72 m))] })) ∧
     (Issues s c k (.mac 3 an da db) → exec (.alMpyn c .clean) s = .next (s.setCore c { k.passed with pend :=
       [⟨.acc an, pattern 72 (fit 72 (srSat k.sr) (-m)), 2, true, k.cyc⟩, k.flagsLeft (flagsV (outOfRange 72 (-m)))] })) ∧
     -- four lanes: lane j goes to accumulator j; with BC the second operand is the same in every lane
     (∀ ls, ls = [0, 1, 2, 3].map (fun j => (j, k.dReg (da + j), k.dReg (if bc = true then db else db + j))) →
       (Issues s c k (.qmac 0 da db bc) → exec (.alQmac c .clean) s = .next (s.setCore c (k.after (k.lanes 0 ls)))) ∧
       (Issues s c k (.qmac 1 da db bc) → exec (.alQmsu c .clean) s = .next (s.setCore c (k.after (k.lanes 1 ls)))) ∧
       (Issues s c k (.qmac 2 da db bc) → exec (.alQmpy c .clean) s = .next (s.setCore c (k.after (k.lanes 2 ls)))) ∧
       (Issues s c k (.qmac 3 da db bc) → exec (.alQmpyn c .clean) s = .next (s.setCore c (k.after (k.lanes 3 ls))))) ∧
     -- the same with operands from X and Y memory
     (∀ xs ys ls, xs = k.quadAddrs ⟨false, none, o.xp, o.xam⟩ →
       ys = (if o.bc = true then List.replicate 4 (k.memAddr ⟨true, none, o.yp, o.yam⟩)
         else k.quadAddrs ⟨true, none, o.yp, o.yam⟩) →
       badQuad false xs = false → badQuad true ys = false →
       ls = (List.range 4).map (fun j => (j, k.readWord c s.needle.tag false (xs.getD j 0),
         k.readWord c s.needle.tag true (ys.getD j 0))) →
       (Issues s c k (.qmacm 0 o) → exec (.alQmacm c .clean) s = .next (s.setCore c (k.after
         (k.update (k.update (k.lanes 0 ls) ⟨false, none, o.xp, o.xam⟩) ⟨true, none, o.yp, o.yam⟩)))) ∧
       (Issues s c k (.qmacm 1 o) → exec (.alQmsum c .clean) s = .next (s.setCore c (k.after
         (k.update (k.update (k.lanes 1 ls) ⟨false, none, o.xp, o.xam⟩) ⟨true, none, o.yp, o.yam⟩)))) ∧
       (Issues s c k (.qmacm 2 o) → exec (.alQmpym c .clean) s = .next (s.setCore c (k.after
         (k.update (k.update (k.lanes 2 ls) ⟨false, none, o.xp, o.xam⟩) ⟨true, none, o.yp, o.yam⟩)))) ∧
       (Issues s c k (.qmacm 3 o) → exec (.alQmpynm c .clean) s = .next (s.setCore c (k.after
         (k.update (k.update (k.lanes 3 ls) ⟨false, none, o.xp, o.xam⟩) ⟨true, none, o.yp, o.yam⟩))))) ∧
     -- a MAC beside a dual access
     (∀ op u, Issues s c k (.macdl op an da db p) → badWord false (k.memAddr p.x) = false →
       badWord true (k.memAddr p.yy) = false → u = k.lanes op [(an, k.dReg da, k.dReg db)] →
       exec (.alMacdl c .clean) s = .next (s.setCore c
         (k.after (k.side (k.side u c s.needle.tag p.x p.xst p.xd) c s.needle.tag p.yy p.yst p.yd)))) ∧
     -- a lane
     (∀ (t : Core) a b, t.lane 0 an a b = t.accM an + a.toInt * b.toInt ∧ t.lane 1 an a b = t.accM an - a.toInt * b.toInt ∧
       t.lane 2 an a b = a.toInt * b.toInt ∧ t.lane 3 an a b = -(a.toInt * b.toInt)) ∧
     (∀ (t : Core) op ls, t.lanes op ls = ((ls.map (fun e => (e.1, t.lane op e.1 e.2.1 e.2.2))).foldl
       (fun (u : Core) e => u.postMac e.1 (fit 72 (srSat t.sr) e.2)) t).postFlags
         (flagsV (ls.any (fun e => outOfRange 72 (t.lane op e.1 e.2.1 e.2.2)))))) ∧
  (∀ (c : Fin 64) (s : State) (k : Core) (an a2 dd sh : Nat) (o : MemOp) (e : Int) (t : Core),
     t = { k.passed with pend := [⟨.acc an, pattern 72 (fit 72 (srSat k.sr) e), 2, false, k.cyc⟩,
       k.flagsLeft (flagsZNV (fit 72 (srSat k.sr) e) (outOfRange 72 e))] } →
     (Issues s c k (.aclr an) → e = 0 → exec (.alAclr c .clean) s = .next (s.setCore c t)) ∧
     (Issues s c k (.aadd an a2) → e = k.accO an + k.accO a2 → exec (.alAadd c .clean) s = .next (s.setCore c t)) ∧
     (Issues s c k (.asub an a2) → e = k.accO an - k.accO a2 → exec (.alAsub c .clean) s = .next (s.setCore c t)) ∧
     (Issues s c k (.amov an a2) → e = k.accO a2 → exec (.alAmov c .clean) s = .next (s.setCore c t)) ∧
     (Issues s c k (.aneg an) → e = -(k.accO an) → exec (.alAneg c .clean) s = .next (s.setCore c t)) ∧
     (Issues s c k (.ashl an sh) → e = k.accO an * (2 ^ sh : Nat) → exec (.alAshl c .clean) s = .next (s.setCore c t)) ∧
     (Issues s c k (.ashr an sh) → e = k.accO an / (2 ^ sh : Nat) → exec (.alAshr c .clean) s = .next (s.setCore c t)) ∧
     -- an extract drops the low bits under SR.RND and fits the rest to 32 bits
     (Issues s c k (.ext dd an sh) → e = dropBits (srRnd k.sr) sh (k.accO an) → exec (.alExt c .clean) s =
       .next (s.setCore c (k.gives dd (fit 32 (srSat k.sr) e) (flagsZNV (fit 32 (srSat k.sr) e) (outOfRange 32 e))))) ∧
     (∀ x : Nat → Int, (∀ j, x j = dropBits (srRnd k.sr) sh (k.accO j)) →
       Issues s c k (.qext dd sh) → exec (.alQext c .clean) s = .next (s.setCore c { k.passed with
         d := [0, 1, 2, 3].foldl (fun v j => v.setIfInBounds (dd + j) (BitVec.ofInt 32 (fit 32 (srSat k.sr) (x j)))) k.d,
         pend := [k.flagsLeft (flagsV ([0, 1, 2, 3].any (fun j => outOfRange 32 (x j))))] })) ∧
     -- QEXTS stores the four words beside
     (Issues s c k (.qexts dd sh o) → badQuad o.y (k.quadAddrs o) = false → ∀ u, u = ((k.quadAddrs o).zip
         ((List.range 4).map (fun j => BitVec.ofInt 32 (k.extract j sh).1))).foldl
           (fun (t : Core) e => t.writeWord o.y e.1 e.2) (k.update (k.quadExtract dd sh) o) →
       exec (.alQexts c .clean) s = .next (s.setCore c (k.after u))) ∧
     (∀ n (x : Int), n ≠ 0 → dropBits 0 n x = (x + (2 ^ (n - 1) : Nat)) / (2 ^ n : Nat) ∧ dropBits 2 n x = x / (2 ^ n : Nat) ∧
       (0 ≤ x → dropBits 3 n x = x / (2 ^ n : Nat)) ∧ (x < 0 → dropBits 3 n x = -(-x / (2 ^ n : Nat)))) ∧
     (∀ rnd (x : Int), dropBits rnd 0 x = x))

/-- System and flow instructions, REP and interrupts (R169, R181, R184 to R190, R217, R220, R225): AL_NEEDLE_NOP, AL_WAITS,
AL_HALT, AL_BR, AL_CALL, AL_JR, AL_RET, AL_RTI, AL_CALLR, AL_REP_IMM, AL_REP_REG, INTERRUPT_ENTRY, WAITS_END. -/
def Obligations.FlowInstructions : Prop :=
  ∀ (c : Fin 64) (s : State) (k : Core) (n dx cond target : Nat),
    (Issues s c k .nop → exec (.alNeedleNop c .clean) s = .next (s.setCore c k.passed)) ∧
    (Issues s c k .halt → exec (.alHalt c .clean) s =
      .next (s.setCore c { k.passed with halting := true, haltAtClose := true })) ∧
    -- WAITS stays at its address while its port is BUSY
    (Issues s c k (.waits n) → (k.sp n).busy = false → exec (.alWaits c .clean) s = .next (s.setCore c k.passed)) ∧
    (Issues s c k (.waits n) → (k.sp n).busy = true → exec (.alWaits c .clean) s =
      .next (s.setCore c { k.passed with pc := k.pc, st := .waiting, wait := .waits n })) ∧
    (∀ stall, k = s.core c → k.st = .waiting → k.wait = .waits n → (k.sp n).busy = false → k.takesIrq = false →
      exec (.waitsEnd c stall) s = .next ((s.setCore c { k with
        st := .running, wait := .none, pc := (k.pc + 1) % 16384 }).stall c stall)) ∧
    (∀ stall, k = s.core c → k.wait = .waits n → (k.sp n).busy = true → exec (.waitsEnd c stall) s = .next s) ∧
    -- a flow instruction has two delay slots, whether it is taken or not
    (Issues s c k (.br cond target) → condHolds k.sr cond = some true → exec (.alBr c .clean) s =
      .next (s.setCore c { k.passed with flow := .to target, slots := 2 })) ∧
    (Issues s c k (.br cond target) → condHolds k.sr cond = some false → exec (.alBr c .clean) s =
      .next (s.setCore c { k.passed with flow := .to k.returnAddr, slots := 2 })) ∧
    (Issues s c k (.call target) → exec (.alCall c .clean) s = .next (s.setCore c { k.passed with
      flow := .to target, slots := 2, lr := BitVec.ofNat 14 k.returnAddr })) ∧
    (Issues s c k (.callr dx) → exec (.alCallr c .clean) s = .next (s.setCore c { k.passed with
      flow := .to ((k.dReg dx).toNat % 16384), slots := 2, lr := BitVec.ofNat 14 k.returnAddr })) ∧
    (Issues s c k (.jr dx) → exec (.alJr c .clean) s = .next (s.setCore c { k.passed with
      flow := .to ((k.dReg dx).toNat % 16384), slots := 2 })) ∧
    (Issues s c k .ret → exec (.alRet c .clean) s = .next (s.setCore c { k.passed with
      flow := .to k.lr.toNat, slots := 2 })) ∧
    (Issues s c k .rti → exec (.alRti c .clean) s = .next (s.setCore c { k.passed with flow := .rti, slots := 2 })) ∧
    -- the second delay slot ends at the target; RTI restores SR and goes on at IPC
    (∀ old t : Core, ∀ w a, old.rep = 0 → old.slots = 1 → old.flow = .to a →
      Core.advance old t w false = { t with rep := 0, pc := a % 16384, flow := .none, slots := 0 }) ∧
    (∀ old t : Core, ∀ w, old.rep = 0 → old.slots = 1 → old.flow = .rti → Core.advance old t w false =
      { t with rep := 0, pc := t.ipc.toNat, sr := srWrite t.istat.toNat, flow := .none, slots := 0 }) ∧
    (∀ old t : Core, ∀ w, old.rep = 0 → old.slots = 2 → Core.advance old t w false =
      { t with rep := 0, pc := (old.pc + w) % 16384, slots := 1 }) ∧
    -- the conditions of BR
    (∀ sr : Word, condHolds sr 0 = some true ∧ condHolds sr 1 = some (sr.getLsbD 0) ∧ condHolds sr 3 = some (sr.getLsbD 1) ∧
      condHolds sr 5 = some (!sr.getLsbD 1 && !sr.getLsbD 0) ∧ condHolds sr 7 = some (sr.getLsbD 2) ∧
      condHolds sr 9 = some (sr.getLsbD 3) ∧ condHolds sr 11 = some (sr.getLsbD 4) ∧ condHolds sr 12 = none) ∧
    -- REP: the next instruction issues n times; a count of zero in a register skips it
    (Issues s c k (.repImm n) → n ≠ 0 → exec (.alRepImm c .clean) s = .next (s.setCore c { k.passed with rep := n })) ∧
    (Issues s c k (.repReg dx) → (k.dReg dx).toNat % 65536 = n → n ≠ 0 →
      exec (.alRepReg c .clean) s = .next (s.setCore c { k.passed with rep := n })) ∧
    (Issues s c k (.repReg dx) → (k.dReg dx).toNat % 65536 = 0 → exec (.alRepReg c .clean) s =
      .next (s.setCore c { k.passed with
        pc := (k.passed.pc + nWidth (k.fetch k.passed.pc)) % 16384 })) ∧
    (∀ old t : Core, ∀ w, 1 < old.rep → Core.advance old t w false = { t with rep := old.rep - 1 }) ∧
    -- interrupt entry: IPC and ISTAT save the PC and SR, IE falls, the request is taken, and six cycles pass
    (∀ src stall t, k = s.core c → k.st = .running → k.takesIrq = true → k.irqNext = some src → src ≠ 0 →
      t = { k with ipc := BitVec.ofNat 14 k.pc, istat := k.sr, sr := k.sr &&& ~~~ 0x100#32,
                   irqPend := k.irqPend &&& (15 - 2 ^ src), pc := irqVector src, st := .running, wait := .none } →
      exec (.interruptEntry c stall) s = .next ((s.setCore c t).stall c 6)) ∧
    -- a BLOCK interrupt shows the longest latency of its requests
    (∀ stall t (u : State), k = s.core c → k.st = .running → k.takesIrq = true → k.irqNext = some 0 →
      t = { k with ipc := BitVec.ofNat 14 k.pc, istat := k.sr, sr := k.sr &&& ~~~ 0x100#32,
                   irqPend := k.irqPend &&& 14, pc := 4, st := .running, wait := .none, blockAge := 0 } →
      u = (s.setCore c t).stall c 6 → exec (.interruptEntry c stall) s =
        .next (if u.fld (R.NEEDLE_LAT_MAX c) F.NEEDLE_LAT_MAX_CYCLES < min 131071 (k.blockAge + 6) then
          u.setFld (R.NEEDLE_LAT_MAX c) F.NEEDLE_LAT_MAX_CYCLES (min 131071 (k.blockAge + 6)) else u)) ∧
    (∀ stall, k = s.core c → k.takesIrq = false → exec (.interruptEntry c stall) s = .next s) ∧
    (irqVector 0 = 4 ∧ irqVector 1 = 8 ∧ irqVector 2 = 8 ∧ irqVector 3 = 12)

/-- WAIT stalls the core until some enabled source is pending (R191): AL_WAIT, WAIT_END, and INTERRUPT_ENTRY out of it. -/
def Obligations.WaitInstruction : Prop :=
  ∀ (c : Fin 64) (s : State) (k : Core) (stall : Nat),
    -- no enabled source is pending: the core stalls behind the WAIT
    (Issues s c k .wait → k.irqNext = none → exec (.alWait c .clean) s =
      .next (s.setCore c { k.passed with st := .waiting, wait := .wait })) ∧
    (k = s.core c → k.st = .waiting → k.irqNext = none →
      exec (.waitEnd c stall) s = .next s ∧ exec (.interruptEntry c stall) s = .next s) ∧
    -- one is pending already: the WAIT costs one cycle
    (Issues s c k .wait → k.irqNext ≠ none → exec (.alWait c .clean) s = .next (s.setCore c k.passed)) ∧
    -- SR.IE = 1: the core takes it, and the address that RTI returns to is that behind the WAIT
    (∀ src (u : State) k' t, k = s.core c → k.st = .waiting → k.halting = false → srIe k.sr = true → k.irqNext = some src →
      src ≠ 0 → u = s.stall c stall → k' = u.core c →
      t = { k' with ipc := BitVec.ofNat 14 k'.pc, istat := k'.sr, sr := k'.sr &&& ~~~ 0x100#32,
                    irqPend := k'.irqPend &&& (15 - 2 ^ src), pc := irqVector src, st := .running, wait := .none } →
      exec (.interruptEntry c stall) s = .next ((u.setCore c t).stall c 6)) ∧
    -- SR.IE = 0: execution goes on behind the WAIT, and the source stays pending
    (k = s.core c → k.st = .waiting → k.wait = .wait → k.irqNext ≠ none → srIe k.sr = false → exec (.waitEnd c stall) s =
      .next ((s.setCore c { k with st := .running, wait := .none }).stall c stall))

/-- Windows, frames and core commands (R172 to R176, R195, R196, R198): NEEDLE_WINDOW_OPEN, NEEDLE_WINDOW_CLOSE, NX_DONE_STORE,
NX_TOHOST_STORE, NX_DBELL_READ, NEEDLE_CTRL_RUN, NEEDLE_CTRL_HALT. -/
def Obligations.WindowsAndFrames : Prop :=
  (∀ s (u : State), u = { s with needle := { s.needle with tag := (s.msc / 8 - 1) % 65536 } } →
    exec .needleWindowOpen s = .next ((List.range 64).foldl State.openCore u)) ∧
  -- a running core with nothing queued: new input, a fresh cycle count, no frame ready, and BLOCK pending
  (∀ (s : State) c k, k = s.core c → k.st = .running → k.queue = [] → k.bells = [] → k.irqPend % 2 = 0 → s.openCore c =
    s.setCore c { k with inF := s.inputFrame c, cyc := 0, ready := false, irqPend := k.irqPend ||| 1, blockAge := 0,
                         sp0 := { k.sp0 with started := 0 }, sp1 := { k.sp1 with started := 0 } }) ∧
  -- a core in the window of its start: every register at its reset value, at word 0; memories and buffers keep theirs
  (∀ (s : State) c k, k = s.core c → k.st = .starting → k.startIn ≤ 1 → k.queue = [] → ∃ t : Core,
    s.openCore c = s.setCore c t ∧ t.st = .running ∧ t.pc = 0 ∧ t.d = ({} : Core).d ∧ t.acc = ({} : Core).acc ∧
    t.p = ({} : Core).p ∧ t.b = ({} : Core).b ∧ t.l = ({} : Core).l ∧ t.m = ({} : Core).m ∧ t.sr = 0x20#32 ∧ t.pend = [] ∧
    t.irqPend % 2 = 1 ∧ t.xmem = k.xmem ∧ t.ymem = k.ymem ∧ t.pmem = k.pmem ∧ t.sp0.buf = k.sp0.buf ∧ t.sp1.buf = k.sp1.buf) ∧
  (∀ (s : State) c k, k = s.core c → k.st = .starting → 1 < k.startIn → ∃ t : Core, s.openCore c = s.setCore c t ∧
    t.st = .starting ∧ t.startIn = k.startIn - 1) ∧
  -- the close of a window: a frame that is ready is delivered and the buffers change places
  (∀ (n : BitVec 17) s (u : State), u = s.setFld R.NEEDLE_WIN_CYC F.NEEDLE_WIN_CYC_CYCLES n.toNat →
    exec (.needleWindowClose n) s = .next ((List.range 64).foldl State.closeCore u)) ∧
  (∀ (s : State) c k, k = s.core c → k.haltAtClose = false → k.active = true → k.ready = true → k.missed = false →
    s.closeCore c = s.setCore c { k with deliver := k.outA, missed := false, fadeOut := false,
                                         outA := k.outB, outB := k.outA }) ∧
  -- a missed frame counts, and its outputs fade out from their last sample, then are zero
  (∀ (s : State) c k, k = s.core c → c < 32 → k.haltAtClose = false → k.active = true → k.ready = false →
    k.readyOnce = true → s.closeCore c = (((s.setCore c { k with
      deliver := if k.missed = true then [] else k.fadeOutFrame, missed := true, fadeOut := false,
      outA := k.outB, outB := k.outA }).count (R.NEEDLE_OVR_CNT c)).setBitAt R.NEEDLE_OVR_LO c true).raise
        FS.NEEDLE_OVERRUN c 0) ∧
  -- a halt acts at the close
  (∀ (s : State) c k, k = s.core c → k.haltAtClose = true → s.closeCore c = s.setCore c { k with
    deliver := k.fadeOutFrame, st := .halted, haltPc := k.pc, haltAtClose := false, halting := false, pend := [],
    flow := .none, slots := 0, rep := 0, wait := .none, startIn := 0, fadeOut := false, missed := false,
    outA := k.outB, outB := k.outA }) ∧
  -- a store of the window's tag marks the frame ready
  (∀ (c : Fin 64) (v : Word) s k, k = s.core c → k.active = true → v.toNat % 65536 = s.needle.tag → k.ready = false →
    ∃ u : State, u = (s.setCore c { k with ready := true, readyOnce := true }).setFld (R.NEEDLE_CYC_LAST c)
      F.NEEDLE_CYC_LAST_CYCLES (min 131071 k.cyc) ∧
    exec (.nxDoneStore c v) s = .next (if u.fld (R.NEEDLE_CYC_MAX c) F.NEEDLE_CYC_MAX_CYCLES < min 131071 k.cyc then
      u.setFld (R.NEEDLE_CYC_MAX c) F.NEEDLE_CYC_MAX_CYCLES (min 131071 k.cyc) else u)) ∧
  (∀ (c : Fin 64) (v : Word) s, (s.core c).active = true →
    exec (.nxTohostStore c v) s = .next (s.wrN (R.NEEDLE_TOHOST c) v.toNat)) ∧
  (∀ (c : Fin 64) s, (s.core c).active = true →
    exec (.nxDbellRead c) s = .next (s.setCore c { s.core c with dbell := 0#32 })) ∧
  (∀ (c : Fin 64) v s, (s.core c).active = false → exec (.nxDoneStore c v) s = .next s ∧
    exec (.nxTohostStore c v) s = .next s ∧ exec (.nxDbellRead c) s = .next s) ∧
  -- RUN and HALT
  (∀ (c : Fin 64) s k, k = s.core c → k.st = .halted ∨ k.st = .trapped → exec (.needleCtrlRun c) s =
    .next (s.setCore c { k with st := .starting, cause := 0, startIn := if s.paired = true then 2 else 1 })) ∧
  (∀ (c : Fin 64) s, (s.core c).st ≠ .halted → (s.core c).st ≠ .trapped →
    exec (.needleCtrlRun c) s = .next (s.flag R.NEEDLE_FLAGS F.NEEDLE_FLAGS_CMD_IGN) ∧
    exec (.needleCtrlHalt c) s = .next (s.setCore c { s.core c with haltAtClose := true })) ∧
  (∀ (c : Fin 64) s, (s.core c).st = .halted ∨ (s.core c).st = .trapped → exec (.needleCtrlHalt c) s = .next s)

/-- A store to NX_DONE whose tag is not that of the window is ignored and counted; a second matching store in the same window
has no further effect (R174). -/
def Obligations.DoneTags : Prop :=
  ∀ (c : Fin 64) (v : Word) (s : State), (s.core c).active = true →
    (v.toNat % 65536 ≠ s.needle.tag → ∃ t : State, exec (.nxDoneStore c v) s = .next t ∧
      OnlyRegs [R.NEEDLE_LATE_CNT c] s t ∧
      t.rd (R.NEEDLE_LATE_CNT c) = min 0xFFFFFFFF (s.rd (R.NEEDLE_LATE_CNT c) + 1)) ∧
    (v.toNat % 65536 = s.needle.tag → ∃ t : State, exec (.nxDoneStore c v) s = .next t ∧ (t.core c).ready = true ∧
      ∀ w : Word, w.toNat % 65536 = s.needle.tag → exec (.nxDoneStore c w) t = .next t)

/-- Stream ports and host access (R177 to R180, R203 to R206): SP_GO, SP_SWAP, SP_TRANSFER_DONE, NEEDLE_MEM_WRITE,
NEEDLE_MEM_READ, NEEDLE_DOORBELL_WRITE, NEEDLE_TOHOST_READ. -/
def Obligations.StreamPortsAndHost : Prop :=
  (∀ (c : Fin 64) (p : Fin 2) s k q, k = s.core c → q = k.sp p → k.active = true →
    -- while BUSY, GO and SWAP are ignored and set OVR
    (q.busy = true → exec (.spGo c p) s = .next (s.setCore c (k.setSp p { q with ovr := true })) ∧
      exec (.spSwap c p) s = .next (s.setCore c (k.setSp p { q with ovr := true }))) ∧
    (q.busy = false → exec (.spSwap c p) s = .next (s.setCore c (k.setSp p { q with own := !q.own }))) ∧
    (q.busy = false → SpPort.refused q s.dramUsable = false → exec (.spGo c p) s = .next (s.setCore c (k.setSp p { q with
      done := false, err := false, ovr := false, unbound := decide (2 ≤ q.started), started := q.started + 1,
      job := some ⟨q.dir, q.len, q.addr, q.rbase, q.rlen⟩ }))) ∧
    -- a transfer that is refused sets ERR and is raised
    (q.busy = false → SpPort.refused q s.dramUsable = true → ∃ u : State,
      u = s.setCore c (k.setSp p { q with done := false, err := false, ovr := false, unbound := false }) ∧
      exec (.spGo c p) s = .next (u.spErr c p))) ∧
  (∀ (c : Fin 64) p s, (s.core c).active = false → exec (.spGo c p) s = .next s ∧ exec (.spSwap c p) s = .next s) ∧
  (∀ q n, q.len = 0 ∨ 1024 < q.len → SpPort.refused q n = true) ∧
  (∀ q n, 1 ≤ q.len → q.len ≤ 1024 → q.rlen = 0 → (SpPort.refused q n = true ↔ n < q.addr + 4 * q.len)) ∧
  -- a transfer that completes: words moved, the address behind them, DONE, and the request of the port
  (∀ (c : Fin 64) (p : Fin 2) s j (u : State) k, ((s.core c).sp p).job = some j → u = s.spMove c p j [] →
    k = u.core c → exec (.spTransferDone c p []) s = .next (u.setCore c { k.setSp p { k.sp p with
      job := none, done := true, addr := j.ring (j.addr + 4 * j.len) } with irqPend := k.irqPend ||| 2 ^ (1 + p.val) })) ∧
  (∀ (c : Fin 64) p bad s, ((s.core c).sp p).job = none → exec (.spTransferDone c p bad) s = .next s) ∧
  -- the host's window: an access at the address register, which steps with INC
  (∀ (c : Fin 64) (v : Word) s, exec (.needleMemWrite c v) s =
    .next ((s.needleWrite c (s.fld (R.NEEDLE_MEM_ADDR c) F.NEEDLE_MEM_ADDR_SPACE)
      (s.fld (R.NEEDLE_MEM_ADDR c) F.NEEDLE_MEM_ADDR_ADDR) v).memAddrStep c)) ∧
  (∀ (s : State) c, (s.bit (R.NEEDLE_MEM_ADDR c) F.NEEDLE_MEM_ADDR_INC = false → s.memAddrStep c = s) ∧
    (s.bit (R.NEEDLE_MEM_ADDR c) F.NEEDLE_MEM_ADDR_INC = true → s.memAddrStep c =
      s.setFld (R.NEEDLE_MEM_ADDR c) F.NEEDLE_MEM_ADDR_ADDR (s.fld (R.NEEDLE_MEM_ADDR c) F.NEEDLE_MEM_ADDR_ADDR + 1))) ∧
  -- P is written in a core that stands, and denied in one that runs; X and Y of a running core wait in its queue
  (∀ (s : State) c a v, (s.core c).st ≠ .halted → (s.core c).st ≠ .trapped →
    s.needleWrite c 0 a v = s.flag R.NEEDLE_FLAGS F.NEEDLE_FLAGS_P_DENIED) ∧
  (∀ (s : State) c y a v, y = 1 ∨ y = 2 → a < 0x8000 →
    ((s.core c).active = false → s.needleWrite c y a v = s.setCore c ((s.core c).hostWrite y a v)) ∧
    ((s.core c).active = true → (s.core c).queue.length < 256 → s.needleWrite c y a v = s.setCore c { s.core c with
      queue := (s.core c).queue ++ [⟨y, a, v, if s.paired = true then 2 else 1⟩] }) ∧
    ((s.core c).active = true → 256 ≤ (s.core c).queue.length → s.needleWrite c y a v =
      (s.flag R.NEEDLE_FLAGS F.NEEDLE_FLAGS_WQ_FULL).raise FS.NEEDLE_WQ_FULL c 0)) ∧
  (∀ (k : Core) y a v, y = 1 ∨ y = 2 → a < 0x8000 → (k.hostWrite y a v).hostRead y a = v) ∧
  -- a read of a core that stands gives the word; one that runs stalls for a cycle
  (∀ (c : Fin 64) m s y a, y = s.fld (R.NEEDLE_MEM_ADDR c) F.NEEDLE_MEM_ADDR_SPACE →
    a = s.fld (R.NEEDLE_MEM_ADDR c) F.NEEDLE_MEM_ADDR_ADDR → (s.core c).active = false → (y, a) ∉ (s.core c).poison →
    ∃ u : State, u = s.memAddrStep c ∧ exec (.needleMemRead c m .clean) s =
      .next { u with out := { u.out with busData := (s.core c).hostRead y a, busErr := false } }) ∧
  (∀ (c : Fin 64) (v : Word) s, exec (.needleDoorbellWrite c v) s = .next (s.setCore c { s.core c with
    bells := (s.core c).bells ++ [(v, if s.paired = true then 2 else 1)] })) ∧
  -- NEEDLE_TOHOST reads and clears
  (∀ (c : Fin 64) s, Gives (.needleTohostRead c) s fun t => t.out.busData = s.reg (R.NEEDLE_TOHOST c) ∧
    t.rd (R.NEEDLE_TOHOST c) = 0 ∧ RegsBut [R.NEEDLE_TOHOST c] s t ∧ t.needle = s.needle ∧ t.mem = s.mem)

/-! ### Dweul commands -/

/-- The steps of R490 for a command at the head of its fold (R476, R477, R490, R492): length, permission, then its own steps; a
command whose writes wait for the next block is not answered yet (R438). -/
def Obligations.DweulSteps : Prop :=
  ∀ (s : State) (op : Op) (f : Nat) (h : Hdr) (ps : List Byte) (len cls : Nat) (body : State → Cmd → State × Option Ans),
    (s.served = false → s.dweul op f h ps len body = (s, none)) ∧
    (AtHead s f h cls → h.opcode = op.code → h.length ≠ ps.length ∨ ps.length ≠ len →
      s.dweul op f h ps len body = (s.answer f h { status := 8, detail := 4 }, some 8)) ∧
    (AtHead s f h cls → h.opcode = op.code → h.length = ps.length → ps.length = len → s.notPermitted op cls ≠ 0 →
      s.dweul op f h ps len body = (s.answer f h { status := 4, detail := s.notPermitted op cls }, some 4)) ∧
    (AtHead s f h cls → h.opcode = op.code → h.length = ps.length → ps.length = len → s.notPermitted op cls = 0 →
      ∀ u a, body s ⟨f, cls, h, ps⟩ = (u, some a) →
        (Stays s u f → s.dweul op f h ps len body = (u.answer f h a, some a.status)) ∧
        (u.twin.held ≠ [] → s.dweul op f h ps len body =
          ((s.flag R.TWIN_FLAGS F.TWIN_FLAGS_DELTA_FULL).raise FS.TWIN_DELTA_FULL 0 0, none))) ∧
    -- a class below the row's is refused with DETAIL 1; a mode with DETAIL 2
    (op.gate = .always → cls < op.cls → s.notPermitted op cls = 1) ∧
    (op.gate = .always → op.cls ≤ cls → OpenMode s → s.notPermitted op cls = 0) ∧
    (op.gate = .always → op.cls ≤ cls → op.read = true → s.notPermitted op cls = 0) ∧
    (op.gate = .always → op.cls ≤ cls → s.mode = .standby → op.read = false → op.code / 256 ≠ 0x0A →
      s.notPermitted op cls = 2) ∧
    (op.gate = .always → op.cls ≤ cls → s.mode = .alarm → op.read = false → cls ≠ 3 → s.notPermitted op cls = 2) ∧
    (op.gate = .engineerInCommission → cls = 2 → s.mode ≠ .commission → s.notPermitted op cls = 2) ∧
    (op.gate = .engineerInCommission → cls < 2 → s.notPermitted op cls = 1)

/-- The System family (R27, R35, R42, R70, R499, R500): NOP, GET_INFO, SET_MODE, EVENT_CANCEL, REG_READ, REG_WRITE, FOLD_INFO,
GROUP_CANCEL. -/
def Obligations.DweulSystem : Prop :=
  ∀ (f : Fin 128) (h : Hdr) (ps : List Byte) (s : State) (cls : Nat), AtHead s f h cls → h.length = ps.length →
    (h.opcode = 0x0100 → Answered (.dwNop f h ps) s f h {} s) ∧
    (h.opcode = 0x0101 → ps.length = 0 → Answered (.dwGetInfo f h ps) s f h (okWith (s.viewWords [R.SYS_ID] ++
      le 2 (s.fld R.SYS_ENGINE_ID F.SYS_ENGINE_ID_ENGINE) ++ le 2 0 ++ le 4 s.boot.fwver ++ s.viewWords [R.SYS_MODE] ++
      le 8 s.msc)) s) ∧
    (h.opcode = 0x0106 → ps.length = 0 → Answered (.dwFoldInfo f h ps) s f h
      (okWith (s.viewWords [R.FOLD_CFG f, R.FOLD_STAT f, R.FOLD_STATUS])) s) ∧
    (∀ n, h.opcode = 0x0102 → ps.length = 12 → 2 ≤ cls → OpenMode s → n = byteAt ps 8 → n ≤ 5 → zeroAt ps 3 9 = true →
      (modeRequest s.baseMode n = false → Answered (.dwSetMode f h ps) s f h (rejected 0) s) ∧
      (∀ r, modeRequest s.baseMode n = true → r = s.enterEvent ⟨f, cls, h, ps⟩ (.mode n) (leAt ps 8 0) [] →
        Stays s r.1 f → Answered (.dwSetMode f h ps) s f h r.2 r.1)) ∧
    -- a transition that R27 names is asked for from COMMISSION, SERVICE and STANDBY only
    (∀ m n, modeRequest m n = true ↔ (m = .commission ∧ (n = 2 ∨ n = 3)) ∨ ((m = .service ∨ m = .standby) ∧ n = 1)) ∧
    -- EVENT_CANCEL: an unknown handle, another fold's event, an armed one, and one that goes
    (h.opcode = 0x0103 → ps.length = 4 → 1 ≤ cls → OpenMode s →
      (s.sched.events.find? (fun e => e.handle = leAt ps 4 0) = none →
        Answered (.dwEventCancel f h ps) s f h (rejected 0) s) ∧
      (∀ e, s.sched.events.find? (fun e => e.handle = leAt ps 4 0) = some e →
        (e.fold ≠ f.val → cls ≠ 3 → Answered (.dwEventCancel f h ps) s f h (forbidden 0) s) ∧
        (e.fold = f.val ∨ cls = 3 → s.armedAt e.fire = true →
          Answered (.dwEventCancel f h ps) s f h { status := 5 } s) ∧
        (e.fold = f.val ∨ cls = 3 → s.armedAt e.fire = false → Stays s (s.cancelEvent e) f →
          Answered (.dwEventCancel f h ps) s f h {} (s.cancelEvent e)))) ∧
    -- REG_READ and REG_WRITE: words in ascending order; below class 2 only of the unprivileged view
    (∀ t l, h.opcode = 0x0104 → ps.length = 8 → regRangeOk ⟨f, cls, h, ps⟩ = true →
      s.regReads (leAt ps 4 0) (leAt ps 2 4) 0 [] = (t, l, none, false) → Stays s t f →
      Answered (.dwRegRead f h ps) s f h (okWith (words l)) t) ∧
    (∀ t l i, h.opcode = 0x0104 → ps.length = 8 → regRangeOk ⟨f, cls, h, ps⟩ = true →
      s.regReads (leAt ps 4 0) (leAt ps 2 4) 0 [] = (t, l, some i, false) → Stays s t f →
      Answered (.dwRegRead f h ps) s f h (rejected (i % 256)) t) ∧
    (∀ t, h.opcode = 0x0105 → ps.length = 8 + 4 * leAt ps 2 4 → 2 ≤ cls → OpenMode s → regRangeOk ⟨f, cls, h, ps⟩ = true →
      s.regWrites (leAt ps 4 0) ((List.range (leAt ps 2 4)).map (fun i => leAt ps 4 (8 + 4 * i))) 0 = (t, none) →
      Stays s t f → Answered (.dwRegWrite f h ps) s f h {} t) ∧
    (h.opcode = 0x0104 → ps.length = 8 → leAt ps 2 4 = 0 ∨ 256 < leAt ps 2 4 ∨ (cls < 2 ∧ leAt ps 4 0 < 0x42000000) →
      Answered (.dwRegRead f h ps) s f h (rejected 0xFD) s) ∧
    -- GROUP_CANCEL: the events of its group and of its class or a lower one; those armed stay, and the answer is LATE
    (∀ mine gone u, h.opcode = 0x0107 → ps.length = 0 → 1 ≤ cls → OpenMode s → h.group ≠ 0 →
      mine = s.sched.events.filter (fun e => decide (e.group = h.group) && decide (e.cls ≤ cls)) →
      gone = mine.filter (fun e => !s.armedAt e.fire) → u = gone.foldl State.cancelEvent s → Stays s u f → mine ≠ [] →
      Answered (.dwGroupCancel f h ps) s f h ⟨if gone.length = mine.length then 0 else 5, 0, false,
        le 2 gone.length ++ le 2 0⟩ u)

/-- The Stitches family (R102, R116 to R119, R136, R500): STITCH_READ, STITCH_BASTE, STITCH_DIRECT, DESC_READ, DESC_BASTE,
DMAP_BASTE, SRC_ATTR_SET, METER_READ. -/
def Obligations.DweulStitches : Prop :=
  ∀ (f : Fin 128) (h : Hdr) (ps : List Byte) (s : State) (cls : Nat), AtHead s f h cls → h.length = ps.length →
    -- reads of records, with all their words sound
    (h.opcode = 0x0201 → ps.length = 12 → byteAt ps 0 ≤ 1 → byteAt ps 1 ≤ 15 → zeroAt ps 2 2 = true → 1 ≤ leAt ps 4 8 →
      leAt ps 4 8 ≤ 500 → leAt ps 4 4 + leAt ps 4 8 ≤ 65536 → s.quilt.ue = [] →
      Answered (.dwStitchRead f h ps) s f h (okWith ((List.range (leAt ps 4 8)).flatMap (fun i =>
        le 8 ((s.bankOf (byteAt ps 0)).slot (65536 * byteAt ps 1 + leAt ps 4 4 + i)).toNat))) s) ∧
    (h.opcode = 0x0204 → ps.length = 8 → byteAt ps 0 ≤ 1 → zeroAt ps 1 1 = true → zeroAt ps 2 6 = true → 1 ≤ leAt ps 2 4 →
      leAt ps 2 4 ≤ 125 → leAt ps 2 2 + leAt ps 2 4 ≤ 4096 → s.quilt.ue = [] →
      Answered (.dwDescRead f h ps) s f h (okWith ((List.range (4 * leAt ps 2 4)).flatMap (fun i =>
        le 8 (Sparse.get zeroD (s.bankOf (byteAt ps 0)).desc (4 * leAt ps 2 2 + i)).toNat))) s) ∧
    -- BASTE closed: BUSY with its flag
    (s.basteOpen = false → 1 ≤ cls → OpenMode s → Stays s s.seamBusy f →
      (h.opcode = 0x0202 → ps.length = 12 + 8 * leAt ps 4 8 → byteAt ps 0 ≤ 15 → zeroAt ps 3 1 = true → 1 ≤ leAt ps 4 8 →
        leAt ps 4 8 ≤ 500 → leAt ps 4 4 + leAt ps 4 8 ≤ 65536 → Answered (.dwStitchBaste f h ps) s f h busyState s.seamBusy) ∧
      (h.opcode = 0x0205 → ps.length = 4 + 32 * leAt ps 2 2 → 1 ≤ leAt ps 2 2 → leAt ps 2 2 ≤ 125 →
        leAt ps 2 0 + leAt ps 2 2 ≤ 4096 → Answered (.dwDescBaste f h ps) s f h busyState s.seamBusy) ∧
      (h.opcode = 0x0206 → ps.length = 4 + 4 * leAt ps 2 2 → 1 ≤ leAt ps 2 2 → leAt ps 2 2 ≤ 1000 →
        leAt ps 2 0 + leAt ps 2 2 ≤ 8192 → Answered (.dwDmapBaste f h ps) s f h busyState s.seamBusy)) ∧
    -- BASTE open: the records are written one by one
    (∀ u, s.basteOpen = true → 1 ≤ cls → OpenMode s → Stays s u f →
      (h.opcode = 0x0202 → ps.length = 12 + 8 * leAt ps 4 8 → byteAt ps 0 ≤ 15 → zeroAt ps 3 1 = true → 1 ≤ leAt ps 4 8 →
        leAt ps 4 8 ≤ 500 → leAt ps 4 4 + leAt ps 4 8 ≤ 65536 → u = (List.range (leAt ps 4 8)).foldl (fun (t : State) i =>
          t.shepSlot (65536 * byteAt ps 0 + leAt ps 4 4 + i) (leAt ps 8 (12 + 8 * i))) s →
        Answered (.dwStitchBaste f h ps) s f h {} u) ∧
      (h.opcode = 0x0205 → ps.length = 4 + 32 * leAt ps 2 2 → 1 ≤ leAt ps 2 2 → leAt ps 2 2 ≤ 125 →
        leAt ps 2 0 + leAt ps 2 2 ≤ 4096 → u = s.shepWrites ((List.range (8 * leAt ps 2 2)).map (fun i =>
          (R.QUILT_DESC_BASTE (leAt ps 2 0 + i / 8) (i % 8), leAt ps 4 (4 + 4 * i)))) →
        Answered (.dwDescBaste f h ps) s f h {} u) ∧
      (h.opcode = 0x0206 → ps.length = 4 + 4 * leAt ps 2 2 → 1 ≤ leAt ps 2 2 → leAt ps 2 2 ≤ 1000 →
        leAt ps 2 0 + leAt ps 2 2 ≤ 8192 → u = s.shepWrites ((List.range (leAt ps 2 2)).map (fun i =>
          (R.QUILT_DMAP_BASTE (leAt ps 2 0 + i), leAt ps 4 (4 + 4 * i)))) →
        Answered (.dwDmapBaste f h ps) s f h {} u)) ∧
    (∀ u, h.opcode = 0x0207 → 1 ≤ cls → OpenMode s → ps.length = 4 + 4 * leAt ps 2 2 → 1 ≤ leAt ps 2 2 →
      leAt ps 2 2 ≤ 1000 → leAt ps 2 0 + leAt ps 2 2 ≤ 8192 → Stays s u f →
      u = s.shepWrites ((List.range (leAt ps 2 2)).map (fun i => (R.QUILT_SRC_ATTR (leAt ps 2 0 + i), leAt ps 4 (4 + 4 * i)))) →
      Answered (.dwSrcAttrSet f h ps) s f h {} u) ∧
    -- STITCH_DIRECT: a 64-bit write at once; an unpaired engine answers the MSC from which it acts
    (∀ r, h.opcode = 0x0203 → ps.length = 12 → 2 ≤ cls → OpenMode s → byteAt ps 0 ≤ 15 → zeroAt ps 1 1 = true →
      s.quilt.hold = [] → s.paired = false →
      r = s.dwrRecord (65536 * byteAt ps 0 + leAt ps 2 2) (BitVec.ofNat 64 (leAt ps 8 4)) → Stays s r.1 f →
      (r.2 = 0 → Answered (.dwStitchDirect f h ps) s f h (okWith (le 8 s.msc)) r.1) ∧
      (r.2 = 2 → Answered (.dwStitchDirect f h ps) s f h (forbidden 3) r.1) ∧
      (r.2 ≠ 0 → r.2 ≠ 2 → Answered (.dwStitchDirect f h ps) s f h (rejected r.2) r.1)) ∧
    -- METER_READ of one meter: its peak, which restarts, and its RMS value
    (h.opcode = 0x0208 → ps.length = 4 → leAt ps 2 2 = 1 → leAt ps 2 0 < 1024 →
      Stays s (s.meterPeak (leAt ps 2 0)).2 f → Answered (.dwMeterRead f h ps) s f h (okWith
        (words [(s.meterPeak (leAt ps 2 0)).1.toNat] ++ s.viewWords [R.QUILT_METER_RMS (leAt ps 2 0)]))
        (s.meterPeak (leAt ps 2 0)).2)

/-- The Patterns family (R123, R136, R138, R139, R146, R155, R491, R499): BASTE_IMAGE, CHECK, SEW, DISCARD, GROUP_SEW,
PATTERN_STATE; and how a bulk block arrives over UDP. -/
def Obligations.DweulPatterns : Prop :=
  ∀ (f : Fin 128) (h : Hdr) (ps : List Byte) (s : State) (cls : Nat), h.length = ps.length →
    (AtHead s f h cls → h.opcode = 0x0306 → ps.length = 0 → Answered (.dwPatternState f h ps) s f h (okWith (s.viewWords
      [R.SEAM_STATUS, R.SEAM_CHK_CRC, R.SEAM_LIVE_CRC, R.SEAM_SEW_MSC_LO, R.SEAM_SEW_MSC_HI, R.SEAM_UNRAVEL_END_LO,
        R.SEAM_UNRAVEL_END_HI])) s) ∧
    (AtHead s f h cls → 1 ≤ cls → OpenMode s →
      -- CHECK: answered when the CHECK ends
      (h.opcode = 0x0302 → ps.length = 0 →
        (s.basteOpen = true → exec (.dwCheck f h ps) s = .next (s.startCheck cls (some h) none)) ∧
        (s.basteOpen = false → Stays s s.seamBusy f → Answered (.dwCheck f h ps) s f h busyState s.seamBusy)) ∧
      -- SEW: behind a CHECK from OPEN, at once from CHECKED, BUSY otherwise
      (∀ k : SewAsk, k = ⟨h, cls, leAt ps 8 0, none⟩ → h.opcode = 0x0303 → ps.length = 8 →
        (s.bstate = 0 → exec (.dwSew f h ps) s = .next (s.startCheck cls (some h) (some k))) ∧
        (s.bstate = 2 → Stays s (s.enterSew k).1 f →
          Answered (.dwSew f h ps) s f h (s.enterSew k).2 (s.enterSew k).1) ∧
        (s.bstate ≠ 0 → s.bstate ≠ 2 → Stays s s.seamBusy f → Answered (.dwSew f h ps) s f h busyState s.seamBusy)) ∧
      -- GROUP_SEW: the same with the CRC that the CHECK must show; without a group it is refused
      (∀ k : SewAsk, k = ⟨h, cls, leAt ps 8 0, some (leAt ps 4 8)⟩ → h.opcode = 0x0305 → ps.length = 12 →
        (h.group = 0 → Answered (.dwGroupSew f h ps) s f h (rejected 0) s) ∧
        (h.group ≠ 0 → s.bstate = 0 → exec (.dwGroupSew f h ps) s = .next (s.startCheck cls (some h) (some k))) ∧
        (h.group ≠ 0 → s.bstate = 2 → Stays s (s.enterSew k).1 f →
          Answered (.dwGroupSew f h ps) s f h (s.enterSew k).2 (s.enterSew k).1) ∧
        (h.group ≠ 0 → s.bstate ≠ 0 → s.bstate ≠ 2 → Stays s s.seamBusy f →
          Answered (.dwGroupSew f h ps) s f h busyState s.seamBusy)) ∧
      -- DISCARD: FORCE from LIFE-SAFETY folds only
      (h.opcode = 0x0304 → ps.length = 4 → zeroAt ps 3 1 = true →
        (byteAt ps 0 ≠ 0 → cls ≠ 3 → Answered (.dwDiscard f h ps) s f h (forbidden 1) s) ∧
        (∀ r, byteAt ps 0 = 0 ∨ cls = 3 → r = s.discard (decide (byteAt ps 0 ≠ 0)) → Stays s r.1 f →
          Answered (.dwDiscard f h ps) s f h ⟨r.2.1, r.2.2, false, []⟩ r.1))) ∧
    -- BASTE_IMAGE: only while BASTE is open, and only an image that passes; a whole image makes its words sound
    (∀ block, Fetched s f h cls → 1 ≤ cls → OpenMode s → h.opcode = 0x0301 → ps.length = 12 →
      leAt ps 4 0 = block.length → 1 ≤ block.length → block.length ≤ 16777216 →
      (s.basteOpen = false → Stays s s.seamBusy f → Answered (.dwBasteImage f h ps block) s f h busyState s.seamBusy) ∧
      (s.basteOpen = true → parseImage (s.fld R.SYS_ENGINE_ID F.SYS_ENGINE_ID_ENGINE) block = none →
        Answered (.dwBasteImage f h ps block) s f h (rejected 0) s) ∧
      (∀ xs, s.basteOpen = true → parseImage (s.fld R.SYS_ENGINE_ID F.SYS_ENGINE_ID_ENGINE) block = some xs →
        s.quilt.ue = [] → Answered (.dwBasteImage f h ps block) s f h {} (s.setBaste (s.quilt.baste.applyImage block xs)))) ∧
    -- over UDP: a first segment opens the stream, the last runs the command, and one out of order ends it
    (∀ (op : Op) (fixed : Nat) (block : List Byte) (body : State → Cmd → List Byte → State × Option Ans),
      AtHead s f h cls → s.foldUdp f = true → h.opcode = op.code → s.notPermitted op cls = 0 → fixed + 8 ≤ ps.length →
      1 ≤ leAt ps 4 fixed → leAt ps 4 fixed ≤ 16777216 →
      (leAt ps 4 (fixed + 4) ≠ 0 → s.dweulBulk op f h ps block fixed body = (s.answer f h badSegment, some 8)) ∧
      (∀ u, leAt ps 4 (fixed + 4) = 0 → h.flags / 16 % 2 = 0 → ps.length - (fixed + 8) ≤ leAt ps 4 fixed →
        u = (s.setFold f { s.fold f with seg := some ⟨op.code, (ps.take fixed).map BitVec.toNat, leAt ps 4 fixed,
          ps.drop (fixed + 8)⟩ }).syncFold f → Stays s u f →
        s.dweulBulk op f h ps block fixed body = (u.answer f h {}, some 0)) ∧
      (∀ u a, leAt ps 4 (fixed + 4) = 0 → h.flags / 16 % 2 = 1 →
        ps.length - (fixed + 8) = (leAt ps 4 fixed + 3) / 4 * 4 →
        body s ⟨f, cls, h, ps.take fixed⟩ ((ps.drop (fixed + 8)).take (leAt ps 4 fixed)) = (u, some a) → Stays s u f →
        s.dweulBulk op f h ps block fixed body = (u.answer f h a, some a.status)))

/-- The Needle and Clocking families (R198, R203 to R205, R235, R239, R262, R289, R500): NEEDLE_LOAD, NEEDLE_READ, NEEDLE_CTRL,
NEEDLE_DOORBELL, NEEDLE_STATUS, BELL_READ, REF_SET, REF_SELECT, LOOP_SET, DIV_SET, SERVO_SET. -/
def Obligations.DweulNeedleAndClock : Prop :=
  ∀ (f : Fin 128) (h : Hdr) (ps : List Byte) (s : State) (cls : Nat), h.length = ps.length →
    (∀ block n (u : State), Fetched s f h cls → 2 ≤ cls → OpenMode s → h.opcode = 0x0401 → ps.length = 16 →
      leAt ps 4 4 = block.length → block.length = 4 * n → 1 ≤ n → block.length ≤ 16777216 → byteAt ps 0 < 64 →
      byteAt ps 1 < 3 → leAt ps 2 2 + n ≤ needleSpace (byteAt ps 1) → Stays s u f →
      u = (List.range n).foldl (fun (t : State) i => t.needleWrite (byteAt ps 0) (byteAt ps 1) (leAt ps 2 2 + i)
        (BitVec.ofNat 32 (leAt block 4 (4 * i)))) s → Answered (.dwNeedleLoad f h ps block) s f h {} u) ∧
    (AtHead s f h cls →
      -- a read of a core that does not run stalls nothing
      (h.opcode = 0x0402 → ps.length = 8 → byteAt ps 0 < 64 → byteAt ps 1 < 3 → zeroAt ps 2 6 = true → 1 ≤ leAt ps 2 4 →
        leAt ps 2 4 ≤ 1000 → leAt ps 2 2 + leAt ps 2 4 ≤ needleSpace (byteAt ps 1) → (s.core (byteAt ps 0)).active = false →
        (s.core (byteAt ps 0)).poison = [] → Answered (.dwNeedleRead f h ps) s f h (okWith ((List.range (leAt ps 2 4)).flatMap
          (fun i => words [((s.core (byteAt ps 0)).hostRead (byteAt ps 1) (leAt ps 2 2 + i)).toNat]))) s) ∧
      (∀ u k, k = byteAt ps 0 → h.opcode = 0x0405 → ps.length = 4 → k < 64 → zeroAt ps 3 1 = true →
        u = (s.busRead .shepherd (R.NEEDLE_TOHOST k)).1 → Stays s u f → Answered (.dwNeedleStatus f h ps) s f h (okWith
          (s.viewWords [R.NEEDLE_STATUS k, R.NEEDLE_DOORBELL k, R.NEEDLE_TOHOST k, R.NEEDLE_OVR_CNT k, R.NEEDLE_LATE_CNT k,
            R.NEEDLE_CYC_MAX k, R.NEEDLE_CYC_LAST k, R.NEEDLE_MEM_ADDR k, R.NEEDLE_WQ_STAT k, R.NEEDLE_LAT_MAX k])) u) ∧
      (h.opcode = 0x0501 → ps.length = 0 → Answered (.dwBellRead f h ps) s f h (okWith (s.viewWords
        ((List.range 11).map (fun i => R.BELL_STATUS + 4 * i)))) s)) ∧
    (∀ u, AtHead s f h cls → 1 ≤ cls → OpenMode s → h.opcode = 0x0404 → ps.length = 8 → byteAt ps 0 < 64 →
      zeroAt ps 3 1 = true → u = s.shepWrite (R.NEEDLE_DOORBELL (byteAt ps 0)) (leAt ps 4 4) → Stays s u f →
      Answered (.dwNeedleDoorbell f h ps) s f h {} u) ∧
    (∀ u, AtHead s f h cls → 2 ≤ cls → OpenMode s → Stays s u f →
      (h.opcode = 0x0403 → ps.length = 12 → byteAt ps 8 = 1 ∨ byteAt ps 8 = 2 → zeroAt ps 3 9 = true →
        u = s.shepWrites ((maskList 64 (leAt ps 8 0)).map (fun k => (R.NEEDLE_CTRL k, byteAt ps 8))) →
        Answered (.dwNeedleCtrl f h ps) s f h {} u) ∧
      -- REF_SET: limits first; only when they are accepted, configuration and nominal frequency
      (∀ n r, n = byteAt ps 0 → h.opcode = 0x0502 → ps.length = 20 → n < 16 → zeroAt ps 3 1 = true →
        r = s.tryApply R.BELL_FLAGS F.BELL_FLAGS_APPLY_ERR (fun t => t.shepWrites [(R.BELL_REF_ACCEPT n, leAt ps 4 12),
          (R.BELL_REF_REJECT n, leAt ps 4 16), (R.BELL_REF_APPLY, 2 ^ 31 + n)]) →
        (r.2 = true → u = r.1.shepWrites [(R.BELL_REF_CFG n, leAt ps 4 4), (R.BELL_REF_NOM n, leAt ps 4 8)] →
          Answered (.dwRefSet f h ps) s f h {} u) ∧
        (r.2 = false → u = r.1 → Answered (.dwRefSet f h ps) s f h (rejected 0) u)) ∧
      (h.opcode = 0x0503 → ps.length = 4 → byteAt ps 0 < 16 → zeroAt ps 3 1 = true →
        u = (s.busWrite .shepherd R.BELL_SEL (byteAt ps 0) 0xFF 0).1 → Answered (.dwRefSelect f h ps) s f h {} u) ∧
      (h.opcode = 0x0504 → ps.length = 20 → u = s.shepWrites [(R.BELL_CTRL, leAt ps 4 0), (R.BELL_PHASE, leAt ps 4 4),
        (R.BELL_HO, leAt ps 4 8), (R.BELL_CROSS, leAt ps 4 12), (R.BELL_JUMP, leAt ps 4 16)] →
        Answered (.dwLoopSet f h ps) s f h {} u) ∧
      (∀ r, h.opcode = 0x0505 → ps.length = 24 → r = s.tryApply R.BELL_FLAGS F.BELL_FLAGS_APPLY_ERR (fun t => t.shepWrites
          ((List.range 6).map (fun d => (R.BELL_DIV d, leAt ps 4 (4 * d))) ++ [(R.BELL_DIV_UPDATE, 1)])) → u = r.1 →
        (r.2 = true → Answered (.dwDivSet f h ps) s f h {} u) ∧
        (r.2 = false → Answered (.dwDivSet f h ps) s f h (rejected 0) u)) ∧
      (h.opcode = 0x0506 → ps.length = 8 → byteAt ps 0 < 8 → zeroAt ps 3 1 = true → 1 ≤ leAt ps 4 4 →
        leAt ps 4 4 ≤ 1000000000 → u = { s with ptp := { s.ptp with
          servo := Sparse.set (fun _ => 1000000) s.ptp.servo (byteAt ps 0) (leAt ps 4 4) } } → Answered (.dwServoSet f h ps) s f h {} u))

/-- The PTP and streams family (R276, R287, R296, R303, R318, R319, R326, R500): PTP_READ, PTP_SET, NET_PORT_SET, FLOW_SET,
FLOW_START, FLOW_STOP, FLOCK_START, FLOCK_STOP, FLOW_READ. What PTP_READ shows of the servo and the grandmaster are free
values. -/
def Obligations.DweulStreams : Prop :=
  ∀ (f : Fin 128) (h : Hdr) (ps : List Byte) (s : State) (cls : Nat), AtHead s f h cls → h.length = ps.length →
    (∀ n, n = byteAt ps 0 → h.opcode = 0x0601 → ps.length = 4 → n < 8 → zeroAt ps 3 1 = true →
      Answered (.dwPtpRead f h ps) s f h (okWith (le 8 ((s.tb n).time / secUnit) ++ le 4 ((s.tb n).time % secUnit / nsUnit) ++
        le 8 (wrapN 64 ((s.tb n).map / 65536)) ++ le 1 s.freeVal ++ le 3 0 ++ le 8 s.bump.freeVal)) s.bump.bump) ∧
    (h.opcode = 0x0609 → ps.length = 4 → byteAt ps 0 ≤ 1 → zeroAt ps 1 1 = true → leAt ps 2 2 < 1024 →
      Answered (.dwFlowRead f h ps) s f h (okWith (s.viewWords (flowRegs (byteAt ps 0 = 1) (leAt ps 2 2)))) s) ∧
    (∀ u, 2 ≤ cls → OpenMode s → Stays s u f →
      -- PTP_SET: the intervals of the profile
      (∀ (x : PtpInst) r, x = ⟨byteAt ps 1, byteAt ps 2, byteAt ps 3, sext 8 (byteAt ps 4), sext 8 (byteAt ps 5), byteAt ps 6⟩ →
        r = profileRange x.profile → h.opcode = 0x0602 → ps.length = 8 → byteAt ps 0 < 8 → x.profile ≤ 3 → x.domain ≤ 127 →
        x.ports ≤ 15 → x.role ≤ 1 → byteAt ps 7 = 0 →
        (r.1.1 ≤ x.logSync → x.logSync ≤ r.1.2 → r.2.1 ≤ x.logAnnounce → x.logAnnounce ≤ r.2.2 →
          u = { s with ptp := { s.ptp with insts := Sparse.set (fun _ => none) s.ptp.insts (byteAt ps 0) (some x) } } →
          Answered (.dwPtpSet f h ps) s f h {} u) ∧
        (x.logSync < r.1.1 ∨ r.1.2 < x.logSync → Answered (.dwPtpSet f h ps) s f h badParam s)) ∧
      (∀ p, p = byteAt ps 0 → h.opcode = 0x0603 → ps.length = 20 → p < 4 → zeroAt ps 3 1 = true →
        u = s.shepWrites [(R.NET_PORT_CFG p, leAt ps 4 4), (R.NET_PORT_MAC_LO p, leAt ps 4 8),
          (R.NET_PORT_MAC_HI p, leAt ps 4 12), (R.NET_PORT_IP p, leAt ps 4 16)] →
        Answered (.dwNetPortSet f h ps) s f h {} u) ∧
      -- FLOW_SET: the group's words, then the word that applies them; a refusal is INCONSISTENT with the unit's code
      (∀ tx n g r, tx = byteAt ps 0 → n = leAt ps 2 2 → g = (if tx = 1 then txGroup n else rxGroup n) → h.opcode = 0x0604 →
        tx ≤ 1 → ps.length = (if tx = 0 then 40 else 36) → zeroAt ps 1 1 = true → n < 1024 → u = r.1 →
        r = s.tryApply R.NET_FLAGS F.NET_FLAGS_APPLY_ERR (fun t => t.shepWrites ((List.range g.length).map (fun i =>
          (g.getD i 0, leAt ps 4 (4 + 4 * i))) ++ [(R.NET_APPLY, 2 ^ 31 + tx * 2 ^ 30 + n)])) →
        (r.2 = true → Answered (.dwFlowSet f h ps) s f h {} u) ∧
        (r.2 = false → Answered (.dwFlowSet f h ps) s f h
          (inconsistent (u.fld R.NET_APPLY_RESULT F.NET_APPLY_RESULT_CODE)) u))) ∧
    (1 ≤ cls → OpenMode s → ps.length = 12 →
      -- START: only where R319 accepts it; STOP: always an event
      (∀ o t r, o = (if byteAt ps 0 = 1 then Obj.txFlow (leAt ps 2 2) else Obj.rxFlow (leAt ps 2 2)) → t = leAt ps 8 4 →
        byteAt ps 0 ≤ 1 → zeroAt ps 1 1 = true → leAt ps 2 2 < 1024 →
        (h.opcode = 0x0605 → s.startAccepted o t = false → Answered (.dwFlowStart f h ps) s f h (rejected 0) s) ∧
        (h.opcode = 0x0605 → s.startAccepted o t = true → r = s.enterEvent ⟨f, cls, h, ps⟩ (.start o) t [o] → Stays s r.1 f →
          Answered (.dwFlowStart f h ps) s f h r.2 r.1) ∧
        (h.opcode = 0x0606 → r = s.enterEvent ⟨f, cls, h, ps⟩ (.stop o) t [] → Stays s r.1 f →
          Answered (.dwFlowStop f h ps) s f h r.2 r.1)) ∧
      -- a flock: the members that a START accepts; those skipped are counted
      (∀ g t mine r, g = byteAt ps 0 → t = leAt ps 8 4 → g < 64 → zeroAt ps 3 1 = true →
        mine = (s.flockObjs g).filter (fun o => s.startAccepted o t) →
        (h.opcode = 0x0607 → mine = [] → Answered (.dwFlockStart f h ps) s f h (rejected 0) s) ∧
        (h.opcode = 0x0607 → mine ≠ [] → r = s.enterEvent ⟨f, cls, h, ps⟩ (.start (.flock g)) t mine → r.2.status = 0 →
          ∀ k u, k = min 255 ((s.flockObjs g).length - mine.length) →
          u = (r.1.setFld (R.NET_FLOCK_STAT g) F.NET_FLOCK_STAT_SKIPPED k).wr64 (R.NET_FLOCK_MSC_LO g) (R.NET_FLOCK_MSC_HI g) t →
          Stays s u f → Answered (.dwFlockStart f h ps) s f h
            { r.2 with results := r.2.results ++ le 1 k ++ le 3 0 } u) ∧
        (h.opcode = 0x0608 → r = s.enterEvent ⟨f, cls, h, ps⟩ (.stop (.flock g)) t [] → Stays s r.1 f →
          Answered (.dwFlockStop f h ps) s f h r.2 r.1)))

/-- The Ports and Line drive families (R345, R352, R370, R382, R385, R390, R500): PORT_SET, PORT_START, PORT_STOP, PORT_READ,
LINE_SET, LINE_ENABLE, LINE_DISABLE, LINE_CLEAR, LINE_CTRL_SET, LINE_READ. -/
def Obligations.DweulPortsAndLine : Prop :=
  ∀ (f : Fin 128) (h : Hdr) (ps : List Byte) (s : State) (cls : Nat), AtHead s f h cls → h.length = ps.length →
    (∀ (k i : Nat) (q : LocalPort), k = byteAt ps 0 → i = byteAt ps 1 → q = portOfKey (64 * k + i) →
      (k < 2 ∧ i < 32) ∨ (k = 2 ∧ i < 16) → zeroAt ps 2 2 = true →
      (h.opcode = 0x0704 → ps.length = 4 → Answered (.dwPortRead f h ps) s f h (okWith (s.viewWords (portRegs q))) s) ∧
      (∀ g r, 2 ≤ cls → OpenMode s → g = portGroup q → h.opcode = 0x0701 → ps.length = 4 + 4 * portGroupWords k →
        r = s.tryApply R.PORT_FLAGS F.PORT_FLAGS_APPLY_ERR (fun t => t.shepWrites ((List.range g.length).map (fun j =>
          (g.getD j 0, leAt ps 4 (4 + 4 * j))) ++ [(R.PORT_APPLY, 2 ^ 31 + k * 2 ^ 8 + i)])) → Stays s r.1 f →
        (r.2 = true → Answered (.dwPortSet f h ps) s f h {} r.1) ∧
        (r.2 = false → Answered (.dwPortSet f h ps) s f h
          (inconsistent (r.1.fld R.PORT_APPLY_RESULT F.PORT_APPLY_RESULT_CODE)) r.1)) ∧
      (∀ t r, 1 ≤ cls → OpenMode s → ps.length = 12 → t = leAt ps 8 4 →
        (h.opcode = 0x0702 → s.startAccepted q.obj t = false → Answered (.dwPortStart f h ps) s f h (rejected 0) s) ∧
        (h.opcode = 0x0702 → s.startAccepted q.obj t = true → r = s.enterEvent ⟨f, cls, h, ps⟩ (.start q.obj) t [q.obj] →
          Stays s r.1 f → Answered (.dwPortStart f h ps) s f h r.2 r.1) ∧
        (h.opcode = 0x0703 → r = s.enterEvent ⟨f, cls, h, ps⟩ (.stop q.obj) t [] → Stays s r.1 f →
          Answered (.dwPortStop f h ps) s f h r.2 r.1))) ∧
    (h.opcode = 0x0806 → ps.length = 4 → byteAt ps 0 < 16 → zeroAt ps 3 1 = true → Answered (.dwLineRead f h ps) s f h
      (okWith (s.viewWords (R.LINE_STATUS :: lineRegs (byteAt ps 0)))) s) ∧
    (2 ≤ cls → OpenMode s →
      (∀ n g r, n = byteAt ps 0 → g = lineGroup n → h.opcode = 0x0801 → ps.length = 28 → n < 16 → zeroAt ps 3 1 = true →
        r = s.tryApply R.LINE_FLAGS F.LINE_FLAGS_APPLY_ERR (fun t => t.shepWrites ((List.range g.length).map (fun j =>
          (g.getD j 0, leAt ps 4 (4 + 4 * j))) ++ [(R.LINE_APPLY, 2 ^ 31 + n)])) → Stays s r.1 f →
        (r.2 = true → Answered (.dwLineSet f h ps) s f h {} r.1) ∧
        (r.2 = false → Answered (.dwLineSet f h ps) s f h
          (inconsistent (r.1.fld R.LINE_APPLY_RESULT F.LINE_APPLY_RESULT_CODE)) r.1)) ∧
      (∀ u, h.opcode = 0x0804 → ps.length = 4 → zeroAt ps 2 2 = true → Stays s u f →
        u = s.shepWrites ((maskList 16 (leAt ps 2 0)).map (fun n => (R.LINE_CH_CMD n, 4))) →
        Answered (.dwLineClear f h ps) s f h {} u) ∧
      (∀ r, h.opcode = 0x0805 → ps.length = 4 → r = s.tryApply R.LINE_FLAGS F.LINE_FLAGS_CFG_IGN
          (fun t => t.shepWrite R.LINE_CTRL (leAt ps 4 0)) → Stays s r.1 f →
        (r.2 = true → Answered (.dwLineCtrlSet f h ps) s f h {} r.1) ∧
        (r.2 = false → Answered (.dwLineCtrlSet f h ps) s f h (rejected 0) r.1))) ∧
    -- one event for the channels of the mask
    (∀ r, 1 ≤ cls → OpenMode s → ps.length = 12 → zeroAt ps 2 2 = true → Stays s r.1 f →
      (h.opcode = 0x0802 → r = s.enterEvent ⟨f, cls, h, ps⟩ (.lineEn (leAt ps 2 0)) (leAt ps 8 4) [] →
        Answered (.dwLineEnable f h ps) s f h r.2 r.1) ∧
      (h.opcode = 0x0803 → r = s.enterEvent ⟨f, cls, h, ps⟩ (.stop (.lines (leAt ps 2 0))) (leAt ps 8 4) [] →
        Answered (.dwLineDisable f h ps) s f h r.2 r.1))

/-- The Alarm and messages family (R32, R401, R404, R411, R413, R417, R420, R500): ALARM_ACTIVATE, ALARM_RELEASE, PATTERN_LOAD,
MESSAGE_WRITE, MESSAGE_START, MESSAGE_STOP, FALLBACK_LOAD, ALARM_READ. -/
def Obligations.DweulAlarm : Prop :=
  ∀ (f : Fin 128) (h : Hdr) (ps : List Byte) (s : State) (cls : Nat), h.length = ps.length →
    (AtHead s f h cls →
      (h.opcode = 0x0908 → ps.length = 0 → Answered (.dwAlarmRead f h ps) s f h (okWith (s.viewWords
        ((List.range 12).map (fun i => R.ALARM_STATUS + 4 * i)))) s) ∧
      -- activation and release are for LIFE-SAFETY folds, in ALARM too; each answers its action sample
      (∀ r, cls = 3 → s.mode ≠ .standby → h.opcode = 0x0901 → ps.length = 4 → byteAt ps 0 < 16 → zeroAt ps 3 1 = true →
        r = s.alarmActivate (byteAt ps 0) → Stays s r.1 f →
        Answered (.dwAlarmActivate f h ps) s f h (okWith (le 8 (actionSample s.msc))) r.1) ∧
      (∀ r, cls = 3 → s.mode ≠ .standby → h.opcode = 0x0902 → ps.length = 0 → s.releaseRefused = false →
        r = s.alarmRelease → Stays s r.1 f →
        Answered (.dwAlarmRelease f h ps) s f h (okWith (le 8 (actionSample s.msc))) r.1) ∧
      (cls = 3 → s.mode ≠ .standby → h.opcode = 0x0902 → ps.length = 0 → s.releaseRefused = true →
        Answered (.dwAlarmRelease f h ps) s f h (rejected 0) s) ∧
      (1 ≤ cls → OpenMode s →
        -- a message that is not valid cannot be started
        (∀ slot, slot = leAt ps 2 2 → h.opcode = 0x0905 → ps.length = 16 → byteAt ps 0 < 64 → slot < 512 →
          zeroAt ps 2 6 = true →
          (s.slotMsg slot = none → Answered (.dwMessageStart f h ps) s f h (inconsistent 0) s) ∧
          (∀ r, s.slotMsg slot ≠ none → r = s.enterEvent ⟨f, cls, h, ps⟩ (.message (byteAt ps 0) slot (byteAt ps 1) (leAt ps 2 4))
            (leAt ps 8 8) [] → Stays s r.1 f → Answered (.dwMessageStart f h ps) s f h r.2 r.1)) ∧
        (∀ r, h.opcode = 0x0906 → ps.length = 12 → byteAt ps 0 < 64 → zeroAt ps 3 1 = true →
          r = s.enterEvent ⟨f, cls, h, ps⟩ (.stop (.player (byteAt ps 0))) (leAt ps 8 4) [] → Stays s r.1 f →
          Answered (.dwMessageStop f h ps) s f h r.2 r.1))) ∧
    -- loads: LIFE-SAFETY folds, and ENGINEER folds in COMMISSION
    (∀ block, Fetched s f h cls → OpenMode s → cls = 3 ∨ (cls = 2 ∧ s.mode = .commission) → 1 ≤ block.length →
      block.length ≤ 16777216 →
      (∀ p, p = byteAt ps 0 → h.opcode = 0x0903 → ps.length = 16 → leAt ps 4 4 = block.length → p < 16 →
        zeroAt ps 3 1 = true →
        (parsePat p block = none → Answered (.dwPatternLoad f h ps block) s f h (inconsistent 0) s) ∧
        (∀ x, parsePat p block = some x → s.loadTooLarge p x = true →
          Answered (.dwPatternLoad f h ps block) s f h { status := 6 } s) ∧
        (∀ x u, parsePat p block = some x → s.loadTooLarge p x = false →
          u = (s.patternLoad p (block.take 0x20000) x).unpoison 10 (patBase p) (block.take 0x20000).length → Stays s u f →
          Answered (.dwPatternLoad f h ps block) s f h {} u)) ∧
      (∀ slot w len, slot = leAt ps 2 0 → w = (if byteAt ps 2 / 2 % 2 = 1 then 3 else 2) → h.opcode = 0x0904 →
        ps.length = 16 → leAt ps 4 4 = block.length → slot < 512 → byteAt ps 2 ≤ 3 → byteAt ps 3 = 0 →
        block.length = w * len → len ≤ 12574720 →
        (s.slotUsed slot = true → Answered (.dwMessageWrite f h ps block) s f h busyState s) ∧
        (s.slotUsed slot = false → s.msgPlace slot block.length = none →
          Answered (.dwMessageWrite f h ps block) s f h { status := 6 } s) ∧
        (∀ off u, s.slotUsed slot = false → s.msgPlace slot block.length = some off →
          u = ((s.messageWrite slot off (byteAt ps 2) len block).unpoison 10 (dataBase + off) block.length).unpoison 10
            (dirBase + 32 * slot) 32 → Stays s u f → Answered (.dwMessageWrite f h ps block) s f h {} u)) ∧
      (h.opcode = 0x0907 → ps.length = 12 → leAt ps 4 0 = block.length → block.length ≤ 65536 →
        (s.parseFallback block = none → Answered (.dwFallbackLoad f h ps block) s f h (rejected 0) s) ∧
        (∀ t u, s.parseFallback block ≠ none →
          t = s.nvsStore fallbackBase (block ++ List.replicate (65536 - block.length) 0#8) →
          u = { t with boot := { t.boot with fbValid := true } } → Stays s u f →
          Answered (.dwFallbackLoad f h ps block) s f h {} u)))

/-- The Twin, Faults and Telemetry families (R449, R450, R456, R466, R500, R502): TWIN_READ, HANDOVER, TWIN_CMD, TWIN_CFG_SET,
FAULT_READ, FAULT_ACK, FAULT_SRC_SET, FAULT_SRC_READ, TELEM_SNAPSHOT, TELEM_SUBSCRIBE, TELEM_UNSUBSCRIBE. Of a set that no
refresh has taken yet a snapshot shows free values. -/
def Obligations.DweulTwinFaultsTelemetry : Prop :=
  ∀ (f : Fin 128) (h : Hdr) (ps : List Byte) (s : State) (cls : Nat), AtHead s f h cls → h.length = ps.length →
    (h.opcode = 0x0A01 → ps.length = 0 → Answered (.dwTwinRead f h ps) s f h (okWith (s.viewWords
      ((List.range 13).map (fun i => R.TWIN_CFG + 4 * i)))) s) ∧
    -- the Twin family executes in STANDBY as well
    (2 ≤ cls → s.mode ≠ .alarm →
      (h.opcode = 0x0A02 → ps.length = 8 →
        (s.isStandby = true → Answered (.dwHandover f h ps) s f h (rejected 0) s) ∧
        (s.isStandby = false → s.baseMode = .commission → Answered (.dwHandover f h ps) s f h (forbidden 2) s) ∧
        (s.isStandby = false → s.baseMode ≠ .commission → s.tstate ≠ 5 →
          Answered (.dwHandover f h ps) s f h (rejected 0) s) ∧
        (∀ r, s.isStandby = false → s.baseMode ≠ .commission → s.tstate = 5 →
          r = s.enterEvent ⟨f, cls, h, ps⟩ .handover (leAt ps 8 0) [] → Stays s r.1 f →
          Answered (.dwHandover f h ps) s f h r.2 r.1)) ∧
      (∀ r, h.opcode = 0x0A03 → ps.length = 4 → r = s.tryApply R.TWIN_FLAGS F.TWIN_FLAGS_WR_IGN
          (fun t => t.shepWrite R.TWIN_CMD (leAt ps 4 0)) → Stays s r.1 f →
        (r.2 = true → Answered (.dwTwinCmd f h ps) s f h {} r.1) ∧
        (r.2 = false → Answered (.dwTwinCmd f h ps) s f h (rejected 0) r.1)) ∧
      (∀ u, h.opcode = 0x0A04 → ps.length = 4 → u = s.shepWrite R.TWIN_CFG (leAt ps 4 0) → Stays s u f →
        Answered (.dwTwinCfgSet f h ps) s f h {} u)) ∧
    (h.opcode = 0x0B01 → ps.length = 0 → Answered (.dwFaultRead f h ps) s f h (okWith (s.viewWords
      ((List.range 8).map (fun i => R.FAULT_STATUS + 4 * i) ++ (List.range 8).map R.FAULT_REC_MAP))) s) ∧
    (∀ u, 1 ≤ cls → OpenMode s → h.opcode = 0x0B02 → ps.length = 0 →
      u = s.setBit R.FAULT_STATUS F.FAULT_STATUS_REC_OPEN false → Stays s u f → Answered (.dwFaultAck f h ps) s f h {} u) ∧
    (∀ u n, 2 ≤ cls → OpenMode s → n = byteAt ps 0 → h.opcode = 0x0B03 → ps.length = 16 → zeroAt ps 3 1 = true →
      u = s.shepWrites [(R.FAULT_SRC_CFG n, leAt ps 4 4), (R.FAULT_SRC_WIN n, leAt ps 4 8),
        (R.FAULT_SRC_QUIET n, leAt ps 4 12)] → Stays s u f → Answered (.dwFaultSrcSet f h ps) s f h {} u) ∧
    (∀ i n, i = byteAt ps 0 → n = byteAt ps 1 → h.opcode = 0x0B04 → ps.length = 4 → zeroAt ps 2 2 = true →
      (1 ≤ n → n ≤ 64 → i + n ≤ 256 → Answered (.dwFaultSrcRead f h ps) s f h (okWith (s.viewWords ((List.range n).flatMap
        (fun k => [R.FAULT_SRC_STAT (i + k), R.FAULT_SRC_CNT (i + k)])))) s) ∧
      (n = 0 ∨ 64 < n ∨ 256 < i + n → Answered (.dwFaultSrcRead f h ps) s f h badParam s)) ∧
    (∀ sel set x, sel = leAt ps 2 0 → set = Sparse.get telemDefault s.shep.telem sel → x = s.fold f → ps.length = 4 →
      (h.opcode = 0x0C01 → zeroAt ps 2 2 = true →
        (selOk sel = false → Answered (.dwTelemSnapshot f h ps) s f h (rejected 1) s) ∧
        (selOk sel = true → set.2 ≠ [] →
          Answered (.dwTelemSnapshot f h ps) s f h (okWith (le 8 set.1 ++ telemBody sel set.2)) s) ∧
        (∀ r, selOk sel = true → set.2 = [] → r = s.freeSet (telemCount sel) →
          Answered (.dwTelemSnapshot f h ps) s f h (okWith (le 8 r.2.1 ++ telemBody sel r.2.2)) r.1)) ∧
      -- a subscription: its period is replaced when there is one; at most eight for each fold
      (∀ p, p = leAt ps 2 2 → h.opcode = 0x0C02 → 1 ≤ p → p ≤ 600 →
        (selOk sel = false → Answered (.dwTelemSubscribe f h ps) s f h (rejected 1) s) ∧
        (selOk sel = true → x.subs.any (fun u => u.sel = sel) = true → Answered (.dwTelemSubscribe f h ps) s f h {}
          (s.setFold f { x with subs := x.subs.map (fun u => if u.sel = sel then { u with period := p } else u) })) ∧
        (selOk sel = true → x.subs.any (fun u => u.sel = sel) = false → x.subs.length < 8 →
          Answered (.dwTelemSubscribe f h ps) s f h {}
            (s.setFold f { x with subs := x.subs ++ [⟨sel, p, 0, h.seq, h.group⟩] })) ∧
        (selOk sel = true → x.subs.any (fun u => u.sel = sel) = false → 8 ≤ x.subs.length →
          Answered (.dwTelemSubscribe f h ps) s f h { status := 6 } s)) ∧
      (h.opcode = 0x0C03 → zeroAt ps 2 2 = true →
        (x.subs.any (fun u => u.sel = sel) = true → Answered (.dwTelemUnsubscribe f h ps) s f h {}
          (s.setFold f { x with subs := x.subs.filter (fun u => u.sel ≠ sel) })) ∧
        (x.subs.any (fun u => u.sel = sel) = false → Answered (.dwTelemUnsubscribe f h ps) s f h (rejected 0) s)))

/-- The NVS and firmware family (R471, R500, R582, R584, R585, R590): NVS_READ, NVS_WRITE, FW_UPDATE, FW_ACTIVATE,
CONFIG_COMMIT, CHIP_RESET. -/
def Obligations.DweulFirmware : Prop :=
  ∀ (f : Fin 128) (h : Hdr) (ps : List Byte) (s : State) (cls : Nat), h.length = ps.length → 2 ≤ cls →
    (AtHead s f h cls →
      (∀ a n, a = leAt ps 4 0 → n = leAt ps 4 4 → h.opcode = 0x0D01 → ps.length = 8 → 1 ≤ n → n ≤ 4000 → a + n ≤ 0x2000000 →
        (∀ i, i < n → s.poisoned 10 (a + i) = false) → Answered (.dwNvsRead f h ps) s f h
          (okWith ((List.range n).map (fun i => s.mem.nvsByte (a + i)))) s) ∧
      (OpenMode s →
        (∀ u, h.opcode = 0x0D04 → ps.length = 4 → byteAt ps 0 ≤ 1 → zeroAt ps 3 1 = true →
          u = { s with mem := { s.mem with boot := { pref := byteAt ps 0, trial := true, trialCnt := 0 } } } →
          Answered (.dwFwActivate f h ps) s f h {} u) ∧
        -- CONFIG_COMMIT without a section: the CRC and the serial number of the record written
        (∀ block t, h.opcode = 0x0D05 → ps = [] → h.flags / 8 % 2 = 0 →
          (∀ r, s.configCommit none = (t, some r) → Stays s t f →
            Answered (.dwConfigCommit f h ps block) s f h (okWith (le 4 r.1 ++ le 4 r.2)) t) ∧
          (s.configCommit none = (t, none) → Stays s t f →
            Answered (.dwConfigCommit f h ps block) s f h (rejected 1) t)) ∧
        -- CHIP_RESET: the reply, then the reset with cause 6, which a duty engine with a ready partner makes after its release
        (h.opcode = 0x0D07 → ps.length = 0 →
          exec (.dwChipReset f h ps) s = .next ((s.answer f h {}).chipRstReaction 6 0)))) ∧
    (∀ block, Fetched s f h cls → OpenMode s → 1 ≤ block.length → block.length ≤ 16777216 →
      -- NVS_WRITE: the user area only
      (∀ a, a = leAt ps 4 0 → s.mode = .commission → h.opcode = 0x0D02 → ps.length = 16 → leAt ps 4 4 = block.length →
        (a < 0x500000 ∨ 0x5F0000 < a + block.length → Answered (.dwNvsWrite f h ps block) s f h (rejected 0) s) ∧
        (0x500000 ≤ a → a + block.length ≤ 0x5F0000 → Stays s (s.nvsStore a block) f →
          Answered (.dwNvsWrite f h ps block) s f h {} (s.nvsStore a block))) ∧
      -- FW_UPDATE: the slot that does not run, in NVS or in the flash that the engine boots from
      (h.opcode = 0x0D03 → ps.length = 12 → leAt ps 4 0 = block.length → block.length ≤ 0x200000 →
        (∀ u, s.pins.bootsel % 8 = 1 → u = { s with out := { s.out with flash := s.out.flash ++ [(s.idleSlot, block)] } } →
          Answered (.dwFwUpdate f h ps block) s f h {} u) ∧
        (∀ u, s.pins.bootsel % 8 ≠ 1 → u = s.nvsStore (if s.idleSlot = 0 then 0x100000 else 0x300000) block → Stays s u f →
          Answered (.dwFwUpdate f h ps block) s f h {} u)) ∧
      -- CONFIG_COMMIT with its section: LIFE-SAFETY folds, and ENGINEER folds in COMMISSION
      (∀ t r, cls = 3 ∨ (cls = 2 ∧ s.mode = .commission) → h.opcode = 0x0D05 → ps.length = 12 → leAt ps 4 0 = block.length →
        block.length % 8 = 0 → s.configCommit (some (entriesOf block)) = (t, some r) → Stays s t f →
        Answered (.dwConfigCommit f h ps block) s f h (okWith (le 4 r.1 ++ le 4 r.2)) t))

/-- LIFECYCLE (R592): the successors of each life-cycle state, the three refusals, the change with its chip reset of cause 5
(R593), and no other way to change the state. -/
def Obligations.LifeCycle : Prop :=
  (∀ (f : Fin 128) (h : Hdr) (ps : List Byte) (s : State) (cls st lc : Nat) (ok : Prop), AtHead s f h cls →
    h.length = ps.length → h.opcode = 0x0D06 → ps.length = 8 → zeroAt ps 3 1 = true → st = byteAt ps 0 → st ≤ 3 →
    lc = s.mem.otp.lc → (cls = 3 ∧ s.mode ≠ .standby) ∨ (cls = 2 ∧ s.mode = .commission) →
    (ok ↔ (lc = 0 ∧ st = 1 ∧ s.mem.otp.keys % 2 = 1) ∨ (lc = 1 ∧ (st = 2 ∨ st = 3)) ∨ (lc = 2 ∧ st = 3)) →
    (¬ ok → Answered (.dwLifecycle f h ps) s f h (rejected 1) s) ∧
    (∀ auth, auth = crcOf (le 4 (s.fld R.SYS_ENGINE_ID F.SYS_ENGINE_ID_ENGINE) ++ le 1 st ++ le 8 s.mem.otp.serial.toNat) →
      (ok → leAt ps 4 4 ≠ auth → Answered (.dwLifecycle f h ps) s f h (rejected 2) s) ∧
      (ok → leAt ps 4 4 = auth → s.mode = .alarm → Answered (.dwLifecycle f h ps) s f h (rejected 3) s) ∧
      (ok → leAt ps 4 4 = auth → s.mode ≠ .alarm → ∃ t u : State, t = s.answer f h {} ∧
        u = { t with mem := { t.mem with otp := { t.mem.otp with lc := st } } } ∧
        exec (.dwLifecycle f h ps) s = .next (u.chipReset 5 0)))) ∧
  -- whatever its fold and its parameters: the state stays or goes to a successor
  (∀ f h ps (s t : State), exec (.dwLifecycle f h ps) s = .next t → t.mem.otp.lc = s.mem.otp.lc ∨
    (s.mem.otp.lc = 0 ∧ t.mem.otp.lc = 1) ∨ (s.mem.otp.lc = 1 ∧ t.mem.otp.lc = 2) ∨
    (s.mem.otp.lc = 1 ∧ t.mem.otp.lc = 3) ∨ (s.mem.otp.lc = 2 ∧ t.mem.otp.lc = 3)) ∧
  (∀ (c : Instr) (s t : State), (∀ f h params, c ≠ .dwLifecycle f h params) → exec c s = .next t →
    t.mem.otp.lc = s.mem.otp.lc)

/-! ### The block as a whole -/

/-- A step takes the command at the front of the queue and runs it on the state with the queue's rest. On an empty queue the
block idles (the model's choice, assumption log entry 1). -/
def Obligations.StepRunsFront : Prop :=
  (∀ (c : Instr) rest (s : State), step { s with pending := c :: rest } = exec c { s with pending := rest }) ∧
  (∀ s : State, s.pending = [] → step s = .next s)

/-- Every command completes in every state: no command ends in a fault or a refusal. The queue is first in, first out:
whatever a command does, the commands behind it stay, in their order. -/
def Obligations.Progress : Prop :=
  (∀ (c : Instr) (s : State), Completes c s) ∧
  (∀ (s t : State) c rest, s.pending = c :: rest → step s = .next t → t.pending = rest)

/-- The byte memories keep their canonical form, so that equal memories are equal data. -/
def Obligations.MemoryForm : Prop := ∀ s t : State, s.mem.wf = true → step s = .next t → t.mem.wf = true

/-- Fuses cannot be unburnt (R592): the life-cycle state and the rollback count never fall, the wipe marker stays, and keys,
revocations, serial number, repairs and the AVS code stay as the factory burnt them. -/
def Obligations.FusesOnlyGrow : Prop := ∀ s t : State, step s = .next t → Otp.Grows s.mem.otp t.mem.otp

/-- The state after reset: nothing waits, no memory lists a byte, no event, no fold and no core holds anything, every core is
halted with its registers at the values of R164, and no register has been written. -/
def Obligations.AfterReset : Prop :=
  State.reset.pending = [] ∧ State.reset.mem.wf = true ∧ State.reset.mode = .boot ∧ State.reset.sched.events = [] ∧
  (∀ f, State.reset.fold f = {}) ∧ (∀ c, State.reset.core c = {}) ∧ ({} : Core).st = .halted ∧ ({} : Core).sr = 0x20#32 ∧
  (∀ n, ({} : Core).dReg n = 0#32) ∧ (∀ n, ({} : Core).accO n = 0) ∧
  -- generators and folds hold the values of their register tables
  (∀ g : Fin 128, State.reset.rd (R.QUILT_GEN_FREQ g) = 0x02AAAAAB ∧ State.reset.rd (R.QUILT_GEN_LEVEL g) = 0x140) ∧
  (∀ k : Fin 128, State.reset.rd (R.FOLD_CFG k) = 0x1000 ∧ State.reset.rd (R.FOLD_RING_CFG k) = 0x606)

/-- A write of a register field: the field reads as the value cut to its width, every field beside it, every other register and
everything else stay (R10). -/
def Obligations.FieldWrites : Prop :=
  ∀ (s : State) (a : Nat) (f : Fld) (v : Nat), f.hi < 32 → f.lo ≤ f.hi →
    (s.setFld a f v).fld a f = v % 2 ^ f.width ∧
    (∀ g : Fld, g.hi < f.lo ∨ f.hi < g.lo → (s.setFld a f v).fld a g = s.fld a g) ∧
    (∀ b g, b ≠ a → (s.setFld a f v).fld b g = s.fld b g) ∧ OnlyRegs [a] s (s.setFld a f v)
end

