-- ==== Sys2Proof/Laws/Sparse.lean ====
section
/-!
SUPPORT. The laws of sparse maps: a read after a write gives the value written, a write leaves every other key
alone, and a write keeps the canonical form.
-/

namespace Sys2Proof.Machine

theorem Sparse.get_erase_same {α : Type} (d : Nat → α) (m : Sparse α) (k : Nat) :
    Sparse.get d (Sparse.erase m k) k = d k := by
  induction m with
  | nil => rfl
  | cons e m ih =>
    obtain ⟨j, v⟩ := e
    by_cases h : j = k
    · simp [Sparse.erase, h, ih]
    · simp [Sparse.erase, Sparse.get, h, ih]

theorem Sparse.get_erase_other {α : Type} (d : Nat → α) (m : Sparse α) (k j : Nat) (h : j ≠ k) :
    Sparse.get d (Sparse.erase m k) j = Sparse.get d m j := by
  induction m with
  | nil => rfl
  | cons e m ih =>
    obtain ⟨i, v⟩ := e
    by_cases hk : i = k
    · have hij : i ≠ j := fun e => h (e ▸ hk)
      simp [Sparse.erase, Sparse.get, hk, ih]
      intro e; exact absurd e.symm h
    · simp [Sparse.erase, Sparse.get, hk, ih]

theorem Sparse.get_insert_same {α : Type} (d : Nat → α) (m : Sparse α) (k : Nat) (v : α) :
    Sparse.get d (Sparse.insert (Sparse.erase m k) k v) k = v := by
  induction m with
  | nil => simp [Sparse.erase, Sparse.insert, Sparse.get]
  | cons e m ih =>
    obtain ⟨j, w⟩ := e
    by_cases h : j = k
    · simpa [Sparse.erase, h] using ih
    · by_cases hl : k < j
      · simp [Sparse.erase, Sparse.insert, Sparse.get, h, hl]
      · simp [Sparse.erase, Sparse.insert, Sparse.get, h, hl, ih]

theorem Sparse.get_insert_other {α : Type} (d : Nat → α) (m : Sparse α) (k j : Nat) (v : α) (h : j ≠ k) :
    Sparse.get d (Sparse.insert m k v) j = Sparse.get d m j := by
  induction m with
  | nil => simp [Sparse.insert, Sparse.get]; intro e; exact absurd e.symm h
  | cons e m ih =>
    obtain ⟨i, w⟩ := e
    by_cases hl : k < i
    · simp [Sparse.insert, Sparse.get, hl]; intro e; exact absurd e.symm h
    · simp [Sparse.insert, Sparse.get, hl, ih]

@[simp] theorem Sparse.get_set_same {α : Type} [DecidableEq α] (d : Nat → α) (m : Sparse α) (k : Nat) (v : α) :
    Sparse.get d (Sparse.set d m k v) k = v := by
  unfold Sparse.set
  by_cases h : v = d k
  · simp [h, Sparse.get_erase_same]
  · simp [h, Sparse.get_insert_same]

theorem Sparse.get_set_other {α : Type} [DecidableEq α] (d : Nat → α) (m : Sparse α) (k j : Nat) (v : α)
    (h : j ≠ k) : Sparse.get d (Sparse.set d m k v) j = Sparse.get d m j := by
  unfold Sparse.set
  by_cases hv : v = d k
  · simp [hv, Sparse.get_erase_other d m k j h]
  · simp [hv, Sparse.get_insert_other d _ k j v h, Sparse.get_erase_other d m k j h]

theorem Sparse.rising_mono {α : Type} (m : Sparse α) (lo lo' : Nat) (h : lo' ≤ lo)
    (hr : Sparse.rising lo m = true) : Sparse.rising lo' m = true := by
  cases m with
  | nil => rfl
  | cons e m =>
    simp [Sparse.rising] at hr ⊢
    exact ⟨by omega, hr.2⟩

theorem Sparse.rising_erase {α : Type} (m : Sparse α) (lo k : Nat) (hr : Sparse.rising lo m = true) :
    Sparse.rising lo (Sparse.erase m k) = true := by
  induction m generalizing lo with
  | nil => rfl
  | cons e m ih =>
    simp [Sparse.rising] at hr
    by_cases h : e.1 = k
    · simp [Sparse.erase, h]
      exact Sparse.rising_mono _ (e.1 + 1) lo (by omega) (ih _ hr.2)
    · simp [Sparse.erase, h, Sparse.rising]
      exact ⟨hr.1, ih _ hr.2⟩

/-- Whether some entry has key `k`. -/
def Sparse.hasKey {α : Type} (m : Sparse α) (k : Nat) : Bool := m.any (fun e => e.1 = k)

theorem Sparse.erase_no_key {α : Type} (m : Sparse α) (k : Nat) : Sparse.hasKey (Sparse.erase m k) k = false := by
  induction m with
  | nil => rfl
  | cons e m ih =>
    by_cases h : e.1 = k
    · simpa [Sparse.erase, h] using ih
    · simp only [Sparse.hasKey] at ih ⊢
      simp [Sparse.erase, h]
      simpa using ih

theorem Sparse.rising_insert {α : Type} (m : Sparse α) (lo k : Nat) (v : α) (hk : Sparse.hasKey m k = false)
    (hl : lo ≤ k) (hr : Sparse.rising lo m = true) : Sparse.rising lo (Sparse.insert m k v) = true := by
  induction m generalizing lo with
  | nil => simp [Sparse.insert, Sparse.rising, hl]
  | cons e m ih =>
    simp [Sparse.rising] at hr
    simp [Sparse.hasKey] at hk
    by_cases h : k < e.1
    · have h1 : e.1 + 1 ≤ e.1 + 1 ∧ k + 1 ≤ e.1 := ⟨Nat.le_refl _, h⟩
      simp [Sparse.insert, h, Sparse.rising, hl, hr.2, h1.2]
    · simp [Sparse.insert, h, Sparse.rising, hr.1]
      exact ih (e.1 + 1) (by simpa [Sparse.hasKey] using hk.2) (by omega) hr.2

theorem Sparse.lean_erase {α : Type} [DecidableEq α] (d : Nat → α) (m : Sparse α) (k : Nat)
    (h : Sparse.lean d m = true) : Sparse.lean d (Sparse.erase m k) = true := by
  induction m with
  | nil => rfl
  | cons e m ih =>
    simp [Sparse.lean] at h
    by_cases hk : e.1 = k
    · simpa [Sparse.erase, hk] using ih h.2
    · simp [Sparse.erase, hk, Sparse.lean, h.1, ih h.2]

theorem Sparse.lean_insert {α : Type} [DecidableEq α] (d : Nat → α) (m : Sparse α) (k : Nat) (v : α)
    (hv : v ≠ d k) (h : Sparse.lean d m = true) : Sparse.lean d (Sparse.insert m k v) = true := by
  induction m with
  | nil => simp [Sparse.insert, Sparse.lean, hv]
  | cons e m ih =>
    simp [Sparse.lean] at h
    by_cases hk : k < e.1
    · simp [Sparse.insert, hk, Sparse.lean, hv, h.1, h.2]
    · simp [Sparse.insert, hk, Sparse.lean, h.1, ih h.2]

/-- Every write keeps the canonical form. -/
theorem Sparse.wf_set {α : Type} [DecidableEq α] (d : Nat → α) (m : Sparse α) (k : Nat) (v : α)
    (h : Sparse.wf d m = true) : Sparse.wf d (Sparse.set d m k v) = true := by
  simp [Sparse.wf] at h
  unfold Sparse.set
  by_cases hv : v = d k
  · simp [hv, Sparse.wf, Sparse.rising_erase m 0 k h.1, Sparse.lean_erase d m k h.2]
  · simp [hv, Sparse.wf,
      Sparse.rising_insert _ 0 k v (Sparse.erase_no_key m k) (Nat.zero_le _) (Sparse.rising_erase m 0 k h.1),
      Sparse.lean_insert d _ k v hv (Sparse.lean_erase d m k h.2)]

end Sys2Proof.Machine
end

