-- ==== Sys2Proof/Laws/Memory.lean ====
section
/-!
SUPPORT. Every operation on the byte memories keeps their canonical form (Mem.wf), and leaves the fuses.
-/

namespace Sys2Proof.Machine

theorem Mem.wf_iff (m : Mem) : m.wf = true ↔ Sparse.wf zeroByte m.nvs = true ∧ Sparse.wf zeroByte m.sram = true ∧
    Sparse.wf zeroByte m.shep = true ∧ Sparse.rising 0 m.dram = true := by
  simp [Mem.wf, and_assoc]

/-- A run of bytes written at rising keys keeps the canonical form. -/
theorem Sparse.wf_run {α : Type} [DecidableEq α] (d : Nat → α) (bs : List α) (p : Sparse α × Nat)
    (h : Sparse.wf d p.1 = true) :
    Sparse.wf d (bs.foldl (fun (r : Sparse α × Nat) b => (Sparse.set d r.1 r.2 b, r.2 + 1)) p).1 = true := by
  induction bs generalizing p with
  | nil => exact h
  | cons b bs ih => exact ih _ (Sparse.wf_set d p.1 p.2 b h)

theorem Sparse.rising_put {α : Type} (m : Sparse α) (k : Nat) (v : α) (h : Sparse.rising 0 m = true) :
    Sparse.rising 0 (Sparse.put m k v) = true :=
  Sparse.rising_insert _ 0 k v (Sparse.erase_no_key m k) (Nat.zero_le k) (Sparse.rising_erase m 0 k h)

theorem Sparse.rising_filter {α : Type} (p : Nat × α → Bool) (m : Sparse α) (lo : Nat) (h : Sparse.rising lo m = true) :
    Sparse.rising lo (m.filter p) = true := by
  induction m generalizing lo with
  | nil => rfl
  | cons e m ih =>
    simp only [Sparse.rising, Bool.and_eq_true, decide_eq_true_eq] at h
    by_cases hp : p e = true
    · simp only [List.filter_cons, hp, if_true, Sparse.rising, Bool.and_eq_true, decide_eq_true_eq]
      exact ⟨h.1, ih _ h.2⟩
    · simp only [List.filter_cons, hp]
      exact ih _ (Sparse.rising_mono m _ _ (by omega) h.2)

theorem Sparse.lean_filter {α : Type} [DecidableEq α] (d : Nat → α) (p : Nat × α → Bool) (m : Sparse α)
    (h : Sparse.lean d m = true) : Sparse.lean d (m.filter p) = true := by
  induction m with
  | nil => rfl
  | cons e m ih =>
    simp only [Sparse.lean, Bool.and_eq_true] at h
    by_cases hp : p e = true
    · simp only [List.filter_cons, hp, if_true, Sparse.lean, Bool.and_eq_true]
      exact ⟨h.1, ih h.2⟩
    · simp only [List.filter_cons, hp]
      exact ih h.2

theorem Sparse.wf_filter {α : Type} [DecidableEq α] (d : Nat → α) (p : Nat × α → Bool) (m : Sparse α)
    (h : Sparse.wf d m = true) : Sparse.wf d (m.filter p) = true := by
  simp only [Sparse.wf, Bool.and_eq_true] at h ⊢
  exact ⟨Sparse.rising_filter p m 0 h.1, Sparse.lean_filter d p m h.2⟩

/-! ### The operations -/

@[simp] theorem Mem.nvsPut_otp (m : Mem) (a : Nat) (bs : List Byte) : (m.nvsPut a bs).otp = m.otp := rfl
@[simp] theorem Mem.dramPut_otp (m : Mem) (a : Nat) (v : Byte) : (m.dramPut a v).otp = m.otp := rfl

theorem Mem.wf_nvsPut (m : Mem) (a : Nat) (bs : List Byte) (h : m.wf = true) : (m.nvsPut a bs).wf = true := by
  rw [Mem.wf_iff] at h ⊢
  exact ⟨Sparse.wf_run zeroByte bs (m.nvs, a) h.1, h.2⟩

theorem Mem.wf_dramPut (m : Mem) (a : Nat) (v : Byte) (h : m.wf = true) : (m.dramPut a v).wf = true := by
  rw [Mem.wf_iff] at h ⊢
  exact ⟨h.1, h.2.1, h.2.2.1, Sparse.rising_put m.dram a v h.2.2.2⟩

/-- A fold over memories that keeps canonical form and fuses at each step keeps them. -/
theorem Mem.foldl_keeps {α : Type} (f : Mem → α → Mem) (ho : ∀ m x, (f m x).otp = m.otp)
    (hw : ∀ m x, m.wf = true → (f m x).wf = true) (l : List α) (m : Mem) :
    (l.foldl f m).otp = m.otp ∧ (m.wf = true → (l.foldl f m).wf = true) := by
  induction l generalizing m with
  | nil => exact ⟨rfl, id⟩
  | cons x l ih => exact ⟨(ih (f m x)).1.trans (ho m x), fun h => (ih (f m x)).2 (hw m x h)⟩

theorem Mem.dramPutWord_keeps (m : Mem) (a : Nat) (v : Word) :
    (m.dramPutWord a v).otp = m.otp ∧ (m.wf = true → (m.dramPutWord a v).wf = true) :=
  Mem.foldl_keeps (fun n j => n.dramPut (a + j) (BitVec.ofNat 8 (v.toNat / 2 ^ (8 * j)))) (fun _ _ => rfl)
    (fun n _ h => Mem.wf_dramPut n _ _ h) (List.range 4) m

/-- A run of DRAM bytes. -/
theorem Mem.dramRun_keeps (bs : List Byte) (p : Mem × Nat) :
    (bs.foldl (fun (r : Mem × Nat) b => (r.1.dramPut r.2 b, r.2 + 1)) p).1.otp = p.1.otp ∧
      (p.1.wf = true → (bs.foldl (fun (r : Mem × Nat) b => (r.1.dramPut r.2 b, r.2 + 1)) p).1.wf = true) := by
  induction bs generalizing p with
  | nil => exact ⟨rfl, id⟩
  | cons b bs ih => exact ⟨(ih (p.1.dramPut p.2 b, p.2 + 1)).1, fun h => (ih (p.1.dramPut p.2 b, p.2 + 1)).2 (Mem.wf_dramPut _ _ _ h)⟩

theorem Mem.wf_wipeNvs (m : Mem) (h : m.wf = true) : m.wipeNvs.wf = true := by
  rw [Mem.wf_iff] at h ⊢
  exact ⟨Sparse.wf_filter zeroByte _ m.nvs h.1, h.2⟩

end Sys2Proof.Machine
end

