-- ==== Sys2Proof/Laws/Kept.lean ====
section
/-!
SUPPORT. What every operation keeps: the queue, the fuses (which only grow), and the canonical form of the byte memories. One
lemma per operation, here for those of Machine/Ops.lean and for what a state is built of.
-/

namespace Sys2Proof.Machine

/-- Fuses that have grown, with the life-cycle state as it was. -/
structure Otp.Same (a b : Otp) : Prop extends Otp.Grows a b where
  lcSame : b.lc = a.lc

/-- A state whose queue is `q`, whose fuses have grown from `o`, and whose memories are in canonical form if `w` says so. -/
def Kept (q : List Sys2Proof.Instr) (o : Otp) (w : Bool) (s : State) : Prop :=
  s.pending = q ∧ Otp.Same o s.mem.otp ∧ (w = true → s.mem.wf = true)

/-- The answer of a command is a next state that is kept. -/
def KeptRes (q : List Sys2Proof.Instr) (o : Otp) (w : Bool) (r : Res) : Prop := ∃ t, r = .next t ∧ Kept q o w t

variable {q : List Sys2Proof.Instr} {o : Otp} {w : Bool}

theorem Otp.Grows.refl (a : Otp) : Otp.Grows a a := ⟨Nat.le_refl _, Nat.le_refl _, id, rfl, rfl, rfl, rfl, rfl, rfl⟩

theorem Otp.Same.refl (a : Otp) : Otp.Same a a := ⟨Otp.Grows.refl a, rfl⟩

theorem Kept.start (s : State) : Kept s.pending s.mem.otp s.mem.wf s := ⟨rfl, Otp.Same.refl _, id⟩

/-- Fields other than the queue and the memories may change. -/
theorem kept_mk {s : State} {regs shadow msc edge latch sched fc ccu pins boot twin drover shep quilt seam needle bell ptp net
    port line alarm out freeCtr} (h : Kept q o w s) :
    Kept q o w (State.mk s.pending regs shadow msc edge latch sched fc ccu s.mem pins boot twin drover shep quilt seam needle
      bell ptp net port line alarm out freeCtr) := h

theorem kept_mk_iff {s : State} {regs shadow msc edge latch sched fc ccu pins boot twin drover shep quilt seam needle bell ptp net
    port line alarm out freeCtr} :
    Kept q o w (State.mk s.pending regs shadow msc edge latch sched fc ccu s.mem pins boot twin drover shep quilt seam needle
      bell ptp net port line alarm out freeCtr) ↔ Kept q o w s := Iff.rfl

/-- The memories change as well. -/
theorem kept_mem {s : State} {regs shadow msc edge latch sched fc ccu mem pins boot twin drover shep quilt seam needle bell ptp
    net port line alarm out freeCtr} (h : Kept q o w s) (ho : Otp.Same o s.mem.otp → Otp.Same o mem.otp)
    (hm : s.mem.wf = true → mem.wf = true) :
    Kept q o w (State.mk s.pending regs shadow msc edge latch sched fc ccu mem pins boot twin drover shep quilt seam needle
      bell ptp net port line alarm out freeCtr) := ⟨h.1, ho h.2.1, fun hw => hm (h.2.2 hw)⟩

theorem kept_nvsPut {s : State} {regs shadow msc edge latch sched fc ccu a bs pins boot twin drover shep quilt seam needle bell ptp
    net port line alarm out freeCtr} (h : Kept q o w s) :
    Kept q o w (State.mk s.pending regs shadow msc edge latch sched fc ccu (s.mem.nvsPut a bs) pins boot twin drover shep quilt
      seam needle bell ptp net port line alarm out freeCtr) := kept_mem h id (Mem.wf_nvsPut _ _ _)

/-- A pair made of a pair's parts. -/
theorem kept_pair {α β : Type} {g : State × α → β} {r : State × α} (h : Kept q o w r.1) : Kept q o w (r.1, g r).1 := h

theorem kept_ite {c : Prop} [Decidable c] {a b : State} (ha : Kept q o w a) (hb : Kept q o w b) :
    Kept q o w (if c then a else b) := by split <;> assumption

theorem kept_fst_ite {α : Type} {c : Prop} [Decidable c] {a b : State × α} (ha : Kept q o w a.1) (hb : Kept q o w b.1) :
    Kept q o w (if c then a else b).1 := by split <;> assumption

theorem kept_snd_ite {α : Type} {c : Prop} [Decidable c] {a b : α × State} (ha : Kept q o w a.2) (hb : Kept q o w b.2) :
    Kept q o w (if c then a else b).2 := by split <;> assumption

theorem kept_foldl {α : Type} {f : State → α → State} (hf : ∀ s x, Kept q o w s → Kept q o w (f s x)) {l : List α} {s : State}
    (h : Kept q o w s) : Kept q o w (l.foldl f s) := by
  induction l generalizing s with
  | nil => exact h
  | cons x l ih => exact ih (hf s x h)

theorem kept_fst_foldl {α β : Type} {f : State × β → α → State × β}
    (hf : ∀ p x, Kept q o w p.1 → Kept q o w (f p x).1) {l : List α} {p : State × β} (h : Kept q o w p.1) :
    Kept q o w (l.foldl f p).1 := by
  induction l generalizing p with
  | nil => exact h
  | cons x l ih => exact ih (hf p x h)

theorem kept_next {s : State} (h : Kept q o w s) : KeptRes q o w (.next s) := ⟨s, rfl, h⟩

theorem kept_res_ite {c : Prop} [Decidable c] {a b : Res} (ha : KeptRes q o w a) (hb : KeptRes q o w b) :
    KeptRes q o w (if c then a else b) := by split <;> assumption

end Sys2Proof.Machine
end

