-- ==== Sys2Proof/Laws/KeptOps.lean ====
section
/-! SUPPORT. What every function of the register file, the CCU, the fault collector and ECC keeps: the queue, the fuses (`Otp.Same`) and the canonical memory (`Kept`), one lemma a function. -/

set_option maxRecDepth 4000
set_option linter.unusedSimpArgs false

namespace Sys2Proof.Machine

variable {q : List Sys2Proof.Instr} {o : Otp} {w : Bool}

theorem State.wr_kept (s : State) (a : Nat) (v : Sys2Proof.Word) (h : Kept q o w s) :
    Kept q o w (State.wr s a v) := by
  unfold State.wr
  repeat' first | (with_reducible first | assumption | apply kept_ite | apply kept_fst_ite | simp only [kept_mk_iff]) | dsimp only

theorem State.wrN_kept (s : State) (a : Nat) (v : Nat) (h : Kept q o w s) :
    Kept q o w (State.wrN s a v) := by
  unfold State.wrN
  repeat' first | (with_reducible first | assumption | apply State.wr_kept | apply kept_ite | apply kept_fst_ite | simp only [kept_mk_iff]) | dsimp only

theorem State.setFld_kept (s : State) (a : Nat) (f : Fld) (v : Nat) (h : Kept q o w s) :
    Kept q o w (State.setFld s a f v) := by
  unfold State.setFld
  repeat' first | (with_reducible first | assumption | apply State.wrN_kept | apply kept_ite | apply kept_fst_ite | simp only [kept_mk_iff]) | dsimp only

theorem State.setBit_kept (s : State) (a : Nat) (f : Fld) (b : Bool) (h : Kept q o w s) :
    Kept q o w (State.setBit s a f b) := by
  unfold State.setBit
  repeat' first | (with_reducible first | assumption | apply State.setFld_kept | apply kept_ite | apply kept_fst_ite | simp only [kept_mk_iff]) | split | dsimp only

theorem State.flag_kept (s : State) (a : Nat) (f : Fld) (h : Kept q o w s) :
    Kept q o w (State.flag s a f) := by
  unfold State.flag
  repeat' first | (with_reducible first | assumption | apply State.setFld_kept | apply kept_ite | apply kept_fst_ite | simp only [kept_mk_iff]) | dsimp only

theorem State.setBitAt_kept (s : State) (a : Nat) (k : Nat) (b : Bool) (h : Kept q o w s) :
    Kept q o w (State.setBitAt s a k b) := by
  unfold State.setBitAt
  repeat' first | (with_reducible first | assumption | apply State.setFld_kept | apply kept_ite | apply kept_fst_ite | simp only [kept_mk_iff]) | split | dsimp only

theorem State.countBy_kept (s : State) (a : Nat) (n : Nat) (h : Kept q o w s) :
    Kept q o w (State.countBy s a n) := by
  unfold State.countBy
  repeat' first | (with_reducible first | assumption | apply State.wrN_kept | apply kept_ite | apply kept_fst_ite | simp only [kept_mk_iff]) | dsimp only

theorem State.count_kept (s : State) (a : Nat) (h : Kept q o w s) :
    Kept q o w (State.count s a) := by
  unfold State.count
  repeat' first | (with_reducible first | assumption | apply State.countBy_kept | apply kept_ite | apply kept_fst_ite | simp only [kept_mk_iff]) | dsimp only

theorem State.countFld_kept (s : State) (a : Nat) (f : Fld) (h : Kept q o w s) :
    Kept q o w (State.countFld s a f) := by
  unfold State.countFld
  repeat' first | (with_reducible first | assumption | apply State.setFld_kept | apply kept_ite | apply kept_fst_ite | simp only [kept_mk_iff]) | dsimp only

theorem State.wr64_kept (s : State) (lo : Nat) (hi : Nat) (v : Nat) (h : Kept q o w s) :
    Kept q o w (State.wr64 s lo hi v) := by
  unfold State.wr64
  repeat' first | (with_reducible first | assumption | apply State.wrN_kept | apply kept_ite | apply kept_fst_ite | simp only [kept_mk_iff]) | dsimp only

theorem State.setShadow_kept (s : State) (a : Nat) (v : Sys2Proof.Word) (h : Kept q o w s) :
    Kept q o w (State.setShadow s a v) := by
  unfold State.setShadow
  repeat' first | (with_reducible first | assumption | apply kept_ite | apply kept_fst_ite | simp only [kept_mk_iff]) | dsimp only

theorem State.dropShadows_kept (s : State) (g : List Nat) (h : Kept q o w s) :
    Kept q o w (State.dropShadows s g) := by
  unfold State.dropShadows
  repeat' first | (with_reducible first | assumption | apply kept_ite | apply kept_fst_ite | simp only [kept_mk_iff]) | dsimp only

theorem State.reloadShadows_kept (s : State) (g : List Nat) (captured : List (Nat × Sys2Proof.Word)) (h : Kept q o w s) :
    Kept q o w (State.reloadShadows s g captured) := by
  unfold State.reloadShadows
  repeat' first | (with_reducible first | assumption | apply State.setShadow_kept | apply State.dropShadows_kept | apply kept_ite | apply kept_fst_ite | apply kept_snd_ite | apply kept_foldl | apply kept_fst_foldl | simp only [kept_mk_iff]) | intro _ _ _ | intro _ _ | dsimp only

theorem State.activate_kept (s : State) (captured : List (Nat × Sys2Proof.Word)) (h : Kept q o w s) :
    Kept q o w (State.activate s captured) := by
  unfold State.activate
  dsimp only
  repeat' first | (with_reducible first | assumption | apply State.wr_kept | apply kept_ite | apply kept_fst_ite | apply kept_snd_ite | apply kept_foldl | apply kept_fst_foldl | simp only [kept_mk_iff]) | intro _ _ _ | intro _ _

theorem State.bump_kept (s : State) (h : Kept q o w s) :
    Kept q o w (State.bump s) := by
  unfold State.bump
  repeat' first | (with_reducible first | assumption | apply kept_ite | apply kept_fst_ite | simp only [kept_mk_iff]) | dsimp only

theorem State.latchHi_kept (s : State) (lo : Nat) (v : Sys2Proof.Word) (h : Kept q o w s) :
    Kept q o w (State.latchHi s lo v) := by
  unfold State.latchHi
  repeat' first | (with_reducible first | assumption | apply kept_ite | apply kept_fst_ite | simp only [kept_mk_iff]) | dsimp only

theorem State.dropLatch_kept (s : State) (lo : Nat) (h : Kept q o w s) :
    Kept q o w (State.dropLatch s lo) := by
  unfold State.dropLatch
  repeat' first | (with_reducible first | assumption | apply kept_ite | apply kept_fst_ite | simp only [kept_mk_iff]) | dsimp only

theorem State.setCcuState_kept (s : State) (r : Nat) (v : Nat) (h : Kept q o w s) :
    Kept q o w (State.setCcuState s r v) := by
  unfold State.setCcuState
  repeat' first | (with_reducible first | assumption | apply State.setFld_kept | apply kept_ite | apply kept_fst_ite | simp only [kept_mk_iff]) | dsimp only

theorem State.setCcuAdopt_kept (s : State) (r : Nat) (b : Bool) (h : Kept q o w s) :
    Kept q o w (State.setCcuAdopt s r b) := by
  unfold State.setCcuAdopt
  repeat' first | (with_reducible first | assumption | apply State.setBitAt_kept | apply kept_ite | apply kept_fst_ite | simp only [kept_mk_iff]) | dsimp only

theorem State.setCcuDeadline_kept (s : State) (r : Nat) (v : Nat) (h : Kept q o w s) :
    Kept q o w (State.setCcuDeadline s r v) := by
  unfold State.setCcuDeadline
  repeat' first | (with_reducible first | assumption | apply State.wr64_kept | apply kept_ite | apply kept_fst_ite | simp only [kept_mk_iff]) | dsimp only

theorem State.ccuChange_kept (s : State) (r : Nat) (h : Kept q o w s) :
    Kept q o w (State.ccuChange s r) := by
  unfold State.ccuChange
  dsimp only
  repeat' first | (with_reducible first | assumption | apply State.setCcuDeadline_kept | apply State.setCcuState_kept | apply kept_ite | apply kept_fst_ite | simp only [kept_mk_iff]) | split

theorem State.ccuConfigChange_kept (old new : State) (a : Nat) (h : Kept q o w new) :
    Kept q o w (State.ccuConfigChange old new a) := by
  unfold State.ccuConfigChange
  exact kept_ite (State.ccuChange_kept _ _ h) h

theorem State.activateConfig_kept (s : State) (captured : List (Nat × Sys2Proof.Word)) (h : Kept q o w s) :
    Kept q o w (State.activateConfig s captured) := by
  unfold State.activateConfig
  dsimp only
  repeat' first | (with_reducible first | assumption | apply State.activate_kept | apply State.ccuChange_kept | apply kept_ite | apply kept_fst_ite | simp only [kept_mk_iff]) | split

theorem State.takeConfig_kept (s : State) (g : List Nat) (h : Kept q o w s) :
    Kept q o w (State.takeConfig s g) := by
  unfold State.takeConfig
  repeat' first | (with_reducible first | assumption | apply State.dropShadows_kept | apply State.activateConfig_kept | apply kept_ite | apply kept_fst_ite | simp only [kept_mk_iff]) | dsimp only

theorem State.syncOvl_kept (s : State) (h : Kept q o w s) :
    Kept q o w (State.syncOvl s) := by
  unfold State.syncOvl
  dsimp only
  repeat' first | (with_reducible first | assumption | apply State.setBit_kept | apply kept_ite | apply kept_fst_ite | simp only [kept_mk_iff]) | split

theorem State.ccuFallback_kept (s : State) (h : Kept q o w s) :
    Kept q o w (State.ccuFallback s) := by
  unfold State.ccuFallback
  dsimp only
  repeat' first | (with_reducible first | assumption | apply State.setCcuDeadline_kept | apply State.setCcuAdopt_kept | apply State.setCcuState_kept | apply State.setBit_kept | apply kept_ite | apply kept_fst_ite | apply kept_foldl | apply kept_fst_foldl | simp only [kept_mk_iff]) | intro _ _ _ | intro _ _

theorem State.setCore_kept (s : State) (c : Nat) (k : Core) (h : Kept q o w s) :
    Kept q o w (State.setCore s c k) := by
  unfold State.setCore
  dsimp only
  repeat' first | (with_reducible first | assumption | apply kept_ite | apply kept_fst_ite | simp only [kept_mk_iff])

theorem State.netEnterFallback_kept (s : State) (h : Kept q o w s) :
    Kept q o w (State.netEnterFallback s) := by
  unfold State.netEnterFallback
  dsimp only
  repeat' first | (with_reducible first | assumption | apply State.setFld_kept | apply State.wrN_kept | apply kept_ite | apply kept_fst_ite | apply kept_snd_ite | apply kept_foldl | apply kept_fst_foldl | simp only [kept_mk_iff]) | split | intro _ _ _ | intro _ _

theorem State.portsEnterFallback_kept (s : State) (h : Kept q o w s) :
    Kept q o w (State.portsEnterFallback s) := by
  unfold State.portsEnterFallback
  dsimp only
  repeat' first | (with_reducible first | assumption | apply State.setFld_kept | apply kept_ite | apply kept_fst_ite | apply kept_snd_ite | apply kept_foldl | apply kept_fst_foldl | simp only [kept_mk_iff]) | split | intro _ _ _ | intro _ _

theorem State.seamEnterFallback_kept (s : State) (h : Kept q o w s) :
    Kept q o w (State.seamEnterFallback s) := by
  unfold State.seamEnterFallback
  dsimp only
  repeat' first | (with_reducible first | assumption | apply State.setBit_kept | apply State.setFld_kept | apply kept_ite | apply kept_fst_ite | simp only [kept_mk_iff])

theorem enterFallback_kept (s : State) (h : Kept q o w s) :
    Kept q o w (enterFallback s) := by
  unfold enterFallback
  dsimp only
  repeat' first | (with_reducible first | assumption | apply State.portsEnterFallback_kept | apply State.netEnterFallback_kept | apply State.seamEnterFallback_kept | apply State.setBit_kept | apply kept_ite | apply kept_fst_ite | apply kept_snd_ite | simp only [kept_mk_iff]) | split

theorem State.resetCore_kept (s : State) (c : Nat) (h : Kept q o w s) :
    Kept q o w (State.resetCore s c) := by
  unfold State.resetCore
  dsimp only
  repeat' first | (with_reducible first | assumption | apply State.setCore_kept | apply State.setBitAt_kept | apply kept_ite | apply kept_fst_ite | simp only [kept_mk_iff]) | split

theorem State.resetNetPort_kept (s : State) (p : Nat) (h : Kept q o w s) :
    Kept q o w (State.resetNetPort s p).1 := by
  unfold State.resetNetPort
  dsimp only
  repeat' first | (with_reducible first | assumption | apply State.setBit_kept | apply State.setBitAt_kept | apply kept_ite | apply kept_fst_ite | simp only [kept_mk_iff]) | split

theorem State.resetLocalPort_kept (s : State) (key : Nat) (h : Kept q o w s) :
    Kept q o w (State.resetLocalPort s key) := by
  unfold State.resetLocalPort
  dsimp only
  repeat' first | (with_reducible first | assumption | apply State.setBit_kept | apply State.setBitAt_kept | apply kept_ite | apply kept_fst_ite | apply kept_snd_ite | simp only [kept_mk_iff]) | split

theorem blkReset_kept (f : Nat) (unit : Nat) (s : State) (h : Kept q o w s) :
    Kept q o w (blkReset f unit s).1 := by
  unfold blkReset
  dsimp only
  repeat' first | (with_reducible first | assumption | apply State.resetCore_kept | apply State.resetNetPort_kept | apply State.resetLocalPort_kept | apply State.setFld_kept | apply State.wrN_kept | apply State.wr64_kept | apply kept_ite | apply kept_fst_ite | apply kept_foldl | apply kept_fst_foldl | simp only [kept_mk_iff]) | split | intro _ _ _ | intro _ _

theorem State.setSys_kept (s : State) (m : Mode) (ret : Mode) (duty : Bool) (fb : Bool) (cause : Nat) (h : Kept q o w s) :
    Kept q o w (State.setSys s m ret duty fb cause) := by
  unfold State.setSys
  dsimp only
  repeat' first | (with_reducible first | assumption | apply State.countFld_kept | apply State.setFld_kept | apply State.setBit_kept | apply kept_ite | apply kept_fst_ite | simp only [kept_mk_iff]) | split

theorem State.setMode_kept (s : State) (m : Mode) (cause : Nat) (h : Kept q o w s) :
    Kept q o w (State.setMode s m cause) := by
  unfold State.setMode
  repeat' first | (with_reducible first | assumption | apply State.setSys_kept | apply kept_ite | apply kept_fst_ite | simp only [kept_mk_iff]) | dsimp only

theorem State.pinSync_kept (s : State) (h : Kept q o w s) :
    Kept q o w (State.pinSync s) := by
  unfold State.pinSync
  dsimp only
  repeat' first | (with_reducible first | assumption | apply kept_ite | apply kept_fst_ite | simp only [kept_mk_iff]) | split

theorem State.pinReleased_kept (s : State) (h : Kept q o w s) :
    Kept q o w (State.pinReleased s) := by
  unfold State.pinReleased
  dsimp only
  repeat' first | (with_reducible first | assumption | apply kept_ite | apply kept_fst_ite | simp only [kept_mk_iff]) | split

theorem State.cleared_kept (s : State) (h : Kept q o w s) : Kept q o w (State.cleared s) := by
  unfold State.cleared
  refine kept_mem h id fun hm => ?_
  rw [Mem.wf_iff] at hm ⊢
  exact ⟨hm.1, rfl, rfl, rfl⟩

theorem State.chipReset_kept (s : State) (cause : Nat) (src : Nat) (h : Kept q o w s) :
    Kept q o w (State.chipReset s cause src) := by
  unfold State.chipReset
  dsimp only
  repeat' first | (with_reducible first | assumption | apply State.wrN_kept | apply State.cleared_kept | apply kept_ite | apply kept_fst_ite | simp only [kept_mk_iff]) | split

theorem State.powerOnReset_kept (s : State) (h : Kept q o w s) :
    Kept q o w (State.powerOnReset s) := by
  unfold State.powerOnReset
  repeat' first | (with_reducible first | assumption | apply State.cleared_kept | apply kept_ite | apply kept_fst_ite | simp only [kept_mk_iff]) | dsimp only

theorem State.startRelease_kept (s : State) (r : Release) (h : Kept q o w s) :
    Kept q o w (State.startRelease s r) := by
  unfold State.startRelease
  dsimp only
  repeat' first | (with_reducible first | assumption | apply kept_ite | apply kept_fst_ite | simp only [kept_mk_iff])

theorem State.chipRstReaction_kept (s : State) (cause : Nat) (src : Nat) (h : Kept q o w s) :
    Kept q o w (State.chipRstReaction s cause src) := by
  unfold State.chipRstReaction
  repeat' first | (with_reducible first | assumption | apply State.startRelease_kept | apply State.chipReset_kept | apply kept_ite | apply kept_fst_ite | simp only [kept_mk_iff]) | split | dsimp only

theorem State.recordEvent_kept (s : State) (f : Nat) (info : Nat) (st : Nat) (react : Nat) (held : Nat) (severeNow : Bool) (h : Kept q o w s) :
    Kept q o w (State.recordEvent s f info st react held severeNow) := by
  unfold State.recordEvent
  dsimp only
  repeat' first | (with_reducible first | assumption | apply State.setBit_kept | apply State.wrN_kept | apply State.wr64_kept | apply State.setBitAt_kept | apply kept_ite | apply kept_fst_ite | apply kept_foldl | apply kept_fst_foldl | simp only [kept_mk_iff]) | split | intro _ _ _ | intro _ _

theorem State.deliverTrap_kept (s : State) (f : Nat) (info : Nat) (h : Kept q o w s) :
    Kept q o w (State.deliverTrap s f info) := by
  unfold State.deliverTrap
  dsimp only
  repeat' first | (with_reducible first | assumption | apply kept_ite | apply kept_fst_ite | simp only [kept_mk_iff]) | split

theorem State.collect_kept (s : State) (f : Nat) (unit : Nat) (detail : Nat) (h : Kept q o w s) :
    Kept q o w (State.collect s f unit detail).1 := by
  unfold State.collect
  dsimp only
  repeat' first | (with_reducible first | assumption | apply State.count_kept | apply State.setFld_kept | apply State.setBitAt_kept | apply State.flag_kept | apply State.recordEvent_kept | apply State.deliverTrap_kept | apply State.pinSync_kept | apply kept_ite | apply kept_fst_ite | simp only [kept_mk_iff]) | split

theorem State.bootFallback_kept (s : State) (cause : Nat) (h : Kept q o w s) :
    Kept q o w (State.bootFallback s cause) := by
  unfold State.bootFallback
  dsimp only
  repeat' first | (with_reducible first | assumption | apply enterFallback_kept | apply State.setSys_kept | apply State.count_kept | apply State.wr64_kept | apply State.collect_kept | apply State.flag_kept | apply kept_ite | apply kept_fst_ite | simp only [kept_mk_iff]) | split

theorem State.fallbackNow_kept (s : State) (cause : Nat) (src : Nat) (h : Kept q o w s) :
    Kept q o w (State.fallbackNow s cause src) := by
  unfold State.fallbackNow
  dsimp only
  repeat' first | (with_reducible first | assumption | apply State.chipReset_kept | apply State.bootFallback_kept | apply State.startRelease_kept | apply enterFallback_kept | apply State.setSys_kept | apply kept_ite | apply kept_fst_ite | simp only [kept_mk_iff]) | split

theorem State.fallbackCond_kept (s : State) (cause : Nat) (src : Nat) (h : Kept q o w s) :
    Kept q o w (State.fallbackCond s cause src) := by
  unfold State.fallbackCond
  dsimp only
  repeat' first | (with_reducible first | assumption | apply State.fallbackNow_kept | apply kept_ite | apply kept_fst_ite | simp only [kept_mk_iff]) | split

theorem State.raiseAfter_kept (s : State) (f : Nat) (unit : Nat) (h : Kept q o w s) :
    Kept q o w (State.raiseAfter s f unit) := by
  unfold State.raiseAfter
  dsimp only
  repeat' first | (with_reducible first | assumption | apply State.collect_kept | apply State.chipRstReaction_kept | apply kept_ite | apply kept_fst_ite | apply kept_snd_ite | simp only [kept_mk_iff]) | split

theorem State.raise_kept (s : State) (f : Nat) (unit : Nat) (detail : Nat) (h : Kept q o w s) :
    Kept q o w (State.raise s f unit detail) := by
  unfold State.raise
  dsimp only
  repeat' first | (with_reducible first | assumption | apply State.collect_kept | apply blkReset_kept | apply State.raiseAfter_kept | apply State.fallbackCond_kept | apply State.chipRstReaction_kept | apply State.pinSync_kept | apply kept_ite | apply kept_fst_ite | apply kept_snd_ite | apply kept_foldl | apply kept_fst_foldl | simp only [kept_mk_iff]) | split | intro _ _ _ | intro _ _

theorem State.eccResult_kept (s : State) (mem : Nat) (master : Nat) (dram : Bool) (addr : Sys2Proof.Word) (ue : Bool) (src : Option Nat) (unit : Nat) (h : Kept q o w s) :
    Kept q o w (State.eccResult s mem master dram addr ue src unit) := by
  unfold State.eccResult
  dsimp only
  repeat' first | (with_reducible first | assumption | apply State.count_kept | apply State.wr_kept | apply State.wrN_kept | apply State.flag_kept | apply State.raise_kept | apply kept_ite | apply kept_fst_ite | simp only [kept_mk_iff]) | split

theorem State.dramFail_kept (s : State) (h : Kept q o w s) :
    Kept q o w (State.dramFail s) := by
  unfold State.dramFail
  dsimp only
  repeat' first | (with_reducible first | assumption | apply State.setFld_kept | apply State.setBit_kept | apply State.raise_kept | apply kept_ite | apply kept_fst_ite | simp only [kept_mk_iff])

theorem State.dramUe_kept (s : State) (master a : Nat) (src : Option Nat) (h : Kept q o w s) :
    Kept q o w (State.dramUe s master a src) := by
  unfold State.dramUe
  have h := State.eccResult_kept s 11 master true (BitVec.ofNat 32 (a / 4)) true src 0 h
  generalize s.eccResult 11 master true (BitVec.ofNat 32 (a / 4)) true src 0 = t at h ⊢
  exact kept_ite (State.dramFail_kept _ (kept_mem h id id)) (kept_mem h id id)

theorem State.quiltEcc_kept (s : State) (w' : QWord) (master : Nat) (ue : Bool) (h : Kept q o w s) :
    Kept q o w (State.quiltEcc s w' master ue) := by
  unfold State.quiltEcc
  repeat' first | (with_reducible first | assumption | apply State.eccResult_kept | apply kept_ite | apply kept_fst_ite | simp only [kept_mk_iff]) | dsimp only

end Sys2Proof.Machine
end

