-- ==== Sys2Proof/Laws/KeptBell.lean ====
section
/-! SUPPORT. What every function of the clock unit and the time base keeps: the queue, the fuses (`Otp.Same`) and the canonical memory (`Kept`), one lemma a function. -/

set_option maxRecDepth 4000
set_option linter.unusedSimpArgs false

namespace Sys2Proof.Machine

variable {q : List Sys2Proof.Instr} {o : Otp} {w : Bool}

theorem State.setRefIn_kept (s : State) (n : Nat) (r : RefIn) (h : Kept q o w s) :
    Kept q o w (State.setRefIn s n r) := by
  unfold State.setRefIn
  dsimp only
  repeat' first | (with_reducible first | assumption | apply kept_ite | apply kept_fst_ite | simp only [kept_mk_iff])

theorem State.syncQtLeft_kept (s : State) (n : Nat) (h : Kept q o w s) :
    Kept q o w (State.syncQtLeft s n) := by
  unfold State.syncQtLeft
  dsimp only
  repeat' first | (with_reducible first | assumption | apply State.setFld_kept | apply kept_ite | apply kept_fst_ite | simp only [kept_mk_iff]) | split

theorem State.setCurRef_kept (s : State) (c : Option Nat) (h : Kept q o w s) :
    Kept q o w (State.setCurRef s c) := by
  unfold State.setCurRef
  repeat' first | (with_reducible first | assumption | apply State.setFld_kept | apply State.setBit_kept | apply kept_ite | apply kept_fst_ite | simp only [kept_mk_iff]) | split | dsimp only

theorem State.disqualify_kept (s : State) (n : Nat) (code : Nat) (h : Kept q o w s) :
    Kept q o w (State.disqualify s n code) := by
  unfold State.disqualify
  dsimp only
  repeat' first | (with_reducible first | assumption | apply State.setFld_kept | apply State.setBitAt_kept | apply State.raise_kept | apply State.flag_kept | apply kept_ite | apply kept_fst_ite | simp only [kept_mk_iff]) | split

theorem State.refInactive_kept (s : State) (n : Nat) (h : Kept q o w s) :
    Kept q o w (State.refInactive s n) := by
  unfold State.refInactive
  dsimp only
  repeat' first | (with_reducible first | assumption | apply State.setRefIn_kept | apply State.setBitAt_kept | apply State.setBit_kept | apply State.syncQtLeft_kept | apply State.disqualify_kept | apply State.raise_kept | apply State.flag_kept | apply kept_ite | apply kept_fst_ite | simp only [kept_mk_iff]) | split

theorem State.refBecomesActive_kept (s : State) (n : Nat) (h : Kept q o w s) :
    Kept q o w (State.refBecomesActive s n) := by
  unfold State.refBecomesActive
  dsimp only
  repeat' first | (with_reducible first | assumption | apply State.setRefIn_kept | apply State.setBitAt_kept | apply kept_ite | apply kept_fst_ite | simp only [kept_mk_iff]) | split

theorem State.syncTbRef_kept (s : State) (n : Nat) (h : Kept q o w s) :
    Kept q o w (State.syncTbRef s n) := by
  unfold State.syncTbRef
  repeat' first | (with_reducible first | assumption | apply State.refBecomesActive_kept | apply State.refInactive_kept | apply kept_ite | apply kept_fst_ite | simp only [kept_mk_iff]) | split | dsimp only

theorem execRefActivityLoss_kept (n : Fin 16) (s : State) (h : Kept q o w s) :
    KeptRes q o w (execRefActivityLoss n s) := by
  unfold execRefActivityLoss
  repeat' first | (with_reducible first | assumption | apply State.syncTbRef_kept | apply State.refInactive_kept | apply kept_next | apply kept_res_ite | apply kept_ite | apply kept_fst_ite | simp only [kept_mk_iff]) | split | dsimp only

theorem execReferenceActive_kept (n : Fin 16) (s : State) (h : Kept q o w s) :
    KeptRes q o w (execReferenceActive n s) := by
  unfold execReferenceActive
  repeat' first | (with_reducible first | assumption | apply State.syncTbRef_kept | apply State.refBecomesActive_kept | apply kept_next | apply kept_res_ite | apply kept_ite | apply kept_fst_ite | simp only [kept_mk_iff]) | split | dsimp only

theorem State.agreement_kept (s : State) (h : Kept q o w s) :
    Kept q o w (State.agreement s) := by
  unfold State.agreement
  dsimp only
  repeat' first | (with_reducible first | assumption | apply State.setFld_kept | apply State.flag_kept | apply State.raise_kept | apply kept_ite | apply kept_fst_ite | apply kept_snd_ite | apply kept_foldl | apply kept_fst_foldl | simp only [kept_mk_iff]) | split | intro _ _ _ | intro _ _

theorem State.judgeGate_kept (s : State) (n : Nat) (p : Nat) (h : Kept q o w s) :
    Kept q o w (State.judgeGate s n p) := by
  unfold State.judgeGate
  dsimp only
  repeat' first | (with_reducible first | assumption | apply State.setRefIn_kept | apply State.wr_kept | apply State.setBit_kept | apply State.disqualify_kept | apply State.setBitAt_kept | apply kept_ite | apply kept_fst_ite | simp only [kept_mk_iff]) | split

theorem execFreqGateEnd_kept (n : Fin 16) (periods : Nat) (s : State) (h : Kept q o w s) :
    KeptRes q o w (execFreqGateEnd n periods s) := by
  unfold execFreqGateEnd
  dsimp only
  repeat' first | (with_reducible first | assumption | apply State.setRefIn_kept | apply State.activateConfig_kept | apply State.judgeGate_kept | apply State.agreement_kept | apply State.syncQtLeft_kept | apply kept_next | apply kept_res_ite | apply kept_ite | apply kept_fst_ite | simp only [kept_mk_iff]) | split

theorem State.refLimitApply_kept (s : State) (n : Nat) (h : Kept q o w s) :
    Kept q o w (State.refLimitApply s n) := by
  unfold State.refLimitApply
  dsimp only
  repeat' first | (with_reducible first | assumption | apply State.reloadShadows_kept | apply State.raise_kept | apply State.flag_kept | apply State.syncQtLeft_kept | apply State.setRefIn_kept | apply kept_ite | apply kept_fst_ite | simp only [kept_mk_iff]) | split

theorem execRefLimitApply_kept (n : Fin 16) (s : State) (h : Kept q o w s) :
    KeptRes q o w (execRefLimitApply n s) := by
  unfold execRefLimitApply
  repeat' first | (with_reducible first | assumption | apply State.refLimitApply_kept | apply kept_next | apply kept_res_ite | apply kept_ite | apply kept_fst_ite | simp only [kept_mk_iff]) | dsimp only

theorem execSwValidExpiry_kept (n : Fin 8) (ms : Nat) (s : State) (h : Kept q o w s) :
    KeptRes q o w (execSwValidExpiry n ms s) := by
  unfold execSwValidExpiry
  repeat' first | (with_reducible first | assumption | apply State.syncTbRef_kept | apply State.setBit_kept | apply kept_next | apply kept_res_ite | apply kept_ite | apply kept_fst_ite | simp only [kept_mk_iff]) | split | dsimp only

theorem State.syncOfs_kept (s : State) (h : Kept q o w s) :
    Kept q o w (State.syncOfs s) := by
  unfold State.syncOfs
  repeat' first | (with_reducible first | assumption | apply State.wr64_kept | apply kept_ite | apply kept_fst_ite | simp only [kept_mk_iff]) | dsimp only

theorem State.setOfs_kept (s : State) (o' : Int) (pull : Bool) (h : Kept q o w s) :
    Kept q o w (State.setOfs s o' pull) := by
  unfold State.setOfs
  dsimp only
  repeat' first | (with_reducible first | assumption | apply State.syncOfs_kept | apply State.setBit_kept | apply kept_ite | apply kept_fst_ite | simp only [kept_mk_iff])

theorem State.zeroError_kept (s : State) (n : Nat) (raw : Int) (h : Kept q o w s) :
    Kept q o w (State.zeroError s n raw) := by
  unfold State.zeroError
  dsimp only
  repeat' first | (with_reducible first | assumption | apply State.setOfs_kept | apply kept_ite | apply kept_fst_ite | simp only [kept_mk_iff])

theorem State.nextWord_kept (s : State) (w' : Int) (h : Kept q o w s) :
    Kept q o w (State.nextWord s w') := by
  unfold State.nextWord
  dsimp only
  repeat' first | (with_reducible first | assumption | apply kept_ite | apply kept_fst_ite | simp only [kept_mk_iff])

theorem State.limitedWord_kept (s : State) (w' : Int) (h : Kept q o w s) :
    Kept q o w (State.limitedWord s w') := by
  unfold State.limitedWord
  dsimp only
  repeat' first | (with_reducible first | assumption | apply State.setBit_kept | apply State.nextWord_kept | apply State.flag_kept | apply State.raise_kept | apply kept_ite | apply kept_fst_ite | simp only [kept_mk_iff]) | split

theorem State.setLoop_kept (s : State) (c : Nat) (h : Kept q o w s) :
    Kept q o w (State.setLoop s c) := by
  unfold State.setLoop
  dsimp only
  repeat' first | (with_reducible first | assumption | apply State.setFld_kept | apply State.setBit_kept | apply kept_ite | apply kept_fst_ite | simp only [kept_mk_iff]) | split

theorem State.enterHoldover_kept (s : State) (h : Kept q o w s) :
    Kept q o w (State.enterHoldover s) := by
  unfold State.enterHoldover
  dsimp only
  repeat' first | (with_reducible first | assumption | apply State.bump_kept | apply State.nextWord_kept | apply State.raise_kept | apply State.flag_kept | apply State.setLoop_kept | apply kept_ite | apply kept_fst_ite | apply kept_foldl | apply kept_fst_foldl | simp only [kept_mk_iff]) | split | intro _ _ _ | intro _ _

theorem State.enterFreerun_kept (s : State) (h : Kept q o w s) :
    Kept q o w (State.enterFreerun s) := by
  unfold State.enterFreerun
  dsimp only
  repeat' first | (with_reducible first | assumption | apply State.setLoop_kept | apply State.nextWord_kept | apply State.raise_kept | apply State.flag_kept | apply kept_ite | apply kept_fst_ite | simp only [kept_mk_iff]) | split

theorem State.loseReference_kept (s : State) (h : Kept q o w s) :
    Kept q o w (State.loseReference s) := by
  unfold State.loseReference
  repeat' first | (with_reducible first | assumption | apply State.enterHoldover_kept | apply State.enterFreerun_kept | apply kept_ite | apply kept_fst_ite | simp only [kept_mk_iff]) | split | dsimp only

theorem State.syncBw_kept (s : State) (h : Kept q o w s) :
    Kept q o w (State.syncBw s) := by
  unfold State.syncBw
  repeat' first | (with_reducible first | assumption | apply State.setBit_kept | apply kept_ite | apply kept_fst_ite | simp only [kept_mk_iff]) | split | dsimp only

theorem State.switched_kept (s : State) (h : Kept q o w s) :
    Kept q o w (State.switched s) := by
  unfold State.switched
  repeat' first | (with_reducible first | assumption | apply State.raise_kept | apply State.flag_kept | apply State.count_kept | apply kept_ite | apply kept_fst_ite | simp only [kept_mk_iff]) | dsimp only

theorem State.switchTo_kept (s : State) (n : Nat) (raw : Int) (h : Kept q o w s) :
    Kept q o w (State.switchTo s n raw) := by
  unfold State.switchTo
  dsimp only
  repeat' first | (with_reducible first | assumption | apply State.zeroError_kept | apply State.setCurRef_kept | apply State.setLoop_kept | apply State.setBit_kept | apply State.switched_kept | apply State.syncBw_kept | apply kept_ite | apply kept_fst_ite | simp only [kept_mk_iff]) | split

theorem State.switchToNone_kept (s : State) (h : Kept q o w s) :
    Kept q o w (State.switchToNone s) := by
  unfold State.switchToNone
  dsimp only
  repeat' first | (with_reducible first | assumption | apply State.syncBw_kept | apply State.setCurRef_kept | apply State.loseReference_kept | apply State.switched_kept | apply kept_ite | apply kept_fst_ite | simp only [kept_mk_iff]) | split

theorem execSelectionEval_kept (phases : List Int) (s : State) (h : Kept q o w s) :
    KeptRes q o w (execSelectionEval phases s) := by
  unfold execSelectionEval
  dsimp only
  repeat' first | (with_reducible first | assumption | apply State.setBit_kept | apply State.switchTo_kept | apply State.switchToNone_kept | apply kept_next | apply kept_res_ite | apply kept_ite | apply kept_fst_ite | simp only [kept_mk_iff]) | split

theorem State.refSelWrite_kept (s : State) (n : Nat) (h : Kept q o w s) :
    Kept q o w (State.refSelWrite s n) := by
  unfold State.refSelWrite
  repeat' first | (with_reducible first | assumption | apply State.setBit_kept | apply State.setFld_kept | apply kept_ite | apply kept_fst_ite | simp only [kept_mk_iff]) | dsimp only

theorem execRefSelWrite_kept (n : Fin 16) (s : State) (h : Kept q o w s) :
    KeptRes q o w (execRefSelWrite n s) := by
  unfold execRefSelWrite
  repeat' first | (with_reducible first | assumption | apply State.refSelWrite_kept | apply kept_next | apply kept_res_ite | apply kept_ite | apply kept_fst_ite | simp only [kept_mk_iff]) | dsimp only

theorem State.pull_kept (s : State) (h : Kept q o w s) :
    Kept q o w (State.pull s) := by
  unfold State.pull
  dsimp only
  repeat' first | (with_reducible first | assumption | apply State.syncOfs_kept | apply State.setBit_kept | apply kept_ite | apply kept_fst_ite | simp only [kept_mk_iff]) | split

theorem State.jump_kept (s : State) (n : Nat) (r : Int) (explained : Int) (h : Kept q o w s) :
    Kept q o w (State.jump s n r explained) := by
  unfold State.jump
  dsimp only
  repeat' first | (with_reducible first | assumption | apply State.raise_kept | apply State.flag_kept | apply State.setOfs_kept | apply kept_ite | apply kept_fst_ite | simp only [kept_mk_iff]) | split

theorem State.lockStep_kept (s : State) (e : Int) (h : Kept q o w s) :
    Kept q o w (State.lockStep s e) := by
  unfold State.lockStep
  dsimp only
  repeat' first | (with_reducible first | assumption | apply State.setLoop_kept | apply kept_ite | apply kept_fst_ite | simp only [kept_mk_iff]) | split

theorem State.wordStep_kept (s : State) (out : Int) (h : Kept q o w s) :
    Kept q o w (State.wordStep s out) := by
  unfold State.wordStep
  dsimp only
  repeat' first | (with_reducible first | assumption | apply State.nextWord_kept | apply State.limitedWord_kept | apply kept_ite | apply kept_fst_ite | simp only [kept_mk_iff]) | split

theorem State.pdShow_kept (s : State) (r : Int) (h : Kept q o w s) :
    Kept q o w (State.pdShow s r) := by
  unfold State.pdShow
  dsimp only
  repeat' first | (with_reducible first | assumption | apply State.wrN_kept | apply State.wr_kept | apply kept_ite | apply kept_fst_ite | simp only [kept_mk_iff]) | split

theorem State.pdStep_kept (s : State) (h : Kept q o w s) :
    Kept q o w (State.pdStep s) := by
  unfold State.pdStep
  dsimp only
  repeat' first | (with_reducible first | assumption | apply State.setOfs_kept | apply kept_ite | apply kept_fst_ite | simp only [kept_mk_iff]) | split

theorem State.pdCount_kept (s : State) (h : Kept q o w s) :
    Kept q o w (State.pdCount s) := by
  unfold State.pdCount
  dsimp only
  repeat' first | (with_reducible first | assumption | apply kept_ite | apply kept_fst_ite | simp only [kept_mk_iff])

theorem State.pdTrack_kept (s : State) (n : Nat) (r : Int) (explained : Int) (h : Kept q o w s) :
    Kept q o w (State.pdTrack s n r explained) := by
  unfold State.pdTrack
  dsimp only
  repeat' first | (with_reducible first | assumption | apply State.jump_kept | apply State.pull_kept | apply State.lockStep_kept | apply kept_ite | apply kept_fst_ite | simp only [kept_mk_iff]) | split

theorem execPdUpdate_kept (raw : Int) (explained : Int) (out : Int) (s : State) (h : Kept q o w s) :
    KeptRes q o w (execPdUpdate raw explained out s) := by
  unfold execPdUpdate
  dsimp only
  repeat' first | (with_reducible first | assumption | apply State.pdCount_kept | apply State.syncBw_kept | apply State.wordStep_kept | apply State.pdTrack_kept | apply State.pdStep_kept | apply State.pdShow_kept | apply kept_next | apply kept_res_ite | apply kept_ite | apply kept_fst_ite | simp only [kept_mk_iff])

theorem execHistoryRecord_kept (s : State) (h : Kept q o w s) :
    KeptRes q o w (execHistoryRecord s) := by
  unfold execHistoryRecord
  dsimp only
  repeat' first | (with_reducible first | assumption | apply State.bump_kept | apply State.setBit_kept | apply kept_next | apply kept_res_ite | apply kept_ite | apply kept_fst_ite | simp only [kept_mk_iff]) | split

theorem execHoldoverLimit_kept (seconds : Nat) (s : State) (h : Kept q o w s) :
    KeptRes q o w (execHoldoverLimit seconds s) := by
  unfold execHoldoverLimit
  dsimp only
  repeat' first | (with_reducible first | assumption | apply State.enterFreerun_kept | apply kept_next | apply kept_res_ite | apply kept_ite | apply kept_fst_ite | simp only [kept_mk_iff]) | split

theorem State.closeLoop_kept (s : State) (raw : Int) (h : Kept q o w s) :
    Kept q o w (State.closeLoop s raw) := by
  unfold State.closeLoop
  repeat' first | (with_reducible first | assumption | apply State.setLoop_kept | apply State.zeroError_kept | apply State.loseReference_kept | apply kept_ite | apply kept_fst_ite | simp only [kept_mk_iff]) | split | dsimp only

theorem State.openWrite_kept (s : State) (o' : Bool) (raw : Int) (h : Kept q o w s) :
    Kept q o w (State.openWrite s o' raw) := by
  unfold State.openWrite
  dsimp only
  repeat' first | (with_reducible first | assumption | apply State.setBit_kept | apply State.setLoop_kept | apply State.closeLoop_kept | apply kept_ite | apply kept_fst_ite | simp only [kept_mk_iff]) | split

theorem execLoopOpenWrite_kept (open_ : Bool) (raw : Int) (s : State) (h : Kept q o w s) :
    KeptRes q o w (execLoopOpenWrite open_ raw s) := by
  unfold execLoopOpenWrite
  repeat' first | (with_reducible first | assumption | apply State.openWrite_kept | apply kept_next | apply kept_res_ite | apply kept_ite | apply kept_fst_ite | simp only [kept_mk_iff]) | dsimp only

theorem State.freqWrite_kept (s : State) (v : Sys2Proof.Word) (h : Kept q o w s) :
    Kept q o w (State.freqWrite s v) := by
  unfold State.freqWrite
  repeat' first | (with_reducible first | assumption | apply State.limitedWord_kept | apply kept_ite | apply kept_fst_ite | simp only [kept_mk_iff]) | split | dsimp only

theorem execBellFreqWrite_kept (v : Sys2Proof.Word) (s : State) (h : Kept q o w s) :
    KeptRes q o w (execBellFreqWrite v s) := by
  unfold execBellFreqWrite
  repeat' first | (with_reducible first | assumption | apply State.freqWrite_kept | apply kept_next | apply kept_res_ite | apply kept_ite | apply kept_fst_ite | simp only [kept_mk_iff]) | dsimp only

theorem execOpenWdExpiry_kept (seconds : Nat) (raw : Int) (s : State) (h : Kept q o w s) :
    KeptRes q o w (execOpenWdExpiry seconds raw s) := by
  unfold execOpenWdExpiry
  repeat' first | (with_reducible first | assumption | apply State.raise_kept | apply State.flag_kept | apply State.openWrite_kept | apply kept_next | apply kept_res_ite | apply kept_ite | apply kept_fst_ite | simp only [kept_mk_iff]) | split | dsimp only

theorem State.bellEdge_kept (s : State) (h : Kept q o w s) :
    Kept q o w (State.bellEdge s) := by
  unfold State.bellEdge
  dsimp only
  repeat' first | (with_reducible first | assumption | apply State.wr_kept | apply kept_ite | apply kept_fst_ite | simp only [kept_mk_iff]) | split

theorem State.anchorOfs_kept (s : State) (tb : Nat) (res : Int) (h : Kept q o w s) :
    Kept q o w (State.anchorOfs s tb res) := by
  unfold State.anchorOfs
  repeat' first | (with_reducible first | assumption | apply State.setOfs_kept | apply kept_ite | apply kept_fst_ite | simp only [kept_mk_iff]) | split | dsimp only

theorem execApllLock_kept (a : Fin 4) (s : State) (h : Kept q o w s) :
    KeptRes q o w (execApllLock a s) := by
  unfold execApllLock
  repeat' first | (with_reducible first | assumption | apply State.setBitAt_kept | apply kept_next | apply kept_res_ite | apply kept_ite | apply kept_fst_ite | simp only [kept_mk_iff]) | dsimp only

theorem execAudioApllUnlock_kept (s : State) (h : Kept q o w s) :
    KeptRes q o w (execAudioApllUnlock s) := by
  unfold execAudioApllUnlock
  dsimp only
  repeat' first | (with_reducible first | assumption | apply State.setBit_kept | apply State.enterHoldover_kept | apply State.raise_kept | apply State.flag_kept | apply kept_next | apply kept_res_ite | apply kept_ite | apply kept_fst_ite | simp only [kept_mk_iff]) | split

theorem execAudioApllRelock_kept (ms : Nat) (raw : Int) (s : State) (h : Kept q o w s) :
    KeptRes q o w (execAudioApllRelock ms raw s) := by
  unfold execAudioApllRelock
  dsimp only
  repeat' first | (with_reducible first | assumption | apply State.setBit_kept | apply State.closeLoop_kept | apply State.zeroError_kept | apply kept_next | apply kept_res_ite | apply kept_ite | apply kept_fst_ite | simp only [kept_mk_iff]) | split

theorem execCoreSpreadTakeEffect_kept (s : State) (h : Kept q o w s) :
    KeptRes q o w (execCoreSpreadTakeEffect s) := by
  unfold execCoreSpreadTakeEffect
  dsimp only
  repeat' first | (with_reducible first | assumption | apply kept_next | apply kept_res_ite | apply kept_ite | apply kept_fst_ite | simp only [kept_mk_iff])

theorem execCoreApllRelock_kept (a : Fin 2) (s : State) (h : Kept q o w s) :
    KeptRes q o w (execCoreApllRelock a s) := by
  unfold execCoreApllRelock
  dsimp only
  repeat' first | (with_reducible first | assumption | apply State.setBitAt_kept | apply State.setFld_kept | apply State.setBit_kept | apply kept_next | apply kept_res_ite | apply kept_ite | apply kept_fst_ite | simp only [kept_mk_iff]) | split

theorem State.divUpdate_kept (s : State) (h : Kept q o w s) :
    Kept q o w (State.divUpdate s) := by
  unfold State.divUpdate
  dsimp only
  repeat' first | (with_reducible first | assumption | apply State.reloadShadows_kept | apply State.raise_kept | apply State.flag_kept | apply State.setBit_kept | apply kept_ite | apply kept_fst_ite | simp only [kept_mk_iff]) | split

theorem execDivUpdate_kept (s : State) (h : Kept q o w s) :
    KeptRes q o w (execDivUpdate s) := by
  unfold execDivUpdate
  repeat' first | (with_reducible first | assumption | apply State.divUpdate_kept | apply kept_next | apply kept_res_ite | apply kept_ite | apply kept_fst_ite | simp only [kept_mk_iff]) | dsimp only

theorem execDivTakeEffect_kept (s : State) (h : Kept q o w s) :
    KeptRes q o w (execDivTakeEffect s) := by
  unfold execDivTakeEffect
  dsimp only
  repeat' first | (with_reducible first | assumption | apply State.activateConfig_kept | apply State.setBit_kept | apply kept_next | apply kept_res_ite | apply kept_ite | apply kept_fst_ite | simp only [kept_mk_iff]) | split

theorem State.realign_kept (s : State) (t : Nat) (d : Nat) (h : Kept q o w s) :
    Kept q o w (State.realign s t d) := by
  unfold State.realign
  dsimp only
  repeat' first | (with_reducible first | assumption | apply State.flag_kept | apply State.count_kept | apply kept_ite | apply kept_fst_ite | simp only [kept_mk_iff]) | split

theorem execSyncInEdge_kept (falling : Bool) (tick : Nat) (s : State) (h : Kept q o w s) :
    KeptRes q o w (execSyncInEdge falling tick s) := by
  unfold execSyncInEdge
  dsimp only
  repeat' first | (with_reducible first | assumption | apply State.realign_kept | apply kept_next | apply kept_res_ite | apply kept_ite | apply kept_fst_ite | apply kept_foldl | apply kept_fst_foldl | simp only [kept_mk_iff]) | split | intro _ _ _ | intro _ _

theorem State.setTb_kept (s : State) (n : Nat) (t : TimeBase) (h : Kept q o w s) :
    Kept q o w (State.setTb s n t) := by
  unfold State.setTb
  dsimp only
  repeat' first | (with_reducible first | assumption | apply kept_ite | apply kept_fst_ite | simp only [kept_mk_iff])

theorem State.syncRunning_kept (s : State) (n : Nat) (h : Kept q o w s) :
    Kept q o w (State.syncRunning s n) := by
  unfold State.syncRunning
  dsimp only
  repeat' first | (with_reducible first | assumption | apply State.setBit_kept | apply State.setBitAt_kept | apply kept_ite | apply kept_fst_ite | simp only [kept_mk_iff])

theorem State.tbApply_kept (s : State) (n : Nat) (h : Kept q o w s) :
    Kept q o w (State.tbApply s n) := by
  unfold State.tbApply
  dsimp only
  repeat' first | (with_reducible first | assumption | apply State.setTb_kept | apply State.reloadShadows_kept | apply State.raise_kept | apply State.flag_kept | apply kept_ite | apply kept_fst_ite | simp only [kept_mk_iff]) | split

theorem execTbIncApply_kept (n : Fin 8) (s : State) (h : Kept q o w s) :
    KeptRes q o w (execTbIncApply n s) := by
  unfold execTbIncApply
  repeat' first | (with_reducible first | assumption | apply State.tbApply_kept | apply kept_next | apply kept_res_ite | apply kept_ite | apply kept_fst_ite | simp only [kept_mk_iff]) | dsimp only

theorem State.tickTb_kept (s : State) (n : Nat) (h : Kept q o w s) :
    Kept q o w (State.tickTb s n) := by
  unfold State.tickTb
  dsimp only
  repeat' first | (with_reducible first | assumption | apply State.syncTbRef_kept | apply State.syncRunning_kept | apply State.activate_kept | apply State.setTb_kept | apply kept_ite | apply kept_fst_ite | simp only [kept_mk_iff]) | split

theorem execTimeBaseTick_kept (s : State) (h : Kept q o w s) :
    KeptRes q o w (execTimeBaseTick s) := by
  unfold execTimeBaseTick
  dsimp only
  repeat' first | (with_reducible first | assumption | apply State.setBit_kept | apply State.tickTb_kept | apply kept_next | apply kept_res_ite | apply kept_ite | apply kept_fst_ite | apply kept_foldl | apply kept_fst_foldl | simp only [kept_mk_iff]) | split | intro _ _ _ | intro _ _

theorem State.tbStep_kept (s : State) (n : Nat) (h : Kept q o w s) :
    Kept q o w (State.tbStep s n) := by
  unfold State.tbStep
  dsimp only
  repeat' first | (with_reducible first | assumption | apply State.flag_kept | apply State.setBit_kept | apply State.setTb_kept | apply kept_ite | apply kept_fst_ite | simp only [kept_mk_iff]) | split

theorem execTbStep_kept (n : Fin 8) (s : State) (h : Kept q o w s) :
    KeptRes q o w (execTbStep n s) := by
  unfold execTbStep
  repeat' first | (with_reducible first | assumption | apply State.tbStep_kept | apply kept_next | apply kept_res_ite | apply kept_ite | apply kept_fst_ite | simp only [kept_mk_iff]) | dsimp only

theorem execStepApply_kept (n : Fin 8) (s : State) (h : Kept q o w s) :
    KeptRes q o w (execStepApply n s) := by
  unfold execStepApply
  dsimp only
  repeat' first | (with_reducible first | assumption | apply State.setBit_kept | apply State.raise_kept | apply State.flag_kept | apply State.setTb_kept | apply State.setFld_kept | apply State.count_kept | apply kept_next | apply kept_res_ite | apply kept_ite | apply kept_fst_ite | simp only [kept_mk_iff]) | split

theorem State.captureMap_kept (s : State) (n : Nat) (h : Kept q o w s) :
    Kept q o w (State.captureMap s n) := by
  unfold State.captureMap
  dsimp only
  repeat' first | (with_reducible first | assumption | apply State.bump_kept | apply State.setTb_kept | apply kept_ite | apply kept_fst_ite | simp only [kept_mk_iff])

theorem State.tbTimeRead_kept (s : State) (n : Nat) (h : Kept q o w s) :
    Kept q o w (State.tbTimeRead s n).1 := by
  unfold State.tbTimeRead
  dsimp only
  repeat' first | (with_reducible first | assumption | apply State.setTb_kept | apply kept_ite | apply kept_fst_ite | simp only [kept_mk_iff])

theorem State.tbMapRead_kept (s : State) (n : Nat) (h : Kept q o w s) :
    Kept q o w (State.tbMapRead s n).1 := by
  unfold State.tbMapRead
  dsimp only
  repeat' first | (with_reducible first | assumption | apply State.setTb_kept | apply kept_ite | apply kept_fst_ite | simp only [kept_mk_iff])

theorem execTbTimeRead_kept (n : Fin 8) (s : State) (h : Kept q o w s) : KeptRes q o w (execTbTimeRead n s) :=
  kept_next (State.tbTimeRead_kept s n h)

theorem execTbMapRead_kept (n : Fin 8) (s : State) (h : Kept q o w s) : KeptRes q o w (execTbMapRead n s) :=
  kept_next (State.tbMapRead_kept s n h)

theorem State.setTxQueue_kept (s : State) (p : Nat) (q' : List TxStamp) (h : Kept q o w s) :
    Kept q o w (State.setTxQueue s p q') := by
  unfold State.setTxQueue
  dsimp only
  repeat' first | (with_reducible first | assumption | apply State.setFld_kept | apply kept_ite | apply kept_fst_ite | simp only [kept_mk_iff])

theorem State.pushStamp_kept (s : State) (p : Nat) (e : TxStamp) (h : Kept q o w s) :
    Kept q o w (State.pushStamp s p e) := by
  unfold State.pushStamp
  dsimp only
  repeat' first | (with_reducible first | assumption | apply State.setTxQueue_kept | apply State.setBitAt_kept | apply State.count_kept | apply State.raise_kept | apply kept_ite | apply kept_fst_ite | simp only [kept_mk_iff]) | split

theorem State.abortStamp_kept (s : State) (p : Nat) (tb : Nat) (id : Nat) (h : Kept q o w s) :
    Kept q o w (State.abortStamp s p tb id) := by
  unfold State.abortStamp
  repeat' first | (with_reducible first | assumption | apply State.pushStamp_kept | apply kept_ite | apply kept_fst_ite | simp only [kept_mk_iff]) | dsimp only

theorem State.txtsRead_kept (s : State) (p : Nat) (h : Kept q o w s) :
    Kept q o w (State.txtsRead s p).1 := by
  unfold State.txtsRead
  dsimp only
  repeat' first | (with_reducible first | assumption | apply State.setTxQueue_kept | apply State.wrN_kept | apply State.wr64_kept | apply kept_ite | apply kept_fst_ite | simp only [kept_mk_iff]) | split

theorem execTxtsHeadRead_kept (p : Fin 4) (s : State) (h : Kept q o w s) : KeptRes q o w (execTxtsHeadRead p s) :=
  kept_next (State.txtsRead_kept s p h)

theorem State.tickToXin_kept (s : State) (h : Kept q o w s) :
    Kept q o w (State.tickToXin s) := by
  unfold State.tickToXin
  repeat' first | (with_reducible first | assumption | apply State.raise_kept | apply State.flag_kept | apply State.setBit_kept | apply kept_ite | apply kept_fst_ite | simp only [kept_mk_iff]) | dsimp only

theorem State.delayReq_kept (s : State) (h : Kept q o w s) :
    Kept q o w (State.delayReq s) := by
  unfold State.delayReq
  dsimp only
  repeat' first | (with_reducible first | assumption | apply kept_ite | apply kept_fst_ite | simp only [kept_mk_iff]) | split

end Sys2Proof.Machine
end

