-- ==== Sys2Proof/Laws/KeptPort.lean ====
section
/-! SUPPORT. What every function of the pattern network port, the local ports and the line keeps: the queue, the fuses (`Otp.Same`) and the canonical memory (`Kept`), one lemma a function. -/

set_option maxRecDepth 4000
set_option linter.unusedSimpArgs false

namespace Sys2Proof.Machine

variable {q : List Sys2Proof.Instr} {o : Otp} {w : Bool}

theorem State.setRxFlow_kept (s : State) (f : Nat) (x : RxFlow) (h : Kept q o w s) :
    Kept q o w (State.setRxFlow s f x) := by
  unfold State.setRxFlow
  dsimp only
  repeat' first | (with_reducible first | assumption | apply kept_ite | apply kept_fst_ite | simp only [kept_mk_iff])

theorem State.setTxFlow_kept (s : State) (f : Nat) (x : TxFlow) (h : Kept q o w s) :
    Kept q o w (State.setTxFlow s f x) := by
  unfold State.setTxFlow
  dsimp only
  repeat' first | (with_reducible first | assumption | apply kept_ite | apply kept_fst_ite | simp only [kept_mk_iff])

theorem State.syncRx_kept (s : State) (f : Nat) (h : Kept q o w s) :
    Kept q o w (State.syncRx s f) := by
  unfold State.syncRx
  repeat' first | (with_reducible first | assumption | apply State.setFld_kept | apply kept_ite | apply kept_fst_ite | simp only [kept_mk_iff]) | dsimp only

theorem State.syncTx_kept (s : State) (f : Nat) (h : Kept q o w s) :
    Kept q o w (State.syncTx s f) := by
  unfold State.syncTx
  repeat' first | (with_reducible first | assumption | apply State.wrN_kept | apply State.setFld_kept | apply kept_ite | apply kept_fst_ite | simp only [kept_mk_iff]) | dsimp only

theorem State.putRx_kept (s : State) (f : Nat) (x : RxFlow) (h : Kept q o w s) :
    Kept q o w (State.putRx s f x) := by
  unfold State.putRx
  repeat' first | (with_reducible first | assumption | apply State.syncRx_kept | apply State.setRxFlow_kept | apply kept_ite | apply kept_fst_ite | simp only [kept_mk_iff]) | dsimp only

theorem State.putTx_kept (s : State) (f : Nat) (x : TxFlow) (h : Kept q o w s) :
    Kept q o w (State.putTx s f x) := by
  unfold State.putTx
  repeat' first | (with_reducible first | assumption | apply State.syncTx_kept | apply State.setTxFlow_kept | apply kept_ite | apply kept_fst_ite | simp only [kept_mk_iff]) | dsimp only

theorem State.rxK_kept (s : State) (f : Nat) (k : Int) (h : Kept q o w s) :
    Kept q o w (State.rxK s f k) := by
  unfold State.rxK
  repeat' first | (with_reducible first | assumption | apply State.wr64_kept | apply kept_ite | apply kept_fst_ite | simp only [kept_mk_iff]) | dsimp only

theorem State.txK_kept (s : State) (f : Nat) (k : Int) (h : Kept q o w s) :
    Kept q o w (State.txK s f k) := by
  unfold State.txK
  repeat' first | (with_reducible first | assumption | apply State.wr64_kept | apply kept_ite | apply kept_fst_ite | simp only [kept_mk_iff]) | dsimp only

theorem execLinkUp_kept (p : Fin 4) (ms : Nat) (s : State) (h : Kept q o w s) :
    KeptRes q o w (execLinkUp p ms s) := by
  unfold execLinkUp
  repeat' first | (with_reducible first | assumption | apply State.setBit_kept | apply kept_next | apply kept_res_ite | apply kept_ite | apply kept_fst_ite | simp only [kept_mk_iff]) | split | dsimp only

theorem State.linkDown_kept (s : State) (p : Nat) (requested : List (Nat × Nat)) (h : Kept q o w s) :
    Kept q o w (State.linkDown s p requested) := by
  unfold State.linkDown
  dsimp only
  repeat' first | (with_reducible first | assumption | apply State.setBit_kept | apply State.abortStamp_kept | apply State.raise_kept | apply State.setBitAt_kept | apply kept_ite | apply kept_fst_ite | apply kept_snd_ite | apply kept_foldl | apply kept_fst_foldl | simp only [kept_mk_iff]) | split | intro _ _ _ | intro _ _

theorem execLinkDown_kept (p : Fin 4) (requested : List (Fin 8 × BitVec 16)) (s : State) (h : Kept q o w s) :
    KeptRes q o w (execLinkDown p requested s) := by
  unfold execLinkDown
  repeat' first | (with_reducible first | assumption | apply State.linkDown_kept | apply kept_next | apply kept_res_ite | apply kept_ite | apply kept_fst_ite | apply kept_snd_ite | simp only [kept_mk_iff]) | dsimp only

theorem State.streamPacket_kept (s : State) (p : Nat) (f : Nat) (legB : Bool) (r : Rtp) (h : Kept q o w s) :
    Kept q o w (State.streamPacket s p f legB r) := by
  unfold State.streamPacket
  dsimp only
  repeat' first | (with_reducible first | assumption | apply State.count_kept | apply State.raise_kept | apply State.flag_kept | apply State.setBit_kept | apply State.setRxFlow_kept | apply kept_ite | apply kept_fst_ite | apply kept_foldl | apply kept_fst_foldl | simp only [kept_mk_iff]) | split | intro _ _ _ | intro _ _

theorem State.hostFrame_kept (s : State) (p : Nat) (fr : Frame) (sub : Nat) (full : Bool) (h : Kept q o w s) :
    Kept q o w (State.hostFrame s p fr sub full) := by
  unfold State.hostFrame
  dsimp only
  repeat' first | (with_reducible first | assumption | apply State.count_kept | apply State.delayReq_kept | apply kept_ite | apply kept_fst_ite | apply kept_snd_ite | simp only [kept_mk_iff]) | split

theorem execFrameReceive_kept (p : Fin 4) (fr : Frame) (sub : Nat) (full : Bool) (s : State) (h : Kept q o w s) :
    KeptRes q o w (execFrameReceive p fr sub full s) := by
  unfold execFrameReceive
  dsimp only
  repeat' first | (with_reducible first | assumption | apply State.count_kept | apply State.streamPacket_kept | apply State.hostFrame_kept | apply kept_next | apply kept_res_ite | apply kept_ite | apply kept_fst_ite | simp only [kept_mk_iff]) | split

theorem execLegDown_kept (f : Fin 1024) (legB : Bool) (s : State) (h : Kept q o w s) :
    KeptRes q o w (execLegDown f legB s) := by
  unfold execLegDown
  dsimp only
  repeat' first | (with_reducible first | assumption | apply State.flag_kept | apply State.setBit_kept | apply State.raise_kept | apply kept_next | apply kept_res_ite | apply kept_ite | apply kept_fst_ite | simp only [kept_mk_iff]) | split

theorem State.syncLoads_kept (s : State) (h : Kept q o w s) :
    Kept q o w (State.syncLoads s) := by
  unfold State.syncLoads
  repeat' first | (with_reducible first | assumption | apply State.setFld_kept | apply kept_ite | apply kept_fst_ite | apply kept_foldl | apply kept_fst_foldl | simp only [kept_mk_iff]) | intro _ _ _ | intro _ _ | dsimp only

theorem State.netApply_kept (s : State) (tx : Bool) (f : Nat) (h : Kept q o w s) :
    Kept q o w (State.netApply s tx f) := by
  unfold State.netApply
  dsimp only
  repeat' first | (with_reducible first | assumption | apply State.wrN_kept | apply State.raise_kept | apply State.flag_kept | apply State.reloadShadows_kept | apply State.takeConfig_kept | apply State.syncLoads_kept | apply State.putTx_kept | apply State.putRx_kept | apply kept_ite | apply kept_fst_ite | simp only [kept_mk_iff]) | split

theorem execNetApply_kept (tx : Bool) (f : Fin 1024) (s : State) (h : Kept q o w s) :
    KeptRes q o w (execNetApply tx f s) := by
  unfold execNetApply
  repeat' first | (with_reducible first | assumption | apply State.netApply_kept | apply kept_next | apply kept_res_ite | apply kept_ite | apply kept_fst_ite | simp only [kept_mk_iff]) | dsimp only

theorem State.rxPending_kept (s : State) (f : Nat) (h : Kept q o w s) :
    Kept q o w (State.rxPending s f) := by
  unfold State.rxPending
  dsimp only
  repeat' first | (with_reducible first | assumption | apply State.putRx_kept | apply kept_ite | apply kept_fst_ite | simp only [kept_mk_iff]) | split

theorem State.txPending_kept (s : State) (f : Nat) (h : Kept q o w s) :
    Kept q o w (State.txPending s f) := by
  unfold State.txPending
  dsimp only
  repeat' first | (with_reducible first | assumption | apply State.putTx_kept | apply kept_ite | apply kept_fst_ite | simp only [kept_mk_iff]) | split

theorem State.rxUnpend_kept (s : State) (f : Nat) (h : Kept q o w s) :
    Kept q o w (State.rxUnpend s f) := by
  unfold State.rxUnpend
  dsimp only
  repeat' first | (with_reducible first | assumption | apply State.putRx_kept | apply kept_ite | apply kept_fst_ite | simp only [kept_mk_iff]) | split

theorem State.txUnpend_kept (s : State) (f : Nat) (h : Kept q o w s) :
    Kept q o w (State.txUnpend s f) := by
  unfold State.txUnpend
  dsimp only
  repeat' first | (with_reducible first | assumption | apply State.putTx_kept | apply kept_ite | apply kept_fst_ite | simp only [kept_mk_iff]) | split

theorem State.rxStart_kept (s : State) (f : Nat) (t : Nat) (h : Kept q o w s) :
    Kept q o w (State.rxStart s f t) := by
  unfold State.rxStart
  dsimp only
  repeat' first | (with_reducible first | assumption | apply State.rxK_kept | apply State.putRx_kept | apply kept_ite | apply kept_fst_ite | simp only [kept_mk_iff]) | split

theorem State.txStart_kept (s : State) (f : Nat) (t : Nat) (h : Kept q o w s) :
    Kept q o w (State.txStart s f t) := by
  unfold State.txStart
  dsimp only
  repeat' first | (with_reducible first | assumption | apply State.txK_kept | apply State.putTx_kept | apply kept_ite | apply kept_fst_ite | simp only [kept_mk_iff]) | split

theorem State.rxStop_kept (s : State) (f : Nat) (t : Nat) (h : Kept q o w s) :
    Kept q o w (State.rxStop s f t) := by
  unfold State.rxStop
  dsimp only
  repeat' first | (with_reducible first | assumption | apply State.putRx_kept | apply kept_ite | apply kept_fst_ite | simp only [kept_mk_iff]) | split

theorem State.txSettle_kept (s : State) (f : Nat) (h : Kept q o w s) :
    Kept q o w (State.txSettle s f) := by
  unfold State.txSettle
  dsimp only
  repeat' first | (with_reducible first | assumption | apply State.putTx_kept | apply kept_ite | apply kept_fst_ite | simp only [kept_mk_iff]) | split

theorem State.txStop_kept (s : State) (f : Nat) (t : Nat) (h : Kept q o w s) :
    Kept q o w (State.txStop s f t) := by
  unfold State.txStop
  dsimp only
  repeat' first | (with_reducible first | assumption | apply State.txSettle_kept | apply State.putTx_kept | apply kept_ite | apply kept_fst_ite | simp only [kept_mk_iff]) | split

theorem State.realignRx_kept (s : State) (f : Nat) (h : Kept q o w s) :
    Kept q o w (State.realignRx s f) := by
  unfold State.realignRx
  dsimp only
  repeat' first | (with_reducible first | assumption | apply State.setRxFlow_kept | apply State.countFld_kept | apply State.rxK_kept | apply State.raise_kept | apply State.flag_kept | apply kept_ite | apply kept_fst_ite | simp only [kept_mk_iff]) | split

theorem State.realignTx_kept (s : State) (f : Nat) (h : Kept q o w s) :
    Kept q o w (State.realignTx s f) := by
  unfold State.realignTx
  dsimp only
  repeat' first | (with_reducible first | assumption | apply State.countFld_kept | apply State.setTxFlow_kept | apply State.raise_kept | apply State.flag_kept | apply kept_ite | apply kept_fst_ite | simp only [kept_mk_iff]) | split

theorem execMapCapture_kept (s : State) (h : Kept q o w s) :
    KeptRes q o w (execMapCapture s) := by
  unfold execMapCapture
  dsimp only
  repeat' first | (with_reducible first | assumption | apply State.captureMap_kept | apply State.realignRx_kept | apply State.realignTx_kept | apply kept_next | apply kept_res_ite | apply kept_ite | apply kept_fst_ite | apply kept_foldl | apply kept_fst_foldl | simp only [kept_mk_iff]) | split | intro _ _ _ | intro _ _

theorem State.rxStep_kept (s : State) (n : Nat) (f : Nat) (h : Kept q o w s) :
    Kept q o w (State.rxStep s n f) := by
  unfold State.rxStep
  dsimp only
  repeat' first | (with_reducible first | assumption | apply State.countBy_kept | apply State.putRx_kept | apply State.raise_kept | apply State.flag_kept | apply State.count_kept | apply kept_ite | apply kept_fst_ite | apply kept_snd_ite | apply kept_foldl | apply kept_fst_foldl | simp only [kept_mk_iff]) | split | intro _ _ _ | intro _ _

theorem State.rxAll_kept (s : State) (n : Nat) (h : Kept q o w s) :
    Kept q o w (State.rxAll s n) := by
  unfold State.rxAll
  dsimp only
  repeat' first | (with_reducible first | assumption | apply State.rxStep_kept | apply kept_ite | apply kept_fst_ite | apply kept_foldl | apply kept_fst_foldl | simp only [kept_mk_iff]) | intro _ _ _ | intro _ _

theorem State.txStep_kept (s : State) (n : Nat) (f : Nat) (word : Nat → Int) (h : Kept q o w s) :
    Kept q o w (State.txStep s n f word) := by
  unfold State.txStep
  dsimp only
  repeat' first | (with_reducible first | assumption | apply State.txK_kept | apply State.bump_kept | apply State.putTx_kept | apply State.raise_kept | apply State.flag_kept | apply State.countBy_kept | apply State.txSettle_kept | apply kept_ite | apply kept_fst_ite | apply kept_snd_ite | apply kept_foldl | apply kept_fst_foldl | simp only [kept_mk_iff]) | split | intro _ _ _ | intro _ _

theorem State.txAll_kept (s : State) (n : Nat) (word : Nat → Int) (h : Kept q o w s) :
    Kept q o w (State.txAll s n word) := by
  unfold State.txAll
  repeat' first | (with_reducible first | assumption | apply State.txStep_kept | apply kept_ite | apply kept_fst_ite | apply kept_foldl | apply kept_fst_foldl | simp only [kept_mk_iff]) | intro _ _ _ | intro _ _ | dsimp only

theorem execTxPacketReady_kept (f : Fin 1024) (s : State) (h : Kept q o w s) :
    KeptRes q o w (execTxPacketReady f s) := by
  unfold execTxPacketReady
  dsimp only
  repeat' first | (with_reducible first | assumption | apply State.txSettle_kept | apply State.putTx_kept | apply State.countBy_kept | apply kept_next | apply kept_res_ite | apply kept_ite | apply kept_fst_ite | simp only [kept_mk_iff]) | split

theorem execTxPacketDiscard_kept (f : Fin 1024) (s : State) (h : Kept q o w s) :
    KeptRes q o w (execTxPacketDiscard f s) := by
  unfold execTxPacketDiscard
  dsimp only
  repeat' first | (with_reducible first | assumption | apply State.txSettle_kept | apply State.putTx_kept | apply State.raise_kept | apply State.flag_kept | apply State.count_kept | apply kept_next | apply kept_res_ite | apply kept_ite | apply kept_fst_ite | simp only [kept_mk_iff]) | split

theorem State.sendStream_kept (s : State) (f : Nat) (legB : Bool) (h : Kept q o w s) :
    Kept q o w (State.sendStream s f legB) := by
  unfold State.sendStream
  dsimp only
  repeat' first | (with_reducible first | assumption | apply State.count_kept | apply State.txSettle_kept | apply State.putTx_kept | apply kept_ite | apply kept_fst_ite | simp only [kept_mk_iff]) | split

theorem execFrameTransmit_kept (p : Fin 4) (what : Sending) (sub : Nat) (s : State) (h : Kept q o w s) :
    KeptRes q o w (execFrameTransmit p what sub s) := by
  unfold execFrameTransmit
  dsimp only
  repeat' first | (with_reducible first | assumption | apply State.sendStream_kept | apply State.pushStamp_kept | apply kept_next | apply kept_res_ite | apply kept_ite | apply kept_fst_ite | apply kept_snd_ite | simp only [kept_mk_iff]) | split

theorem State.setPort_kept (s : State) (q' : LocalPort) (x : LPort) (h : Kept q o w s) :
    Kept q o w (State.setPort s q' x) := by
  unfold State.setPort
  dsimp only
  repeat' first | (with_reducible first | assumption | apply kept_ite | apply kept_fst_ite | simp only [kept_mk_iff])

theorem State.syncPort_kept (s : State) (q' : LocalPort) (h : Kept q o w s) :
    Kept q o w (State.syncPort s q') := by
  unfold State.syncPort
  dsimp only
  repeat' first | (with_reducible first | assumption | apply State.setFld_kept | apply State.setBit_kept | apply kept_ite | apply kept_fst_ite | simp only [kept_mk_iff]) | split

theorem State.putPort_kept (s : State) (q' : LocalPort) (x : LPort) (h : Kept q o w s) :
    Kept q o w (State.putPort s q' x) := by
  unfold State.putPort
  repeat' first | (with_reducible first | assumption | apply State.syncPort_kept | apply State.setPort_kept | apply kept_ite | apply kept_fst_ite | simp only [kept_mk_iff]) | dsimp only

theorem State.setTdmClk_kept (s : State) (p : Nat) (b : Bool) (h : Kept q o w s) :
    Kept q o w (State.setTdmClk s p b) := by
  unfold State.setTdmClk
  repeat' first | (with_reducible first | assumption | apply State.setBitAt_kept | apply State.setBit_kept | apply kept_ite | apply kept_fst_ite | simp only [kept_mk_iff]) | dsimp only

theorem State.directOverride_kept (s : State) (extra : List Nat) (h : Kept q o w s) :
    Kept q o w (State.directOverride s extra) := by
  unfold State.directOverride
  dsimp only
  repeat' first | (with_reducible first | assumption | apply State.flag_kept | apply kept_ite | apply kept_fst_ite | apply kept_snd_ite | simp only [kept_mk_iff]) | split

theorem State.portApply_kept (s : State) (q' : LocalPort) (h : Kept q o w s) :
    Kept q o w (State.portApply s q') := by
  unfold State.portApply
  dsimp only
  repeat' first | (with_reducible first | assumption | apply State.wrN_kept | apply State.raise_kept | apply State.flag_kept | apply State.reloadShadows_kept | apply State.putPort_kept | apply State.takeConfig_kept | apply State.setBitAt_kept | apply State.setTdmClk_kept | apply State.setFld_kept | apply State.directOverride_kept | apply kept_ite | apply kept_fst_ite | apply kept_snd_ite | simp only [kept_mk_iff]) | split

theorem execPortApply_kept (q' : LocalPort) (s : State) (h : Kept q o w s) :
    KeptRes q o w (execPortApply q' s) := by
  unfold execPortApply
  repeat' first | (with_reducible first | assumption | apply State.portApply_kept | apply kept_next | apply kept_res_ite | apply kept_ite | apply kept_fst_ite | simp only [kept_mk_iff]) | dsimp only

theorem execPortGroupTakeEffect_kept (q' : LocalPort) (cs : Bool) (s : State) (h : Kept q o w s) :
    KeptRes q o w (execPortGroupTakeEffect q' cs s) := by
  unfold execPortGroupTakeEffect
  dsimp only
  repeat' first | (with_reducible first | assumption | apply State.putPort_kept | apply State.activateConfig_kept | apply kept_next | apply kept_res_ite | apply kept_ite | apply kept_fst_ite | simp only [kept_mk_iff]) | split

theorem State.aesWord_kept (s : State) (r : Fin 32) (sub : Nat) (w' : RxWord) (h : Kept q o w s) :
    Kept q o w (State.aesWord s r sub w').1 := by
  unfold State.aesWord
  dsimp only
  repeat' first | (with_reducible first | assumption | apply State.count_kept | apply State.flag_kept | apply kept_ite | apply kept_fst_ite | simp only [kept_mk_iff]) | split

theorem execLocalFrameReceive_kept (q' : LocalPort) (ts : Nat) (words : List RxWord) (s : State) (h : Kept q o w s) :
    KeptRes q o w (execLocalFrameReceive q' ts words s) := by
  unfold execLocalFrameReceive
  dsimp only
  repeat' first | (with_reducible first | assumption | apply State.aesWord_kept | apply State.setPort_kept | apply State.raise_kept | apply State.flag_kept | apply State.count_kept | apply kept_next | apply kept_res_ite | apply kept_ite | apply kept_fst_ite | apply kept_snd_ite | apply kept_foldl | apply kept_fst_foldl | simp only [kept_mk_iff]) | split | intro _ _ _ | intro _ _

theorem execRateMeasure_kept (q' : LocalPort) (rate : Nat) (s : State) (h : Kept q o w s) :
    KeptRes q o w (execRateMeasure q' rate s) := by
  unfold execRateMeasure
  dsimp only
  repeat' first | (with_reducible first | assumption | apply State.wrN_kept | apply State.setBit_kept | apply State.raise_kept | apply State.flag_kept | apply kept_next | apply kept_res_ite | apply kept_ite | apply kept_fst_ite | simp only [kept_mk_iff]) | split

theorem execAesLock_kept (r : Fin 32) (s : State) (h : Kept q o w s) :
    KeptRes q o w (execAesLock r s) := by
  unfold execAesLock
  dsimp only
  repeat' first | (with_reducible first | assumption | apply State.setPort_kept | apply State.setBit_kept | apply State.setBitAt_kept | apply kept_next | apply kept_res_ite | apply kept_ite | apply kept_fst_ite | simp only [kept_mk_iff]) | split

theorem execAesUnlock_kept (r : Fin 32) (s : State) (h : Kept q o w s) :
    KeptRes q o w (execAesUnlock r s) := by
  unfold execAesUnlock
  dsimp only
  repeat' first | (with_reducible first | assumption | apply State.setBit_kept | apply State.setBitAt_kept | apply State.raise_kept | apply State.flag_kept | apply State.count_kept | apply kept_next | apply kept_res_ite | apply kept_ite | apply kept_fst_ite | simp only [kept_mk_iff]) | split

theorem State.wr192_kept (s : State) (a : Nat → Nat) (v : Nat) (h : Kept q o w s) :
    Kept q o w (State.wr192 s a v) := by
  unfold State.wr192
  repeat' first | (with_reducible first | assumption | apply State.wrN_kept | apply kept_ite | apply kept_fst_ite | apply kept_foldl | apply kept_fst_foldl | simp only [kept_mk_iff]) | intro _ _ _ | intro _ _ | dsimp only

theorem State.csBlock_kept (s : State) (r : Fin 32) (a : Nat → Nat) (cs : Nat) (h : Kept q o w s) :
    Kept q o w (State.csBlock s r a cs) := by
  unfold State.csBlock
  dsimp only
  repeat' first | (with_reducible first | assumption | apply State.raise_kept | apply State.flag_kept | apply State.count_kept | apply State.setBit_kept | apply State.wr192_kept | apply kept_ite | apply kept_fst_ite | simp only [kept_mk_iff]) | split

theorem execCsBlockEnd_kept (r : Fin 32) (whole : Bool) (csA : BitVec 192) (csB : BitVec 192) (ubA : BitVec 192) (ubB : BitVec 192) (s : State) (h : Kept q o w s) :
    KeptRes q o w (execCsBlockEnd r whole csA csB ubA ubB s) := by
  unfold execCsBlockEnd
  dsimp only
  repeat' first | (with_reducible first | assumption | apply State.raise_kept | apply State.flag_kept | apply State.count_kept | apply State.csBlock_kept | apply State.wr192_kept | apply kept_next | apply kept_res_ite | apply kept_ite | apply kept_fst_ite | simp only [kept_mk_iff]) | split

theorem State.csLatch_kept (s : State) (r : Nat) (g : Fin 4) (h : Kept q o w s) :
    Kept q o w (State.csLatch s r g) := by
  unfold State.csLatch
  dsimp only
  repeat' first | (with_reducible first | assumption | apply State.latchHi_kept | apply State.setBit_kept | apply kept_ite | apply kept_fst_ite | apply kept_foldl | apply kept_fst_foldl | simp only [kept_mk_iff]) | split | intro _ _ _ | intro _ _

theorem execArxCsRead_kept (r : Fin 32) (g : Fin 4) (s : State) (h : Kept q o w s) :
    KeptRes q o w (execArxCsRead r g s) := by
  unfold execArxCsRead
  dsimp only
  repeat' first | (with_reducible first | assumption | apply State.csLatch_kept | apply kept_next | apply kept_res_ite | apply kept_ite | apply kept_fst_ite | simp only [kept_mk_iff])

theorem execAsrcLock_kept (q' : LocalPort) (s : State) (h : Kept q o w s) :
    KeptRes q o w (execAsrcLock q' s) := by
  unfold execAsrcLock
  dsimp only
  repeat' first | (with_reducible first | assumption | apply State.setPort_kept | apply State.setBit_kept | apply kept_next | apply kept_res_ite | apply kept_ite | apply kept_fst_ite | apply kept_snd_ite | simp only [kept_mk_iff]) | split

theorem execAsrcUnlock_kept (q' : LocalPort) (s : State) (h : Kept q o w s) :
    KeptRes q o w (execAsrcUnlock q' s) := by
  unfold execAsrcUnlock
  repeat' first | (with_reducible first | assumption | apply State.raise_kept | apply State.flag_kept | apply State.setBit_kept | apply kept_next | apply kept_res_ite | apply kept_ite | apply kept_fst_ite | simp only [kept_mk_iff]) | split | dsimp only

theorem execAtxClkLoss_kept (t : Fin 32) (s : State) (h : Kept q o w s) :
    KeptRes q o w (execAtxClkLoss t s) := by
  unfold execAtxClkLoss
  dsimp only
  repeat' first | (with_reducible first | assumption | apply State.setPort_kept | apply State.setBit_kept | apply State.raise_kept | apply State.flag_kept | apply kept_next | apply kept_res_ite | apply kept_ite | apply kept_fst_ite | simp only [kept_mk_iff]) | split

theorem execAtxClockReturn_kept (t : Fin 32) (s : State) (h : Kept q o w s) :
    KeptRes q o w (execAtxClockReturn t s) := by
  unfold execAtxClockReturn
  dsimp only
  repeat' first | (with_reducible first | assumption | apply State.setPort_kept | apply kept_next | apply kept_res_ite | apply kept_ite | apply kept_fst_ite | simp only [kept_mk_iff]) | split

theorem State.portsBlockStart_kept (s : State) (h : Kept q o w s) :
    Kept q o w (State.portsBlockStart s) := by
  unfold State.portsBlockStart
  dsimp only
  repeat' first | (with_reducible first | assumption | apply State.setPort_kept | apply State.setBit_kept | apply kept_ite | apply kept_fst_ite | apply kept_snd_ite | apply kept_foldl | apply kept_fst_foldl | simp only [kept_mk_iff]) | split | intro _ _ _ | intro _ _

theorem execTdmClkLoss_kept (p : Fin 16) (s : State) (h : Kept q o w s) :
    KeptRes q o w (execTdmClkLoss p s) := by
  unfold execTdmClkLoss
  dsimp only
  repeat' first | (with_reducible first | assumption | apply State.setPort_kept | apply State.setTdmClk_kept | apply State.raise_kept | apply State.flag_kept | apply State.count_kept | apply kept_next | apply kept_res_ite | apply kept_ite | apply kept_fst_ite | simp only [kept_mk_iff]) | split

theorem execTdmClkReturn_kept (p : Fin 16) (s : State) (h : Kept q o w s) :
    KeptRes q o w (execTdmClkReturn p s) := by
  unfold execTdmClkReturn
  dsimp only
  repeat' first | (with_reducible first | assumption | apply State.setPort_kept | apply State.setTdmClk_kept | apply kept_next | apply kept_res_ite | apply kept_ite | apply kept_fst_ite | simp only [kept_mk_iff]) | split

theorem State.portPending_kept (s : State) (q' : LocalPort) (h : Kept q o w s) :
    Kept q o w (State.portPending s q') := by
  unfold State.portPending
  dsimp only
  repeat' first | (with_reducible first | assumption | apply State.putPort_kept | apply kept_ite | apply kept_fst_ite | simp only [kept_mk_iff]) | split

theorem State.portUnpend_kept (s : State) (q' : LocalPort) (h : Kept q o w s) :
    Kept q o w (State.portUnpend s q') := by
  unfold State.portUnpend
  dsimp only
  repeat' first | (with_reducible first | assumption | apply State.putPort_kept | apply kept_ite | apply kept_fst_ite | simp only [kept_mk_iff]) | split

theorem State.portStart_kept (s : State) (q' : LocalPort) (t : Nat) (h : Kept q o w s) :
    Kept q o w (State.portStart s q' t) := by
  unfold State.portStart
  dsimp only
  repeat' first | (with_reducible first | assumption | apply State.putPort_kept | apply kept_ite | apply kept_fst_ite | simp only [kept_mk_iff]) | split

theorem State.portStop_kept (s : State) (q' : LocalPort) (t : Nat) (h : Kept q o w s) :
    Kept q o w (State.portStop s q' t) := by
  unfold State.portStop
  dsimp only
  repeat' first | (with_reducible first | assumption | apply State.putPort_kept | apply kept_ite | apply kept_fst_ite | simp only [kept_mk_iff]) | split

theorem State.portSettle_kept (s : State) (q' : LocalPort) (h : Kept q o w s) :
    Kept q o w (State.portSettle s q') := by
  unfold State.portSettle
  dsimp only
  repeat' first | (with_reducible first | assumption | apply State.putPort_kept | apply kept_ite | apply kept_fst_ite | simp only [kept_mk_iff]) | split

theorem State.portRxCh_kept (s : State) (q' : LocalPort) (n : Nat) (c : Nat) (h : Kept q o w s) :
    Kept q o w (State.portRxCh s q' n c).1 := by
  unfold State.portRxCh
  dsimp only
  repeat' first | (with_reducible first | assumption | apply State.bump_kept | apply State.setPort_kept | apply State.flag_kept | apply kept_ite | apply kept_fst_ite | apply kept_snd_ite | simp only [kept_mk_iff]) | split

theorem State.portDeliver_kept (s : State) (q' : LocalPort) (c : Nat) (y : Int) (h : Kept q o w s) :
    Kept q o w (State.portDeliver s q' c y) := by
  unfold State.portDeliver
  dsimp only
  repeat' first | (with_reducible first | assumption | apply kept_ite | apply kept_fst_ite | apply kept_snd_ite | simp only [kept_mk_iff]) | split

theorem State.portsRx_kept (s : State) (n : Nat) (h : Kept q o w s) :
    Kept q o w (State.portsRx s n) := by
  unfold State.portsRx
  dsimp only
  repeat' first | (with_reducible first | assumption | apply State.portRxCh_kept | apply State.portDeliver_kept | apply kept_ite | apply kept_fst_ite | apply kept_snd_ite | apply kept_foldl | apply kept_fst_foldl | simp only [kept_mk_iff]) | split | intro _ _ _ | intro _ _

theorem State.portTxCh_kept (s : State) (q' : LocalPort) (n : Nat) (c : Nat) (word : Nat → Int) (h : Kept q o w s) :
    Kept q o w (State.portTxCh s q' n c word) := by
  unfold State.portTxCh
  dsimp only
  repeat' first | (with_reducible first | assumption | apply State.setPort_kept | apply State.flag_kept | apply kept_ite | apply kept_fst_ite | apply kept_snd_ite | simp only [kept_mk_iff]) | split

theorem State.portClips_kept (s : State) (q' : LocalPort) (cnt : Nat) (n : Nat) (h : Kept q o w s) :
    Kept q o w (State.portClips s q' cnt n) := by
  unfold State.portClips
  repeat' first | (with_reducible first | assumption | apply State.raise_kept | apply State.flag_kept | apply State.countBy_kept | apply kept_ite | apply kept_fst_ite | apply kept_foldl | apply kept_fst_foldl | simp only [kept_mk_iff]) | intro _ _ _ | intro _ _ | dsimp only

theorem State.portFrame_kept (s : State) (q' : LocalPort) (n : Nat) (h : Kept q o w s) :
    Kept q o w (State.portFrame s q' n) := by
  unfold State.portFrame
  dsimp only
  repeat' first | (with_reducible first | assumption | apply State.setPort_kept | apply State.bump_kept | apply State.portClips_kept | apply kept_ite | apply kept_fst_ite | apply kept_snd_ite | apply kept_foldl | apply kept_fst_foldl | simp only [kept_mk_iff]) | split | intro _ _ _ | intro _ _

theorem State.portsTx_kept (s : State) (n : Nat) (word : Nat → Int) (clips : List (LocalPort × Nat)) (h : Kept q o w s) :
    Kept q o w (State.portsTx s n word clips) := by
  unfold State.portsTx
  dsimp only
  repeat' first | (with_reducible first | assumption | apply State.portFrame_kept | apply State.portTxCh_kept | apply State.portSettle_kept | apply State.portClips_kept | apply kept_ite | apply kept_fst_ite | apply kept_snd_ite | apply kept_foldl | apply kept_fst_foldl | simp only [kept_mk_iff]) | split | intro _ _ _ | intro _ _

theorem State.setLineCh_kept (s : State) (n : Nat) (x : LineCh) (h : Kept q o w s) :
    Kept q o w (State.setLineCh s n x) := by
  unfold State.setLineCh
  dsimp only
  repeat' first | (with_reducible first | assumption | apply kept_ite | apply kept_fst_ite | simp only [kept_mk_iff])

theorem State.lineSync_kept (s : State) (n : Nat) (h : Kept q o w s) :
    Kept q o w (State.lineSync s n) := by
  unfold State.lineSync
  dsimp only
  repeat' first | (with_reducible first | assumption | apply State.setLineCh_kept | apply State.setFld_kept | apply State.setBitAt_kept | apply State.raise_kept | apply State.flag_kept | apply kept_ite | apply kept_fst_ite | simp only [kept_mk_iff]) | split

theorem State.linesSync_kept (s : State) (h : Kept q o w s) :
    Kept q o w (State.linesSync s) := by
  unfold State.linesSync
  repeat' first | (with_reducible first | assumption | apply State.lineSync_kept | apply kept_ite | apply kept_fst_ite | apply kept_foldl | apply kept_fst_foldl | simp only [kept_mk_iff]) | intro _ _ _ | intro _ _ | dsimp only

theorem State.lineEnable_kept (s : State) (n : Nat) (h : Kept q o w s) :
    Kept q o w (State.lineEnable s n) := by
  unfold State.lineEnable
  dsimp only
  repeat' first | (with_reducible first | assumption | apply State.lineSync_kept | apply State.setLineCh_kept | apply State.flag_kept | apply kept_ite | apply kept_fst_ite | simp only [kept_mk_iff]) | split

theorem State.lineDisable_kept (s : State) (n : Nat) (h : Kept q o w s) :
    Kept q o w (State.lineDisable s n) := by
  unfold State.lineDisable
  dsimp only
  repeat' first | (with_reducible first | assumption | apply State.setLineCh_kept | apply State.lineSync_kept | apply State.flag_kept | apply kept_ite | apply kept_fst_ite | simp only [kept_mk_iff]) | split

theorem State.lineEnableMask_kept (s : State) (m : Nat) (h : Kept q o w s) :
    Kept q o w (State.lineEnableMask s m) := by
  unfold State.lineEnableMask
  repeat' first | (with_reducible first | assumption | apply State.lineEnable_kept | apply kept_ite | apply kept_fst_ite | apply kept_foldl | apply kept_fst_foldl | simp only [kept_mk_iff]) | intro _ _ _ | intro _ _ | dsimp only

theorem State.lineDisableMask_kept (s : State) (m : Nat) (h : Kept q o w s) :
    Kept q o w (State.lineDisableMask s m) := by
  unfold State.lineDisableMask
  repeat' first | (with_reducible first | assumption | apply State.lineDisable_kept | apply kept_ite | apply kept_fst_ite | apply kept_foldl | apply kept_fst_foldl | simp only [kept_mk_iff]) | intro _ _ _ | intro _ _ | dsimp only

theorem execLineChEnable_kept (n : Fin 16) (s : State) (h : Kept q o w s) :
    KeptRes q o w (execLineChEnable n s) := by
  unfold execLineChEnable
  dsimp only
  repeat' first | (with_reducible first | assumption | apply State.setLineCh_kept | apply kept_next | apply kept_res_ite | apply kept_ite | apply kept_fst_ite | simp only [kept_mk_iff])

theorem execLineChDisable_kept (n : Fin 16) (s : State) (h : Kept q o w s) :
    KeptRes q o w (execLineChDisable n s) := by
  unfold execLineChDisable
  dsimp only
  repeat' first | (with_reducible first | assumption | apply State.setLineCh_kept | apply kept_next | apply kept_res_ite | apply kept_ite | apply kept_fst_ite | simp only [kept_mk_iff])

theorem State.lineRetries_kept (s : State) (n : Nat) (h : Kept q o w s) :
    Kept q o w (State.lineRetries s n) := by
  unfold State.lineRetries
  dsimp only
  repeat' first | (with_reducible first | assumption | apply State.setFld_kept | apply State.setLineCh_kept | apply kept_ite | apply kept_fst_ite | simp only [kept_mk_iff])

theorem State.lineClear_kept (s : State) (n : Nat) (h : Kept q o w s) :
    Kept q o w (State.lineClear s n) := by
  unfold State.lineClear
  dsimp only
  repeat' first | (with_reducible first | assumption | apply State.lineSync_kept | apply State.lineRetries_kept | apply State.setLineCh_kept | apply kept_ite | apply kept_fst_ite | simp only [kept_mk_iff]) | split

theorem execLineChClear_kept (n : Fin 16) (s : State) (h : Kept q o w s) :
    KeptRes q o w (execLineChClear n s) := by
  unfold execLineChClear
  repeat' first | (with_reducible first | assumption | apply State.lineClear_kept | apply kept_next | apply kept_res_ite | apply kept_ite | apply kept_fst_ite | simp only [kept_mk_iff]) | dsimp only

theorem State.lineCtrlWrite_kept (s : State) (v : Sys2Proof.Word) (h : Kept q o w s) :
    Kept q o w (State.lineCtrlWrite s v) := by
  unfold State.lineCtrlWrite
  dsimp only
  repeat' first | (with_reducible first | assumption | apply State.flag_kept | apply State.wrN_kept | apply kept_ite | apply kept_fst_ite | apply kept_snd_ite | simp only [kept_mk_iff]) | split

theorem execLineCtrlWrite_kept (v : Sys2Proof.Word) (s : State) (h : Kept q o w s) :
    KeptRes q o w (execLineCtrlWrite v s) := by
  unfold execLineCtrlWrite
  repeat' first | (with_reducible first | assumption | apply State.ccuConfigChange_kept | apply State.lineCtrlWrite_kept | apply kept_next | apply kept_res_ite | apply kept_ite | apply kept_fst_ite | simp only [kept_mk_iff]) | dsimp only

theorem State.lineApply_kept (s : State) (n : Nat) (h : Kept q o w s) :
    Kept q o w (State.lineApply s n) := by
  unfold State.lineApply
  dsimp only
  repeat' first | (with_reducible first | assumption | apply State.wrN_kept | apply State.raise_kept | apply State.flag_kept | apply State.reloadShadows_kept | apply State.setLineCh_kept | apply kept_ite | apply kept_fst_ite | simp only [kept_mk_iff]) | split

theorem execLineApply_kept (n : Fin 16) (s : State) (h : Kept q o w s) :
    KeptRes q o w (execLineApply n s) := by
  unfold execLineApply
  repeat' first | (with_reducible first | assumption | apply State.lineApply_kept | apply kept_next | apply kept_res_ite | apply kept_ite | apply kept_fst_ite | simp only [kept_mk_iff]) | dsimp only

theorem State.lineSupply_kept (s : State) (codes : List Nat) (h : Kept q o w s) :
    Kept q o w (State.lineSupply s codes) := by
  unfold State.lineSupply
  dsimp only
  repeat' first | (with_reducible first | assumption | apply State.wrN_kept | apply State.setBit_kept | apply State.raise_kept | apply State.flag_kept | apply kept_ite | apply kept_fst_ite | simp only [kept_mk_iff]) | split

theorem State.lineThermal_kept (s : State) (codes : List Nat) (n : Nat) (h : Kept q o w s) :
    Kept q o w (State.lineThermal s codes n) := by
  unfold State.lineThermal
  dsimp only
  repeat' first | (with_reducible first | assumption | apply State.setFld_kept | apply State.setLineCh_kept | apply State.wrN_kept | apply State.flag_kept | apply State.raise_kept | apply kept_ite | apply kept_fst_ite | simp only [kept_mk_iff]) | split

theorem State.lineBlock_kept (s : State) (n : Nat) (h : Kept q o w s) :
    Kept q o w (State.lineBlock s n) := by
  unfold State.lineBlock
  dsimp only
  repeat' first | (with_reducible first | assumption | apply State.setLineCh_kept | apply State.activateConfig_kept | apply State.lineDisable_kept | apply State.lineEnable_kept | apply State.lineRetries_kept | apply State.lineSync_kept | apply kept_ite | apply kept_fst_ite | simp only [kept_mk_iff]) | split

theorem State.linesBlockStart_kept (s : State) (codes : List Nat) (back : List (Nat × Bool)) (h : Kept q o w s) :
    Kept q o w (State.linesBlockStart s codes back) := by
  unfold State.linesBlockStart
  dsimp only
  repeat' first | (with_reducible first | assumption | apply State.lineSupply_kept | apply State.lineThermal_kept | apply State.setBit_kept | apply State.lineBlock_kept | apply kept_ite | apply kept_fst_ite | apply kept_snd_ite | apply kept_foldl | apply kept_fst_foldl | simp only [kept_mk_iff]) | split | intro _ _ _ | intro _ _

theorem State.lineStep_kept (s : State) (n : Nat) (m : Nat) (x : Int) (h : Kept q o w s) :
    Kept q o w (State.lineStep s n m x) := by
  unfold State.lineStep
  dsimp only
  repeat' first | (with_reducible first | assumption | apply State.raise_kept | apply State.flag_kept | apply State.count_kept | apply State.bump_kept | apply State.setLineCh_kept | apply State.setFld_kept | apply State.lineSync_kept | apply kept_ite | apply kept_fst_ite | apply kept_snd_ite | apply kept_foldl | apply kept_fst_foldl | simp only [kept_mk_iff]) | split | intro _ _ _ | intro _ _

theorem State.linesStep_kept (s : State) (m : Nat) (word : Nat → Int) (h : Kept q o w s) :
    Kept q o w (State.linesStep s m word) := by
  unfold State.linesStep
  repeat' first | (with_reducible first | assumption | apply State.lineStep_kept | apply kept_ite | apply kept_fst_ite | apply kept_foldl | apply kept_fst_foldl | simp only [kept_mk_iff]) | split | intro _ _ _ | intro _ _ | dsimp only

theorem State.lineTrip_kept (s : State) (n : Nat) (h : Kept q o w s) :
    Kept q o w (State.lineTrip s n) := by
  unfold State.lineTrip
  dsimp only
  repeat' first | (with_reducible first | assumption | apply State.setLineCh_kept | apply State.lineSync_kept | apply State.lineRetries_kept | apply State.raise_kept | apply State.flag_kept | apply State.count_kept | apply kept_ite | apply kept_fst_ite | simp only [kept_mk_iff]) | split

theorem execOcpLimitedPeriod_kept (n : Fin 16) (s : State) (h : Kept q o w s) :
    KeptRes q o w (execOcpLimitedPeriod n s) := by
  unfold execOcpLimitedPeriod
  dsimp only
  repeat' first | (with_reducible first | assumption | apply State.flag_kept | apply State.count_kept | apply State.setLineCh_kept | apply State.lineTrip_kept | apply kept_next | apply kept_res_ite | apply kept_ite | apply kept_fst_ite | simp only [kept_mk_iff]) | split

theorem execOcpNAssert_kept (n : Fin 16) (s : State) (h : Kept q o w s) :
    KeptRes q o w (execOcpNAssert n s) := by
  unfold execOcpNAssert
  dsimp only
  repeat' first | (with_reducible first | assumption | apply State.setLineCh_kept | apply kept_next | apply kept_res_ite | apply kept_ite | apply kept_fst_ite | simp only [kept_mk_iff]) | split

theorem execOcpRetry_kept (n : Fin 16) (s : State) (h : Kept q o w s) :
    KeptRes q o w (execOcpRetry n s) := by
  unfold execOcpRetry
  dsimp only
  repeat' first | (with_reducible first | assumption | apply State.setLineCh_kept | apply State.lineSync_kept | apply State.lineRetries_kept | apply State.countFld_kept | apply kept_next | apply kept_res_ite | apply kept_ite | apply kept_fst_ite | simp only [kept_mk_iff]) | split

theorem execSenseLoss_kept (n : Fin 16) (vsns : Bool) (s : State) (h : Kept q o w s) :
    KeptRes q o w (execSenseLoss n vsns s) := by
  unfold execSenseLoss
  dsimp only
  repeat' first | (with_reducible first | assumption | apply State.raise_kept | apply State.flag_kept | apply State.setBit_kept | apply kept_next | apply kept_res_ite | apply kept_ite | apply kept_fst_ite | simp only [kept_mk_iff]) | split

theorem execCalibrationPass_kept (n : Fin 16) (offset : Int) (ratio : Int) (s : State) (h : Kept q o w s) :
    KeptRes q o w (execCalibrationPass n offset ratio s) := by
  unfold execCalibrationPass
  dsimp only
  repeat' first | (with_reducible first | assumption | apply State.raise_kept | apply State.flag_kept | apply State.setBit_kept | apply State.setLineCh_kept | apply kept_next | apply kept_res_ite | apply kept_ite | apply kept_fst_ite | simp only [kept_mk_iff]) | split

theorem State.lineClassify_kept (s : State) (n : Nat) (mag : Nat) (ef : Nat) (h : Kept q o w s) :
    Kept q o w (State.lineClassify s n mag ef) := by
  unfold State.lineClassify
  dsimp only
  repeat' first | (with_reducible first | assumption | apply State.setLineCh_kept | apply State.setFld_kept | apply State.raise_kept | apply State.flag_kept | apply State.setBit_kept | apply kept_ite | apply kept_fst_ite | simp only [kept_mk_iff]) | split

theorem execSupervisionResult_kept (n : Fin 16) (measured : Option (Nat × Int × BitVec 12)) (s : State) (h : Kept q o w s) :
    KeptRes q o w (execSupervisionResult n measured s) := by
  unfold execSupervisionResult
  dsimp only
  repeat' first | (with_reducible first | assumption | apply State.wrN_kept | apply State.lineClassify_kept | apply kept_next | apply kept_res_ite | apply kept_ite | apply kept_fst_ite | simp only [kept_mk_iff]) | split

end Sys2Proof.Machine
end

