-- ==== Sys2Proof/Laws/KeptQuilt.lean ====
section
/-! SUPPORT. What every function of the quilt, the CCU commands, the seam and the image keeps: the queue, the fuses (`Otp.Same`) and the canonical memory (`Kept`), one lemma a function. -/

set_option maxRecDepth 4000
set_option linter.unusedSimpArgs false

namespace Sys2Proof.Machine

variable {q : List Sys2Proof.Instr} {o : Otp} {w : Bool}

theorem State.setBusSt_kept (s : State) (b : Nat) (x : BusSt) (h : Kept q o w s) :
    Kept q o w (State.setBusSt s b x) := by
  unfold State.setBusSt
  dsimp only
  repeat' first | (with_reducible first | assumption | apply kept_ite | apply kept_fst_ite | simp only [kept_mk_iff])

theorem State.setTap_kept (s : State) (t : Nat) (x : Tap) (h : Kept q o w s) :
    Kept q o w (State.setTap s t x) := by
  unfold State.setTap
  dsimp only
  repeat' first | (with_reducible first | assumption | apply kept_ite | apply kept_fst_ite | simp only [kept_mk_iff])

theorem State.setGen_kept (s : State) (g : Nat) (x : Gen) (h : Kept q o w s) :
    Kept q o w (State.setGen s g x) := by
  unfold State.setGen
  dsimp only
  repeat' first | (with_reducible first | assumption | apply kept_ite | apply kept_fst_ite | simp only [kept_mk_iff])

theorem State.setGain_kept (s : State) (key : Nat) (c : Int) (h : Kept q o w s) :
    Kept q o w (State.setGain s key c) := by
  unfold State.setGain
  dsimp only
  repeat' first | (with_reducible first | assumption | apply kept_ite | apply kept_fst_ite | simp only [kept_mk_iff])

theorem State.noteActivity_kept (s : State) (frame : Sparse Int) (n : Nat) (h : Kept q o w s) :
    Kept q o w (State.noteActivity s frame n) := by
  unfold State.noteActivity
  dsimp only
  repeat' first | (with_reducible first | assumption | apply kept_ite | apply kept_fst_ite | apply kept_snd_ite | apply kept_foldl | apply kept_fst_foldl | simp only [kept_mk_iff]) | split | intro _ _ _ | intro _ _

theorem State.resolo_kept (s : State) (n : Nat) (h : Kept q o w s) :
    Kept q o w (State.resolo s n) := by
  unfold State.resolo
  dsimp only
  repeat' first | (with_reducible first | assumption | apply kept_ite | apply kept_fst_ite | apply kept_foldl | apply kept_fst_foldl | simp only [kept_mk_iff]) | split | intro _ _ _ | intro _ _

theorem State.genTake_kept (s : State) (w' : GenWrite) (m : Nat) (h : Kept q o w s) :
    Kept q o w (State.genTake s w' m) := by
  unfold State.genTake
  dsimp only
  repeat' first | (with_reducible first | assumption | apply State.setGen_kept | apply kept_ite | apply kept_fst_ite | simp only [kept_mk_iff]) | split

theorem State.gensBlockStart_kept (s : State) (h : Kept q o w s) :
    Kept q o w (State.gensBlockStart s) := by
  unfold State.gensBlockStart
  dsimp only
  repeat' first | (with_reducible first | assumption | apply State.genTake_kept | apply State.ccuConfigChange_kept | apply State.wrN_kept | apply kept_ite | apply kept_fst_ite | apply kept_foldl | apply kept_fst_foldl | simp only [kept_mk_iff]) | split | intro _ _ _ | intro _ _

theorem State.tapStep_kept (s : State) (t n : Nat) (v : Int) (h : Kept q o w s) : Kept q o w (State.tapStep s t n v).1 := by
  unfold State.tapStep
  refine kept_fst_ite h ?_
  have h2 : Kept q o w { s with
      mem := s.mem.dramPutWord (4096 * s.rd (R.QUILT_DLY_BASE t) + 4 * (n % s.rd (R.QUILT_DLY_RLEN t))) (BitVec.ofInt 32 v) } :=
    kept_mem h (fun g => (Mem.dramPutWord_keeps _ _ _).1.symm ▸ g) (Mem.dramPutWord_keeps _ _ _).2
  dsimp only
  repeat' split
  all_goals exact h2

theorem State.syncTap_kept (s : State) (t : Nat) (h : Kept q o w s) :
    Kept q o w (State.syncTap s t) := by
  unfold State.syncTap
  dsimp only
  repeat' first | (with_reducible first | assumption | apply State.setBit_kept | apply kept_ite | apply kept_fst_ite | simp only [kept_mk_iff])

theorem State.tapMove_kept (s : State) (t : Nat) (m : Nat) (dly : Nat) (h : Kept q o w s) :
    Kept q o w (State.tapMove s t m dly) := by
  unfold State.tapMove
  dsimp only
  repeat' first | (with_reducible first | assumption | apply State.syncTap_kept | apply State.setTap_kept | apply kept_ite | apply kept_fst_ite | simp only [kept_mk_iff])

theorem State.tapsBlockStart_kept (s : State) (late : List (Nat × Option Nat)) (h : Kept q o w s) :
    Kept q o w (State.tapsBlockStart s late) := by
  unfold State.tapsBlockStart
  dsimp only
  repeat' first | (with_reducible first | assumption | apply State.setTap_kept | apply State.activateConfig_kept | apply State.tapMove_kept | apply State.raise_kept | apply State.flag_kept | apply State.dramUe_kept | apply State.dramFail_kept | apply kept_ite | apply kept_fst_ite | apply kept_snd_ite | apply kept_foldl | apply kept_fst_foldl | simp only [kept_mk_iff]) | split | intro _ _ _ | intro _ _

theorem State.dlyApply_kept (s : State) (t : Nat) (h : Kept q o w s) :
    Kept q o w (State.dlyApply s t) := by
  unfold State.dlyApply
  dsimp only
  repeat' first | (with_reducible first | assumption | apply State.raise_kept | apply State.flag_kept | apply State.reloadShadows_kept | apply State.setTap_kept | apply kept_ite | apply kept_fst_ite | apply kept_snd_ite | simp only [kept_mk_iff]) | split

theorem execDlyApply_kept (t : Fin 4096) (s : State) (h : Kept q o w s) :
    KeptRes q o w (execDlyApply t s) := by
  unfold execDlyApply
  repeat' first | (with_reducible first | assumption | apply State.dlyApply_kept | apply kept_next | apply kept_res_ite | apply kept_ite | apply kept_fst_ite | simp only [kept_mk_iff]) | dsimp only

theorem State.dlyDelay_kept (s : State) (t : Nat) (v : Nat) (h : Kept q o w s) :
    Kept q o w (State.dlyDelay s t v) := by
  unfold State.dlyDelay
  dsimp only
  repeat' first | (with_reducible first | assumption | apply State.raise_kept | apply State.flag_kept | apply State.wrN_kept | apply State.setTap_kept | apply State.ccuConfigChange_kept | apply State.syncTap_kept | apply kept_ite | apply kept_fst_ite | simp only [kept_mk_iff]) | split

theorem execDlyDelayWrite_kept (t : Fin 4096) (v : Sys2Proof.Word) (s : State) (h : Kept q o w s) :
    KeptRes q o w (execDlyDelayWrite t v s) := by
  unfold execDlyDelayWrite
  repeat' first | (with_reducible first | assumption | apply State.dlyDelay_kept | apply kept_next | apply kept_res_ite | apply kept_ite | apply kept_fst_ite | simp only [kept_mk_iff]) | dsimp only

theorem execDlyXfEnd_kept (t : Fin 4096) (s : State) (h : Kept q o w s) :
    KeptRes q o w (execDlyXfEnd t s) := by
  unfold execDlyXfEnd
  dsimp only
  repeat' first | (with_reducible first | assumption | apply State.syncTap_kept | apply State.setTap_kept | apply State.tapMove_kept | apply kept_next | apply kept_res_ite | apply kept_ite | apply kept_fst_ite | simp only [kept_mk_iff]) | split

theorem State.countSats_kept (s : State) (sats : List Nat) (h : Kept q o w s) :
    Kept q o w (State.countSats s sats) := by
  unfold State.countSats
  repeat' first | (with_reducible first | assumption | apply State.flag_kept | apply State.count_kept | apply kept_ite | apply kept_fst_ite | apply kept_foldl | apply kept_fst_foldl | simp only [kept_mk_iff]) | intro _ _ _ | intro _ _ | dsimp only

theorem State.busStep_kept (s : State) (d : BusDesc) (a : BusSum) (n : Nat) (b : Nat) (inUse : Bool) (h : Kept q o w s) :
    Kept q o w (State.busStep s d a n b inUse).1 := by
  unfold State.busStep
  dsimp only
  repeat' first | (with_reducible first | assumption | apply State.countSats_kept | apply State.setBusSt_kept | apply State.raise_kept | apply State.flag_kept | apply State.count_kept | apply State.tapStep_kept | apply kept_ite | apply kept_fst_ite | apply kept_snd_ite | simp only [kept_mk_iff]) | split

theorem State.busesStep_kept (s : State) (frame : Sparse Int) (bad : List (Nat × Nat)) (n : Nat) (h : Kept q o w s) :
    Kept q o w (State.busesStep s frame bad n).1 := by
  unfold State.busesStep
  dsimp only
  repeat' first | (with_reducible first | assumption | apply State.busStep_kept | apply State.countSats_kept | apply kept_ite | apply kept_fst_ite | apply kept_snd_ite | apply kept_foldl | apply kept_fst_foldl | simp only [kept_mk_iff]) | split | intro _ _ _ | intro _ _

theorem State.destsStep_kept (s : State) (out : Sparse Int) (n : Nat) (h : Kept q o w s) :
    Kept q o w (State.destsStep s out n).1 := by
  unfold State.destsStep
  dsimp only
  repeat' first | (with_reducible first | assumption | apply kept_ite | apply kept_fst_ite | apply kept_snd_ite | apply kept_foldl | apply kept_fst_foldl | simp only [kept_mk_iff]) | split | intro _ _ _ | intro _ _

theorem State.meterStep_kept (s : State) (m : Nat) (y : Int) (h : Kept q o w s) :
    Kept q o w (State.meterStep s m y) := by
  unfold State.meterStep
  dsimp only
  repeat' first | (with_reducible first | assumption | apply State.wrN_kept | apply kept_ite | apply kept_fst_ite | simp only [kept_mk_iff]) | split

theorem State.metersStep_kept (s : State) (n : Nat) (h : Kept q o w s) :
    Kept q o w (State.metersStep s n) := by
  unfold State.metersStep
  dsimp only
  repeat' first | (with_reducible first | assumption | apply State.meterStep_kept | apply State.wrN_kept | apply kept_ite | apply kept_fst_ite | apply kept_foldl | apply kept_fst_foldl | simp only [kept_mk_iff]) | split | intro _ _ _ | intro _ _

theorem State.meterCfg_kept (s : State) (v : Nat) (h : Kept q o w s) :
    Kept q o w (State.meterCfg s v) := by
  unfold State.meterCfg
  dsimp only
  repeat' first | (with_reducible first | assumption | apply State.setFld_kept | apply State.ccuConfigChange_kept | apply kept_ite | apply kept_fst_ite | simp only [kept_mk_iff]) | split

theorem State.metersBlockStart_kept (s : State) (h : Kept q o w s) :
    Kept q o w (State.metersBlockStart s) := by
  unfold State.metersBlockStart
  dsimp only
  repeat' first | (with_reducible first | assumption | apply kept_ite | apply kept_fst_ite | simp only [kept_mk_iff]) | split

theorem State.meterPeak_kept (s : State) (m : Nat) (h : Kept q o w s) :
    Kept q o w (State.meterPeak s m).2 := by
  unfold State.meterPeak
  dsimp only
  repeat' first | (with_reducible first | assumption | apply State.wrN_kept | apply kept_ite | apply kept_fst_ite | simp only [kept_mk_iff])

theorem execMeterPeakRead_kept (m : Fin 1024) (s : State) (h : Kept q o w s) :
    KeptRes q o w (execMeterPeakRead m s) := by
  unfold execMeterPeakRead
  dsimp only
  repeat' first | (with_reducible first | assumption | apply State.meterPeak_kept | apply kept_next | apply kept_res_ite | apply kept_ite | apply kept_fst_ite | apply kept_snd_ite | simp only [kept_mk_iff])

theorem State.attrsBlockStart_kept (s : State) (h : Kept q o w s) :
    Kept q o w (State.attrsBlockStart s) := by
  unfold State.attrsBlockStart
  dsimp only
  repeat' first | (with_reducible first | assumption | apply State.resolo_kept | apply kept_ite | apply kept_fst_ite | apply kept_foldl | apply kept_fst_foldl | simp only [kept_mk_iff]) | split | intro _ _ _ | intro _ _

theorem State.rampsStep_kept (s : State) (n : Nat) (h : Kept q o w s) :
    Kept q o w (State.rampsStep s n) := by
  unfold State.rampsStep
  dsimp only
  repeat' first | (with_reducible first | assumption | apply State.setGain_kept | apply kept_ite | apply kept_fst_ite | apply kept_snd_ite | apply kept_foldl | apply kept_fst_foldl | simp only [kept_mk_iff]) | split | intro _ _ _ | intro _ _

theorem State.liveUe_kept (s : State) (w' : QWord) (h : Kept q o w s) :
    Kept q o w (State.liveUe s w') := by
  unfold State.liveUe
  dsimp only
  repeat' first | (with_reducible first | assumption | apply State.raise_kept | apply kept_ite | apply kept_fst_ite | simp only [kept_mk_iff]) | split

theorem State.gainUe_kept (s : State) (key : Nat) (h : Kept q o w s) :
    Kept q o w (State.gainUe s key) := by
  unfold State.gainUe
  dsimp only
  repeat' first | (with_reducible first | assumption | apply State.raise_kept | apply State.setGain_kept | apply kept_ite | apply kept_fst_ite | simp only [kept_mk_iff])

theorem State.liveUes_kept (s : State) (master : Nat) (found : List QWord) (h : Kept q o w s) :
    Kept q o w (State.liveUes s master found) := by
  unfold State.liveUes
  repeat' first | (with_reducible first | assumption | apply State.liveUe_kept | apply State.quiltEcc_kept | apply kept_ite | apply kept_fst_ite | apply kept_foldl | apply kept_fst_foldl | simp only [kept_mk_iff]) | split | intro _ _ _ | intro _ _ | dsimp only

theorem State.fabricUe_kept (s : State) (found : List QWord) (h : Kept q o w s) :
    Kept q o w (State.fabricUe s found).1 := by
  unfold State.fabricUe
  repeat' first | (with_reducible first | assumption | apply State.raise_kept | apply State.quiltEcc_kept | apply State.gainUe_kept | apply State.liveUes_kept | apply kept_ite | apply kept_fst_ite | apply kept_snd_ite | apply kept_foldl | apply kept_fst_foldl | simp only [kept_mk_iff]) | split | intro _ _ _ | intro _ _ | dsimp only

theorem State.quiltCe_kept (s : State) (w' : QWord) (master : Nat) (h : Kept q o w s) :
    Kept q o w (State.quiltCe s w' master) := by
  unfold State.quiltCe
  repeat' first | (with_reducible first | assumption | apply State.raise_kept | apply State.flag_kept | apply State.quiltEcc_kept | apply kept_ite | apply kept_fst_ite | simp only [kept_mk_iff]) | dsimp only

theorem State.fabricStep_kept (s : State) (n : Nat) (found : List QWord) (h : Kept q o w s) :
    Kept q o w (State.fabricStep s n found).1 := by
  unfold State.fabricStep
  dsimp only
  repeat' first | (with_reducible first | assumption | apply State.fabricUe_kept | apply State.setGen_kept | apply State.rampsStep_kept | apply State.busesStep_kept | apply State.noteActivity_kept | apply State.metersStep_kept | apply State.destsStep_kept | apply kept_ite | apply kept_fst_ite | apply kept_snd_ite | apply kept_foldl | apply kept_fst_foldl | simp only [kept_mk_iff]) | intro _ _ _ | intro _ _

theorem State.commitExplicit_kept (s : State) (r : Nat) (h : Kept q o w s) :
    Kept q o w (State.commitExplicit s r) := by
  unfold State.commitExplicit
  dsimp only
  repeat' first | (with_reducible first | assumption | apply State.setCcuDeadline_kept | apply State.setCcuAdopt_kept | apply State.setCcuState_kept | apply State.wr_kept | apply kept_ite | apply kept_fst_ite | simp only [kept_mk_iff])

theorem State.commitMeasured_kept (s : State) (r : Nat) (h : Kept q o w s) :
    Kept q o w (State.commitMeasured s r) := by
  unfold State.commitMeasured
  dsimp only
  repeat' first | (with_reducible first | assumption | apply State.setCcuDeadline_kept | apply State.setCcuAdopt_kept | apply kept_ite | apply kept_fst_ite | simp only [kept_mk_iff])

theorem State.commitRegions_kept (s : State) (f : State → Nat → State) (m : Nat)
    (hf : ∀ s r, Kept q o w s → Kept q o w (f s r)) (h : Kept q o w s) : Kept q o w (State.commitRegions s f m) := by
  unfold State.commitRegions
  exact kept_foldl (fun s r h => kept_ite (hf s r h) h) h

theorem execCcuCommitExplicit_kept (regions : BitVec 3) (s : State) (h : Kept q o w s) :
    KeptRes q o w (execCcuCommitExplicit regions s) := by
  unfold execCcuCommitExplicit
  repeat' first | (with_reducible first | assumption | apply State.commitRegions_kept | apply State.commitExplicit_kept | apply kept_next | apply kept_res_ite | apply kept_ite | apply kept_fst_ite | simp only [kept_mk_iff]) | dsimp only

theorem execCcuCommitMeasured_kept (regions : BitVec 3) (s : State) (h : Kept q o w s) :
    KeptRes q o w (execCcuCommitMeasured regions s) := by
  unfold execCcuCommitMeasured
  repeat' first | (with_reducible first | assumption | apply State.commitRegions_kept | apply State.commitMeasured_kept | apply kept_next | apply kept_res_ite | apply kept_ite | apply kept_fst_ite | simp only [kept_mk_iff]) | dsimp only

theorem State.beginPass_kept (s : State) (r : Nat) (h : Kept q o w s) :
    Kept q o w (State.beginPass s r) := by
  unfold State.beginPass
  dsimp only
  repeat' first | (with_reducible first | assumption | apply kept_ite | apply kept_fst_ite | simp only [kept_mk_iff]) | split

theorem execCcuPassEnd_kept (region : Fin 3) (read : Option Sys2Proof.Word) (found : List QWord) (s : State) (h : Kept q o w s) :
    KeptRes q o w (execCcuPassEnd region read found s) := by
  unfold execCcuPassEnd
  dsimp only
  repeat' first | (with_reducible first | assumption | apply State.liveUes_kept | apply State.wr_kept | apply State.flag_kept | apply State.setCcuDeadline_kept | apply State.setCcuAdopt_kept | apply State.setCcuState_kept | apply State.raise_kept | apply State.count_kept | apply State.beginPass_kept | apply kept_next | apply kept_res_ite | apply kept_ite | apply kept_fst_ite | simp only [kept_mk_iff]) | split

theorem execCcuDeadline_kept (region : Fin 3) (s : State) (h : Kept q o w s) :
    KeptRes q o w (execCcuDeadline region s) := by
  unfold execCcuDeadline
  dsimp only
  repeat' first | (with_reducible first | assumption | apply State.raise_kept | apply State.flag_kept | apply kept_next | apply kept_res_ite | apply kept_ite | apply kept_fst_ite | simp only [kept_mk_iff]) | split

theorem State.reduck_kept (s : State) (n : Nat) (h : Kept q o w s) :
    Kept q o w (State.reduck s n) := by
  unfold State.reduck
  dsimp only
  repeat' first | (with_reducible first | assumption | apply kept_ite | apply kept_fst_ite | apply kept_foldl | apply kept_fst_foldl | simp only [kept_mk_iff]) | split | intro _ _ _ | intro _ _

theorem State.setBstate_kept (s : State) (b : Nat) (h : Kept q o w s) :
    Kept q o w (State.setBstate s b) := by
  unfold State.setBstate
  repeat' first | (with_reducible first | assumption | apply State.setFld_kept | apply kept_ite | apply kept_fst_ite | simp only [kept_mk_iff]) | dsimp only

theorem State.seamBusy_kept (s : State) (h : Kept q o w s) :
    Kept q o w (State.seamBusy s) := by
  unfold State.seamBusy
  repeat' first | (with_reducible first | assumption | apply State.count_kept | apply kept_ite | apply kept_fst_ite | simp only [kept_mk_iff]) | dsimp only

theorem State.noteCheck_kept (s : State) (r : Nat × Nat × Nat) (fold : Nat) (h : Kept q o w s) :
    Kept q o w (State.noteCheck s r fold) := by
  unfold State.noteCheck
  dsimp only
  repeat' first | (with_reducible first | assumption | apply State.wrN_kept | apply State.raise_kept | apply kept_ite | apply kept_fst_ite | apply kept_snd_ite | apply kept_foldl | apply kept_fst_foldl | simp only [kept_mk_iff]) | split | intro _ _ _ | intro _ _

theorem State.swapBuses_kept (s : State) (old : Bank) (new : Bank) (t : Nat) (h : Kept q o w s) :
    Kept q o w (State.swapBuses s old new t) := by
  unfold State.swapBuses
  dsimp only
  repeat' first | (with_reducible first | assumption | apply State.setBusSt_kept | apply kept_ite | apply kept_fst_ite | apply kept_foldl | apply kept_fst_foldl | simp only [kept_mk_iff]) | split | intro _ _ _ | intro _ _

theorem State.swap_kept (s : State) (t : Nat) (h : Kept q o w s) :
    Kept q o w (State.swap s t) := by
  unfold State.swap
  dsimp only
  repeat' first | (with_reducible first | assumption | apply State.setTap_kept | apply State.resolo_kept | apply State.swapBuses_kept | apply State.reduck_kept | apply State.wr64_kept | apply State.setBit_kept | apply State.flag_kept | apply State.count_kept | apply State.setBstate_kept | apply State.directOverride_kept | apply State.ccuChange_kept | apply kept_ite | apply kept_fst_ite | apply kept_snd_ite | apply kept_foldl | apply kept_fst_foldl | simp only [kept_mk_iff]) | split | intro _ _ _ | intro _ _

theorem execLiveCrcDone_kept (s : State) (h : Kept q o w s) :
    KeptRes q o w (execLiveCrcDone s) := by
  unfold execLiveCrcDone
  dsimp only
  repeat' first | (with_reducible first | assumption | apply State.flag_kept | apply State.wr_kept | apply kept_next | apply kept_res_ite | apply kept_ite | apply kept_fst_ite | simp only [kept_mk_iff]) | split

theorem State.rebasteCopy_kept (s : State) (found : List QWord) (h : Kept q o w s) :
    Kept q o w (State.rebasteCopy s found) := by
  unfold State.rebasteCopy
  dsimp only
  repeat' first | (with_reducible first | assumption | apply State.liveUes_kept | apply kept_ite | apply kept_fst_ite | apply kept_foldl | apply kept_fst_foldl | simp only [kept_mk_iff]) | split | intro _ _ _ | intro _ _

theorem State.setBaste_kept (s : State) (k : Bank) (h : Kept q o w s) :
    Kept q o w (State.setBaste s k) := by
  unfold State.setBaste
  dsimp only
  repeat' first | (with_reducible first | assumption | apply State.setBstate_kept | apply kept_ite | apply kept_fst_ite | simp only [kept_mk_iff]) | split

theorem State.putBaste_kept (s : State) (w' : BasteWord) (v : Nat) (enable : Nat) (h : Kept q o w s) :
    Kept q o w (State.putBaste s w' v enable) := by
  unfold State.putBaste
  dsimp only
  repeat' first | (with_reducible first | assumption | apply State.setBaste_kept | apply kept_ite | apply kept_fst_ite | simp only [kept_mk_iff]) | split

theorem State.basteWrite_kept (s : State) (w' : BasteWord) (v : Nat) (enable : Nat) (h : Kept q o w s) :
    Kept q o w (State.basteWrite s w' v enable) := by
  unfold State.basteWrite
  repeat' first | (with_reducible first | assumption | apply State.putBaste_kept | apply State.flag_kept | apply State.seamBusy_kept | apply kept_ite | apply kept_fst_ite | simp only [kept_mk_iff]) | split | dsimp only

theorem execBasteWrite_kept (w' : BasteWord) (v : Sys2Proof.DWord) (enable : BitVec 8) (s : State) (h : Kept q o w s) :
    KeptRes q o w (execBasteWrite w' v enable s) := by
  unfold execBasteWrite
  repeat' first | (with_reducible first | assumption | apply State.basteWrite_kept | apply kept_next | apply kept_res_ite | apply kept_ite | apply kept_fst_ite | simp only [kept_mk_iff]) | dsimp only

theorem State.dwrRefuse_kept (s : State) (key : Nat) (reason : Nat) (h : Kept q o w s) :
    Kept q o w (State.dwrRefuse s key reason) := by
  unfold State.dwrRefuse
  dsimp only
  repeat' first | (with_reducible first | assumption | apply State.wrN_kept | apply State.raise_kept | apply State.flag_kept | apply State.count_kept | apply kept_ite | apply kept_fst_ite | simp only [kept_mk_iff]) | split

theorem State.dwrApply_kept (s : State) (key : Nat) (w' : Sys2Proof.DWord) (h : Kept q o w s) :
    Kept q o w (State.dwrApply s key w') := by
  unfold State.dwrApply
  dsimp only
  repeat' first | (with_reducible first | assumption | apply State.wrN_kept | apply State.setGain_kept | apply State.count_kept | apply State.wr64_kept | apply State.reduck_kept | apply State.resolo_kept | apply State.ccuChange_kept | apply kept_ite | apply kept_fst_ite | simp only [kept_mk_iff]) | split

theorem State.dwrAct_kept (s : State) (key : Nat) (w' : Sys2Proof.DWord) (h : Kept q o w s) :
    Kept q o w (State.dwrAct s key w').1 := by
  unfold State.dwrAct
  dsimp only
  repeat' first | (with_reducible first | assumption | apply State.dwrApply_kept | apply State.dwrRefuse_kept | apply kept_ite | apply kept_fst_ite | simp only [kept_mk_iff]) | split

theorem State.dropHold_kept (s : State) (key : Nat) (h : Kept q o w s) :
    Kept q o w (State.dropHold s key) := by
  unfold State.dropHold
  dsimp only
  repeat' first | (with_reducible first | assumption | apply kept_ite | apply kept_fst_ite | simp only [kept_mk_iff])

theorem State.dwrRecord_kept (s : State) (key : Nat) (w' : Sys2Proof.DWord) (h : Kept q o w s) :
    Kept q o w (State.dwrRecord s key w').1 := by
  unfold State.dwrRecord
  dsimp only
  repeat' first | (with_reducible first | assumption | apply State.dwrRefuse_kept | apply State.dropHold_kept | apply State.dwrApply_kept | apply kept_ite | apply kept_fst_ite | simp only [kept_mk_iff]) | split

theorem State.directWrite_kept (s : State) (key : Nat) (v : Nat) (enable : Nat) (h : Kept q o w s) :
    Kept q o w (State.directWrite s key v enable) := by
  unfold State.directWrite
  dsimp only
  repeat' first | (with_reducible first | assumption | apply State.dwrRecord_kept | apply kept_ite | apply kept_fst_ite | apply kept_snd_ite | simp only [kept_mk_iff]) | split

theorem execDirectStitchWrite_kept (tile : Fin 16) (slot : Fin 65536) (v : Sys2Proof.DWord) (enable : BitVec 8) (s : State) (h : Kept q o w s) :
    KeptRes q o w (execDirectStitchWrite tile slot v enable s) := by
  unfold execDirectStitchWrite
  repeat' first | (with_reducible first | assumption | apply State.directWrite_kept | apply kept_next | apply kept_res_ite | apply kept_ite | apply kept_fst_ite | simp only [kept_mk_iff]) | dsimp only

theorem State.pairedWrites_kept (s : State) (h : Kept q o w s) :
    Kept q o w (State.pairedWrites s) := by
  unfold State.pairedWrites
  dsimp only
  repeat' first | (with_reducible first | assumption | apply State.dwrAct_kept | apply kept_ite | apply kept_fst_ite | apply kept_foldl | apply kept_fst_foldl | simp only [kept_mk_iff]) | intro _ _ _ | intro _ _

theorem execDirectWritePairedApply_kept (s : State) (h : Kept q o w s) :
    KeptRes q o w (execDirectWritePairedApply s) := by
  unfold execDirectWritePairedApply
  repeat' first | (with_reducible first | assumption | apply State.pairedWrites_kept | apply kept_next | apply kept_res_ite | apply kept_ite | apply kept_fst_ite | simp only [kept_mk_iff]) | dsimp only

theorem State.noteSlots_kept (s : State) (h : Kept q o w s) :
    Kept q o w (State.noteSlots s) := by
  unfold State.noteSlots
  repeat' first | (with_reducible first | assumption | apply State.setBit_kept | apply kept_ite | apply kept_fst_ite | apply kept_foldl | apply kept_fst_foldl | simp only [kept_mk_iff]) | intro _ _ _ | intro _ _ | dsimp only

end Sys2Proof.Machine
end

