-- ==== Sys2Proof/Laws/KeptAlarm.lean ====
section
/-! SUPPORT. What every function of the alarm unit and the folds keeps: the queue, the fuses (`Otp.Same`) and the canonical memory (`Kept`), one lemma a function. -/

set_option maxRecDepth 4000
set_option linter.unusedSimpArgs false

namespace Sys2Proof.Machine

variable {q : List Sys2Proof.Instr} {o : Otp} {w : Bool}

theorem State.setPlayer_kept (s : State) (p : Nat) (x : Player) (h : Kept q o w s) :
    Kept q o w (State.setPlayer s p x) := by
  unfold State.setPlayer
  dsimp only
  repeat' first | (with_reducible first | assumption | apply kept_ite | apply kept_fst_ite | simp only [kept_mk_iff])

theorem State.playersStep_kept (s : State) (n : Nat) (bad : List (Nat × Nat)) (h : Kept q o w s) :
    Kept q o w (State.playersStep s n bad) := by
  unfold State.playersStep
  dsimp only
  repeat' first | (with_reducible first | assumption | apply State.raise_kept | apply State.flag_kept | apply State.setPlayer_kept | apply State.dramUe_kept | apply kept_ite | apply kept_fst_ite | apply kept_snd_ite | apply kept_foldl | apply kept_fst_foldl | simp only [kept_mk_iff]) | split | intro _ _ _ | intro _ _

theorem State.playerStart_kept (s : State) (p : Nat) (slot : Nat) (m : Msg) (owner : Nat) (reps : Nat) (gap : Nat) (n : Nat) (h : Kept q o w s) :
    Kept q o w (State.playerStart s p slot m owner reps gap n) := by
  unfold State.playerStart
  dsimp only
  repeat' first | (with_reducible first | assumption | apply State.setPlayer_kept | apply kept_ite | apply kept_fst_ite | simp only [kept_mk_iff]) | split

theorem State.playerStop_kept (s : State) (p : Nat) (n : Nat) (h : Kept q o w s) :
    Kept q o w (State.playerStop s p n) := by
  unfold State.playerStop
  dsimp only
  repeat' first | (with_reducible first | assumption | apply State.setPlayer_kept | apply kept_ite | apply kept_fst_ite | simp only [kept_mk_iff]) | split

theorem State.msgMissing_kept (s : State) (p : Nat) (h : Kept q o w s) :
    Kept q o w (State.msgMissing s p) := by
  unfold State.msgMissing
  repeat' first | (with_reducible first | assumption | apply State.raise_kept | apply State.flag_kept | apply kept_ite | apply kept_fst_ite | simp only [kept_mk_iff]) | dsimp only

theorem State.entryStart_kept (s : State) (owner : Nat) (n : Nat) (e : PlyEntry) (h : Kept q o w s) :
    Kept q o w (State.entryStart s owner n e) := by
  unfold State.entryStart
  repeat' first | (with_reducible first | assumption | apply State.playerStart_kept | apply State.msgMissing_kept | apply kept_ite | apply kept_fst_ite | apply kept_snd_ite | simp only [kept_mk_iff]) | split | dsimp only

theorem State.messageEvent_kept (s : State) (p : Nat) (slot : Nat) (reps : Nat) (gap : Nat) (n : Nat) (h : Kept q o w s) :
    Kept q o w (State.messageEvent s p slot reps gap n).1 := by
  unfold State.messageEvent
  repeat' first | (with_reducible first | assumption | apply State.playerStart_kept | apply State.msgMissing_kept | apply kept_ite | apply kept_fst_ite | simp only [kept_mk_iff]) | split | dsimp only

theorem execPlayerMessageEnd_kept (p : Fin 64) (s : State) (h : Kept q o w s) :
    KeptRes q o w (execPlayerMessageEnd p s) := by
  unfold execPlayerMessageEnd
  dsimp only
  repeat' first | (with_reducible first | assumption | apply State.setPlayer_kept | apply kept_next | apply kept_res_ite | apply kept_ite | apply kept_fst_ite | simp only [kept_mk_iff]) | split

theorem execPlayerGapEnd_kept (p : Fin 64) (s : State) (h : Kept q o w s) :
    KeptRes q o w (execPlayerGapEnd p s) := by
  unfold execPlayerGapEnd
  dsimp only
  repeat' first | (with_reducible first | assumption | apply State.setPlayer_kept | apply kept_next | apply kept_res_ite | apply kept_ite | apply kept_fst_ite | simp only [kept_mk_iff]) | split

theorem State.alarmTrigger_kept (s : State) (q' : Nat) (trigger : Nat) (on : Bool) (undo : Option Released) (h : Kept q o w s) :
    Kept q o w (State.alarmTrigger s q' trigger on undo) := by
  unfold State.alarmTrigger
  dsimp only
  repeat' first | (with_reducible first | assumption | apply kept_ite | apply kept_fst_ite | simp only [kept_mk_iff]) | split

theorem State.inputQualify_kept (s : State) (a : Nat) (q' : Nat) (h : Kept q o w s) :
    Kept q o w (State.inputQualify s a q') := by
  unfold State.inputQualify
  dsimp only
  repeat' first | (with_reducible first | assumption | apply State.setBitAt_kept | apply State.alarmTrigger_kept | apply kept_ite | apply kept_fst_ite | simp only [kept_mk_iff]) | split

theorem State.inputRelease_kept (s : State) (a : Nat) (q' : Nat) (h : Kept q o w s) :
    Kept q o w (State.inputRelease s a q') := by
  unfold State.inputRelease
  repeat' first | (with_reducible first | assumption | apply State.alarmTrigger_kept | apply State.setBitAt_kept | apply kept_ite | apply kept_fst_ite | simp only [kept_mk_iff]) | dsimp only

theorem execAlarmInputQualify_kept (a : Fin 32) (edges : Nat) (s : State) (h : Kept q o w s) :
    KeptRes q o w (execAlarmInputQualify a edges s) := by
  unfold execAlarmInputQualify
  repeat' first | (with_reducible first | assumption | apply State.inputQualify_kept | apply kept_next | apply kept_res_ite | apply kept_ite | apply kept_fst_ite | simp only [kept_mk_iff]) | split | dsimp only

theorem execAlarmInputRelease_kept (a : Fin 32) (edges : Nat) (s : State) (h : Kept q o w s) :
    KeptRes q o w (execAlarmInputRelease a edges s) := by
  unfold execAlarmInputRelease
  repeat' first | (with_reducible first | assumption | apply State.inputRelease_kept | apply kept_next | apply kept_res_ite | apply kept_ite | apply kept_fst_ite | simp only [kept_mk_iff]) | split | dsimp only

theorem execPartnerAlarmMessage_kept (a : Fin 32) (qualify : Bool) (q' : Nat) (s : State) (h : Kept q o w s) :
    KeptRes q o w (execPartnerAlarmMessage a qualify q' s) := by
  unfold execPartnerAlarmMessage
  dsimp only
  repeat' first | (with_reducible first | assumption | apply State.inputQualify_kept | apply State.inputRelease_kept | apply kept_next | apply kept_res_ite | apply kept_ite | apply kept_fst_ite | simp only [kept_mk_iff]) | split

theorem State.alarmInCfg_kept (s : State) (a : Nat) (v : Sys2Proof.Word) (h : Kept q o w s) :
    Kept q o w (State.alarmInCfg s a v) := by
  unfold State.alarmInCfg
  dsimp only
  repeat' first | (with_reducible first | assumption | apply State.ccuConfigChange_kept | apply State.wrN_kept | apply State.flag_kept | apply kept_ite | apply kept_fst_ite | simp only [kept_mk_iff]) | split

theorem execAlarmInCfgWrite_kept (a : Fin 32) (v : Sys2Proof.Word) (s : State) (h : Kept q o w s) :
    KeptRes q o w (execAlarmInCfgWrite a v s) := by
  unfold execAlarmInCfgWrite
  repeat' first | (with_reducible first | assumption | apply State.alarmInCfg_kept | apply kept_next | apply kept_res_ite | apply kept_ite | apply kept_fst_ite | simp only [kept_mk_iff]) | dsimp only

theorem State.dropOverlay_kept (s : State) (h : Kept q o w s) :
    Kept q o w (State.dropOverlay s) := by
  unfold State.dropOverlay
  dsimp only
  repeat' first | (with_reducible first | assumption | apply kept_ite | apply kept_fst_ite | simp only [kept_mk_iff])

theorem State.placeRecord_kept (s : State) (old : List (Nat × Int)) (n : Nat) (w' : Sys2Proof.DWord) (h : Kept q o w s) :
    Kept q o w (State.placeRecord s old n w') := by
  unfold State.placeRecord
  dsimp only
  repeat' first | (with_reducible first | assumption | apply kept_ite | apply kept_fst_ite | apply kept_snd_ite | simp only [kept_mk_iff]) | split

theorem State.placeOverlay_kept (s : State) (p : AlarmPat) (n : Nat) (h : Kept q o w s) :
    Kept q o w (State.placeOverlay s p n) := by
  unfold State.placeOverlay
  dsimp only
  repeat' first | (with_reducible first | assumption | apply State.placeRecord_kept | apply State.dropOverlay_kept | apply State.syncOvl_kept | apply kept_ite | apply kept_fst_ite | apply kept_snd_ite | apply kept_foldl | apply kept_fst_foldl | simp only [kept_mk_iff]) | intro _ _ _ | intro _ _

theorem State.retireOverlay_kept (s : State) (h : Kept q o w s) :
    Kept q o w (State.retireOverlay s) := by
  unfold State.retireOverlay
  dsimp only
  repeat' first | (with_reducible first | assumption | apply State.syncOvl_kept | apply kept_ite | apply kept_fst_ite | simp only [kept_mk_iff]) | split

theorem State.beginGovern_kept (s : State) (g : Option Nat) (n : Nat) (keep : List Nat) (h : Kept q o w s) :
    Kept q o w (State.beginGovern s g n keep) := by
  unfold State.beginGovern
  dsimp only
  repeat' first | (with_reducible first | assumption | apply State.placeOverlay_kept | apply State.reduck_kept | apply State.entryStart_kept | apply State.syncOvl_kept | apply State.dropOverlay_kept | apply State.raise_kept | apply State.flag_kept | apply kept_ite | apply kept_fst_ite | apply kept_foldl | apply kept_fst_foldl | simp only [kept_mk_iff]) | split | intro _ _ _ | intro _ _

theorem State.changeReplace_kept (s : State) (h : Kept q o w s) :
    Kept q o w (State.changeReplace s) := by
  unfold State.changeReplace
  dsimp only
  repeat' first | (with_reducible first | assumption | apply State.beginGovern_kept | apply kept_ite | apply kept_fst_ite | simp only [kept_mk_iff]) | split

theorem execChangeoverReplace_kept (s : State) (h : Kept q o w s) :
    KeptRes q o w (execChangeoverReplace s) := by
  unfold execChangeoverReplace
  repeat' first | (with_reducible first | assumption | apply State.changeReplace_kept | apply kept_next | apply kept_res_ite | apply kept_ite | apply kept_fst_ite | simp only [kept_mk_iff]) | dsimp only

theorem State.alarmEnter_kept (s : State) (active : Nat) (cause : Nat) (n : Nat) (h : Kept q o w s) :
    Kept q o w (State.alarmEnter s active cause n) := by
  unfold State.alarmEnter
  dsimp only
  repeat' first | (with_reducible first | assumption | apply State.setSys_kept | apply State.flag_kept | apply State.count_kept | apply State.wr64_kept | apply State.beginGovern_kept | apply State.raise_kept | apply kept_ite | apply kept_fst_ite | simp only [kept_mk_iff]) | split

theorem State.changeBegin_kept (s : State) (g : Option Nat) (n : Nat) (h : Kept q o w s) :
    Kept q o w (State.changeBegin s g n) := by
  unfold State.changeBegin
  dsimp only
  repeat' first | (with_reducible first | assumption | apply State.playerStop_kept | apply kept_ite | apply kept_fst_ite | apply kept_foldl | apply kept_fst_foldl | simp only [kept_mk_iff]) | split | intro _ _ _ | intro _ _

theorem State.alarmExit_kept (s : State) (n : Nat) (h : Kept q o w s) :
    Kept q o w (State.alarmExit s n) := by
  unfold State.alarmExit
  dsimp only
  repeat' first | (with_reducible first | assumption | apply State.setSys_kept | apply State.playerStop_kept | apply State.reduck_kept | apply kept_ite | apply kept_fst_ite | apply kept_foldl | apply kept_fst_foldl | simp only [kept_mk_iff]) | split | intro _ _ _ | intro _ _

theorem State.unrelease_kept (s : State) (r : Released) (h : Kept q o w s) :
    Kept q o w (State.unrelease s r) := by
  unfold State.unrelease
  dsimp only
  repeat' first | (with_reducible first | assumption | apply State.wr_kept | apply kept_ite | apply kept_fst_ite | simp only [kept_mk_iff])

theorem State.alarmAct_kept (s : State) (h : Kept q o w s) :
    Kept q o w (State.alarmAct s) := by
  unfold State.alarmAct
  dsimp only
  repeat' first | (with_reducible first | assumption | apply State.changeReplace_kept | apply State.unrelease_kept | apply State.alarmEnter_kept | apply State.changeBegin_kept | apply State.alarmExit_kept | apply kept_ite | apply kept_fst_ite | apply kept_foldl | apply kept_fst_foldl | simp only [kept_mk_iff]) | split | intro _ _ _ | intro _ _

theorem execAlarmAction_kept (s : State) (h : Kept q o w s) :
    KeptRes q o w (execAlarmAction s) := by
  unfold execAlarmAction
  repeat' first | (with_reducible first | assumption | apply State.alarmAct_kept | apply kept_next | apply kept_res_ite | apply kept_ite | apply kept_fst_ite | simp only [kept_mk_iff]) | split | dsimp only

theorem State.bootAlarm_kept (s : State) (ret : Mode) (duty : Bool) (fb : Bool) (h : Kept q o w s) :
    Kept q o w (State.bootAlarm s ret duty fb) := by
  unfold State.bootAlarm
  dsimp only
  repeat' first | (with_reducible first | assumption | apply State.setSys_kept | apply State.flag_kept | apply State.count_kept | apply State.wr64_kept | apply State.raise_kept | apply State.beginGovern_kept | apply kept_ite | apply kept_fst_ite | simp only [kept_mk_iff])

theorem State.alarmActivate_kept (s : State) (p : Nat) (h : Kept q o w s) :
    Kept q o w (State.alarmActivate s p).1 := by
  unfold State.alarmActivate
  dsimp only
  repeat' first | (with_reducible first | assumption | apply State.alarmTrigger_kept | apply kept_ite | apply kept_fst_ite | simp only [kept_mk_iff])

theorem State.alarmRelease_kept (s : State) (h : Kept q o w s) :
    Kept q o w (State.alarmRelease s).1 := by
  unfold State.alarmRelease
  dsimp only
  repeat' first | (with_reducible first | assumption | apply State.wrN_kept | apply State.setBitAt_kept | apply State.flag_kept | apply State.alarmTrigger_kept | apply kept_ite | apply kept_fst_ite | apply kept_foldl | apply kept_fst_foldl | simp only [kept_mk_iff]) | split | intro _ _ _ | intro _ _

theorem State.notePattern_kept (s : State) (p : Nat) (valid : Bool) (h : Kept q o w s) :
    Kept q o w (State.notePattern s p valid) := by
  unfold State.notePattern
  repeat' first | (with_reducible first | assumption | apply State.setBitAt_kept | apply kept_ite | apply kept_fst_ite | simp only [kept_mk_iff]) | dsimp only

theorem State.syncTileOvl_kept (s : State) (h : Kept q o w s) :
    Kept q o w (State.syncTileOvl s) := by
  unfold State.syncTileOvl
  repeat' first | (with_reducible first | assumption | apply State.wrN_kept | apply kept_ite | apply kept_fst_ite | apply kept_foldl | apply kept_fst_foldl | simp only [kept_mk_iff]) | intro _ _ _ | intro _ _ | dsimp only

theorem State.cachePatterns_kept (s : State) (h : Kept q o w s) :
    Kept q o w (State.cachePatterns s) := by
  unfold State.cachePatterns
  dsimp only
  repeat' first | (with_reducible first | assumption | apply State.syncTileOvl_kept | apply State.notePattern_kept | apply State.raise_kept | apply State.flag_kept | apply kept_ite | apply kept_fst_ite | apply kept_foldl | apply kept_fst_foldl | simp only [kept_mk_iff]) | split | intro _ _ _ | intro _ _

theorem State.patternLoad_kept (s : State) (p : Nat) (bs : List Sys2Proof.Byte) (x : AlarmPat) (h : Kept q o w s) :
    Kept q o w (State.patternLoad s p bs x) := by
  unfold State.patternLoad
  dsimp only
  repeat' first | (with_reducible first | assumption | apply kept_ite | apply kept_fst_ite | apply kept_nvsPut | simp only [kept_mk_iff])

theorem State.loadsBlockStart_kept (s : State) (h : Kept q o w s) :
    Kept q o w (State.loadsBlockStart s) := by
  unfold State.loadsBlockStart
  dsimp only
  repeat' first | (with_reducible first | assumption | apply State.notePattern_kept | apply State.alarmTrigger_kept | apply State.syncTileOvl_kept | apply kept_ite | apply kept_fst_ite | apply kept_snd_ite | apply kept_foldl | apply kept_fst_foldl | simp only [kept_mk_iff]) | split | intro _ _ _ | intro _ _

theorem State.msgDramStart_kept (s : State) (v : Sys2Proof.Word) (h : Kept q o w s) :
    Kept q o w (State.msgDramStart s v) := by
  unfold State.msgDramStart
  dsimp only
  repeat' first | (with_reducible first | assumption | apply State.wrN_kept | apply kept_ite | apply kept_fst_ite | simp only [kept_mk_iff])

theorem State.msgCopy_kept (s : State) (slot : Nat) (h : Kept q o w s) : Kept q o w (State.msgCopy s slot) := by
  unfold State.msgCopy
  refine kept_ite h ?_
  dsimp only
  split
  · exact kept_mk_iff.2 h
  · refine kept_ite (kept_mk_iff.2 h) (State.setBit_kept _ _ _ _ (kept_mem h ?_ ?_))
    · exact fun g => (Mem.dramRun_keeps _ (s.mem, _)).1.symm ▸ g
    · exact fun g => (Mem.dramRun_keeps _ (s.mem, _)).2 g

theorem execMsgCopyDone_kept (slot : Fin 512) (s : State) (h : Kept q o w s) :
    KeptRes q o w (execMsgCopyDone slot s) := by
  unfold execMsgCopyDone
  repeat' first | (with_reducible first | assumption | apply State.msgCopy_kept | apply kept_next | apply kept_res_ite | apply kept_ite | apply kept_fst_ite | simp only [kept_mk_iff]) | dsimp only

theorem State.messageWrite_kept (s : State) (slot off fmt len : Nat) (data : List Sys2Proof.Byte) (h : Kept q o w s) :
    Kept q o w (State.messageWrite s slot off fmt len data) := by
  unfold State.messageWrite
  have key (m : Mem) (hm : Otp.Same o m.otp) (hw : w = true → m.wf = true) : Kept q o w { s with mem := m } :=
    ⟨h.1, hm, hw⟩
  dsimp only
  refine kept_ite (kept_mk_iff.2 (State.wrN_kept _ _ _ (key _ h.2.1 ?_))) (State.wrN_kept _ _ _ (key _ h.2.1 ?_))
  all_goals exact fun hw => Mem.wf_nvsPut _ _ _ (Mem.wf_nvsPut _ _ _ (h.2.2 hw))

theorem State.messageFailed_kept (s : State) (slot : Nat) (h : Kept q o w s) :
    Kept q o w (State.messageFailed s slot) := by
  unfold State.messageFailed
  dsimp only
  repeat' first | (with_reducible first | assumption | apply State.flag_kept | apply State.count_kept | apply State.raise_kept | apply State.setBit_kept | apply kept_ite | apply kept_fst_ite | apply kept_snd_ite | apply kept_nvsPut | simp only [kept_mk_iff]) | split

theorem State.nvsPass_kept (s : State) (h : Kept q o w s) :
    Kept q o w (State.nvsPass s) := by
  unfold State.nvsPass
  dsimp only
  repeat' first | (with_reducible first | assumption | apply State.messageFailed_kept | apply State.setBitAt_kept | apply kept_ite | apply kept_fst_ite | apply kept_foldl | apply kept_fst_foldl | simp only [kept_mk_iff]) | split | intro _ _ _ | intro _ _

theorem State.shadowWords_kept (s : State) (bs : List Sys2Proof.Byte) (off : Nat) (g : List Nat) (h : Kept q o w s) :
    Kept q o w (State.shadowWords s bs off g) := by
  unfold State.shadowWords
  repeat' first | (with_reducible first | assumption | apply State.setShadow_kept | apply kept_ite | apply kept_fst_ite | apply kept_snd_ite | apply kept_foldl | apply kept_fst_foldl | simp only [kept_mk_iff]) | intro _ _ _ | intro _ _ | dsimp only

theorem State.fallbackPort_kept (s : State) (bs : List Sys2Proof.Byte) (x : Section) (h : Kept q o w s) :
    Kept q o w (State.fallbackPort s bs x) := by
  unfold State.fallbackPort
  dsimp only
  repeat' first | (with_reducible first | assumption | apply State.shadowWords_kept | apply State.setPort_kept | apply State.putPort_kept | apply State.raise_kept | apply State.flag_kept | apply State.reloadShadows_kept | apply State.takeConfig_kept | apply State.setTdmClk_kept | apply State.portStart_kept | apply kept_ite | apply kept_fst_ite | simp only [kept_mk_iff]) | split

theorem State.fallbackLine_kept (s : State) (bs : List Sys2Proof.Byte) (x : Section) (h : Kept q o w s) :
    Kept q o w (State.fallbackLine s bs x) := by
  unfold State.fallbackLine
  dsimp only
  repeat' first | (with_reducible first | assumption | apply State.shadowWords_kept | apply State.setLineCh_kept | apply State.raise_kept | apply State.flag_kept | apply State.reloadShadows_kept | apply State.takeConfig_kept | apply kept_ite | apply kept_fst_ite | simp only [kept_mk_iff]) | split

theorem State.fallbackLive_kept (s : State) (k : Bank) (n : Nat) (h : Kept q o w s) :
    Kept q o w (State.fallbackLive s k n) := by
  unfold State.fallbackLive
  dsimp only
  repeat' first | (with_reducible first | assumption | apply State.resolo_kept | apply State.swapBuses_kept | apply State.syncOvl_kept | apply kept_ite | apply kept_fst_ite | apply kept_snd_ite | simp only [kept_mk_iff]) | split

theorem State.fallbackApply_kept (s : State) (h : Kept q o w s) :
    Kept q o w (State.fallbackApply s) := by
  unfold State.fallbackApply
  dsimp only
  repeat' first | (with_reducible first | assumption | apply State.fallbackLive_kept | apply State.fallbackPort_kept | apply State.fallbackLine_kept | apply State.lineEnableMask_kept | apply State.putPort_kept | apply State.lineSync_kept | apply State.setLineCh_kept | apply State.directOverride_kept | apply State.syncTileOvl_kept | apply State.ccuFallback_kept | apply State.beginGovern_kept | apply kept_ite | apply kept_fst_ite | apply kept_snd_ite | apply kept_foldl | apply kept_fst_foldl | simp only [kept_mk_iff]) | split | intro _ _ _ | intro _ _

theorem execFallbackApply_kept (s : State) (h : Kept q o w s) :
    KeptRes q o w (execFallbackApply s) := by
  unfold execFallbackApply
  repeat' first | (with_reducible first | assumption | apply State.fallbackApply_kept | apply kept_next | apply kept_res_ite | apply kept_ite | apply kept_fst_ite | simp only [kept_mk_iff]) | split | dsimp only

theorem State.setFold_kept (s : State) (f : Nat) (x : Fold) (h : Kept q o w s) :
    Kept q o w (State.setFold s f x) := by
  unfold State.setFold
  dsimp only
  repeat' first | (with_reducible first | assumption | apply kept_ite | apply kept_fst_ite | simp only [kept_mk_iff])

theorem State.syncFold_kept (s : State) (f : Nat) (h : Kept q o w s) :
    Kept q o w (State.syncFold s f) := by
  unfold State.syncFold
  dsimp only
  repeat' first | (with_reducible first | assumption | apply State.setFld_kept | apply State.setBit_kept | apply kept_ite | apply kept_fst_ite | simp only [kept_mk_iff])

theorem State.ringWrite_kept (s : State) (f : Nat) (r : Reply) (h : Kept q o w s) :
    Kept q o w (State.ringWrite s f r) := by
  unfold State.ringWrite
  dsimp only
  repeat' first | (with_reducible first | assumption | apply State.setFld_kept | apply kept_ite | apply kept_fst_ite | simp only [kept_mk_iff]) | split

theorem State.ringDrain_kept (s : State) (f : Nat) (l : List Reply) (h : Kept q o w s) :
    Kept q o w (State.ringDrain s f l).1 := by
  induction l generalizing s with
  | nil => exact h
  | cons r l ih =>
    unfold State.ringDrain
    exact kept_fst_ite (ih _ (State.ringWrite_kept _ _ _ h)) h

theorem State.closeFold_kept (s : State) (f : Nat) (h : Kept q o w s) :
    Kept q o w (State.closeFold s f) := by
  unfold State.closeFold
  dsimp only
  repeat' first | (with_reducible first | assumption | apply State.setFold_kept | apply State.setBit_kept | apply State.wrN_kept | apply kept_ite | apply kept_fst_ite | simp only [kept_mk_iff]) | split

theorem State.drainFold_kept (s : State) (f : Nat) (h : Kept q o w s) :
    Kept q o w (State.drainFold s f) := by
  unfold State.drainFold
  dsimp only
  repeat' first | (with_reducible first | assumption | apply State.ringDrain_kept | apply State.syncFold_kept | apply State.closeFold_kept | apply State.setFold_kept | apply kept_ite | apply kept_fst_ite | apply kept_snd_ite | simp only [kept_mk_iff]) | split

theorem State.reply_kept (s : State) (f : Nat) (port : Nat) (r : Reply) (h : Kept q o w s) :
    Kept q o w (State.reply s f port r) := by
  unfold State.reply
  dsimp only
  repeat' first | (with_reducible first | assumption | apply State.count_kept | apply State.setFold_kept | apply State.syncFold_kept | apply State.closeFold_kept | apply State.drainFold_kept | apply kept_ite | apply kept_fst_ite | simp only [kept_mk_iff]) | split

theorem State.answer_kept (s : State) (f : Nat) (h' : Hdr) (a : Ans) (h : Kept q o w s) :
    Kept q o w (State.answer s f h' a) := by
  unfold State.answer
  dsimp only
  repeat' first | (with_reducible first | assumption | apply State.setFold_kept | apply State.reply_kept | apply kept_ite | apply kept_fst_ite | simp only [kept_mk_iff]) | split

theorem State.noticeWith_kept (s : State) (f : Nat) (opcode : Nat) (seq : Nat) (group : Nat) (status : Nat) (detail : Nat) (handle : Nat) (msc : Nat) (info : Nat) (more : List Sys2Proof.Byte) (h : Kept q o w s) :
    Kept q o w (State.noticeWith s f opcode seq group status detail handle msc info more) := by
  unfold State.noticeWith
  dsimp only
  repeat' first | (with_reducible first | assumption | apply State.flag_kept | apply State.count_kept | apply State.drainFold_kept | apply State.setFold_kept | apply kept_ite | apply kept_fst_ite | simp only [kept_mk_iff]) | split

theorem State.notice_kept (s : State) (e : Event) (status : Nat) (detail : Nat) (msc : Nat) (info : Nat) (h : Kept q o w s) :
    Kept q o w (State.notice s e status detail msc info) := by
  unfold State.notice
  repeat' first | (with_reducible first | assumption | apply State.noticeWith_kept | apply kept_ite | apply kept_fst_ite | simp only [kept_mk_iff]) | dsimp only

theorem State.rateEvent_kept (s : State) (f : Nat) (h : Kept q o w s) :
    Kept q o w (State.rateEvent s f) := by
  unfold State.rateEvent
  dsimp only
  repeat' first | (with_reducible first | assumption | apply State.raise_kept | apply State.setFold_kept | apply kept_ite | apply kept_fst_ite | simp only [kept_mk_iff]) | split

theorem State.intake_kept (s : State) (f : Nat) (port : Nat) (h' : Hdr) (h : Kept q o w s) :
    Kept q o w (State.intake s f port h').1 := by
  unfold State.intake
  dsimp only
  repeat' first | (with_reducible first | assumption | apply State.reply_kept | apply State.rateEvent_kept | apply State.count_kept | apply State.setFold_kept | apply State.syncFold_kept | apply kept_ite | apply kept_fst_ite | simp only [kept_mk_iff]) | split

theorem State.ringError_kept (s : State) (f : Nat) (h : Kept q o w s) :
    Kept q o w (State.ringError s f) := by
  unfold State.ringError
  repeat' first | (with_reducible first | assumption | apply State.raise_kept | apply State.flag_kept | apply State.setBit_kept | apply kept_ite | apply kept_fst_ite | simp only [kept_mk_iff]) | dsimp only

theorem State.readRing_kept (s : State) (f : Nat) (l : List Hdr) (h : Kept q o w s) : Kept q o w (State.readRing s f l) := by
  induction l generalizing s with
  | nil => exact h
  | cons r l ih =>
    unfold State.readRing
    exact kept_ite h (kept_ite (State.ringError_kept _ _ h)
      (ih _ (State.intake_kept _ _ _ _ (State.setFld_kept _ _ _ _ h))))

theorem State.doorbellFold_kept (s : State) (f : Nat) (tail : Nat) (packets : List Hdr) (h : Kept q o w s) :
    Kept q o w (State.doorbellFold s f tail packets) := by
  unfold State.doorbellFold
  dsimp only
  repeat' first | (with_reducible first | assumption | apply State.ringError_kept | apply State.readRing_kept | apply State.setFold_kept | apply kept_ite | apply kept_fst_ite | simp only [kept_mk_iff]) | split

theorem execFoldDoorbell_kept (f : Fin 128) (tail : BitVec 16) (packets : List Hdr) (s : State) (h : Kept q o w s) :
    KeptRes q o w (execFoldDoorbell f tail packets s) := by
  unfold execFoldDoorbell
  repeat' first | (with_reducible first | assumption | apply State.doorbellFold_kept | apply kept_next | apply kept_res_ite | apply kept_ite | apply kept_fst_ite | simp only [kept_mk_iff]) | dsimp only

theorem State.rheadWrite_kept (s : State) (f : Nat) (v : Nat) (packets : List Hdr) (h : Kept q o w s) :
    Kept q o w (State.rheadWrite s f v packets) := by
  unfold State.rheadWrite
  dsimp only
  repeat' first | (with_reducible first | assumption | apply State.setFld_kept | apply State.readRing_kept | apply State.drainFold_kept | apply kept_ite | apply kept_fst_ite | simp only [kept_mk_iff]) | split

theorem execFoldRheadWrite_kept (f : Fin 128) (v : BitVec 16) (packets : List Hdr) (s : State) (h : Kept q o w s) :
    KeptRes q o w (execFoldRheadWrite f v packets s) := by
  unfold execFoldRheadWrite
  repeat' first | (with_reducible first | assumption | apply State.rheadWrite_kept | apply kept_next | apply kept_res_ite | apply kept_ite | apply kept_fst_ite | simp only [kept_mk_iff]) | dsimp only

theorem State.authFail_kept (s : State) (f : Nat) (h : Kept q o w s) :
    Kept q o w (State.authFail s f) := by
  unfold State.authFail
  repeat' first | (with_reducible first | assumption | apply State.raise_kept | apply State.flag_kept | apply State.count_kept | apply kept_ite | apply kept_fst_ite | simp only [kept_mk_iff]) | dsimp only

theorem State.datagram_kept (s : State) (port : Nat) (srcIp : Nat) (srcPort : Nat) (bytes : List Sys2Proof.Byte) (h : Kept q o w s) :
    Kept q o w (State.datagram s port srcIp srcPort bytes) := by
  unfold State.datagram
  dsimp only
  repeat' first | (with_reducible first | assumption | apply State.authFail_kept | apply State.wrN_kept | apply State.setFold_kept | apply State.reply_kept | apply State.intake_kept | apply State.count_kept | apply kept_ite | apply kept_fst_ite | simp only [kept_mk_iff]) | split

theorem execDweulDatagram_kept (port : Fin 4) (srcIp : Sys2Proof.Word) (srcPort : BitVec 16) (bytes : List Sys2Proof.Byte) (s : State) (h : Kept q o w s) :
    KeptRes q o w (execDweulDatagram port srcIp srcPort bytes s) := by
  unfold execDweulDatagram
  repeat' first | (with_reducible first | assumption | apply State.datagram_kept | apply kept_next | apply kept_res_ite | apply kept_ite | apply kept_fst_ite | simp only [kept_mk_iff]) | dsimp only

theorem State.fetchDone_kept (s : State) (f : Nat) (seq : Nat) (ok : Bool) (h : Kept q o w s) :
    Kept q o w (State.fetchDone s f seq ok) := by
  unfold State.fetchDone
  dsimp only
  repeat' first | (with_reducible first | assumption | apply State.setFold_kept | apply kept_ite | apply kept_fst_ite | simp only [kept_mk_iff]) | split

theorem execBulkFetchDone_kept (f : Fin 128) (seq : Sys2Proof.Word) (ok : Bool) (s : State) (h : Kept q o w s) :
    KeptRes q o w (execBulkFetchDone f seq ok s) := by
  unfold execBulkFetchDone
  repeat' first | (with_reducible first | assumption | apply State.fetchDone_kept | apply kept_next | apply kept_res_ite | apply kept_ite | apply kept_fst_ite | simp only [kept_mk_iff]) | dsimp only

theorem State.shepherdFrame_kept (s : State) (backlog : Nat) (h : Kept q o w s) :
    Kept q o w (State.shepherdFrame s backlog) := by
  unfold State.shepherdFrame
  dsimp only
  repeat' first | (with_reducible first | assumption | apply State.wrN_kept | apply State.setFld_kept | apply State.raise_kept | apply State.flag_kept | apply kept_ite | apply kept_fst_ite | simp only [kept_mk_iff]) | split

theorem execShepherdFrame_kept (backlog : BitVec 24) (s : State) (h : Kept q o w s) :
    KeptRes q o w (execShepherdFrame backlog s) := by
  unfold execShepherdFrame
  repeat' first | (with_reducible first | assumption | apply State.shepherdFrame_kept | apply kept_next | apply kept_res_ite | apply kept_ite | apply kept_fst_ite | simp only [kept_mk_iff]) | split | dsimp only

end Sys2Proof.Machine
end

