-- ==== Sys2Proof/Laws/KeptTwin.lean ====
section
/-! SUPPORT. What every function of the scheduler, the twin and the pattern table keeps: the queue, the fuses (`Otp.Same`) and the canonical memory (`Kept`), one lemma a function. -/

set_option maxRecDepth 4000
set_option linter.unusedSimpArgs false

namespace Sys2Proof.Machine

variable {q : List Sys2Proof.Instr} {o : Otp} {w : Bool}

theorem State.pendObj_kept (s : State) (x2 : Obj) (h : Kept q o w s) :
    Kept q o w (State.pendObj s x2) := by
  unfold State.pendObj
  repeat' first | (with_reducible first | assumption | apply State.rxPending_kept | apply State.txPending_kept | apply State.portPending_kept | apply kept_ite | apply kept_fst_ite | apply kept_snd_ite | apply kept_foldl | apply kept_fst_foldl | apply kept_nvsPut | simp only [kept_mk_iff]) | split | intro _ _ _ | intro _ _ | dsimp only

theorem State.unpendObj_kept (s : State) (o' : Obj) (h : Kept q o w s) :
    Kept q o w (State.unpendObj s o') := by
  unfold State.unpendObj
  repeat' first | (with_reducible first | assumption | apply State.rxUnpend_kept | apply State.txUnpend_kept | apply State.portUnpend_kept | apply kept_ite | apply kept_fst_ite | simp only [kept_mk_iff]) | split | dsimp only

theorem State.startObj_kept (s : State) (t : Nat) (x3 : Obj) (h : Kept q o w s) :
    Kept q o w (State.startObj s t x3) := by
  unfold State.startObj
  repeat' first | (with_reducible first | assumption | apply State.rxStart_kept | apply State.txStart_kept | apply State.portStart_kept | apply kept_ite | apply kept_fst_ite | apply kept_snd_ite | apply kept_foldl | apply kept_fst_foldl | apply kept_nvsPut | simp only [kept_mk_iff]) | split | intro _ _ _ | intro _ _ | dsimp only

theorem State.stopOne_kept (s : State) (t : Nat) (x3 : Obj) (h : Kept q o w s) :
    Kept q o w (State.stopOne s t x3) := by
  unfold State.stopOne
  repeat' first | (with_reducible first | assumption | apply State.rxStop_kept | apply State.txStop_kept | apply State.portStop_kept | apply State.playerStop_kept | apply State.lineDisableMask_kept | apply kept_ite | apply kept_fst_ite | apply kept_snd_ite | apply kept_foldl | apply kept_fst_foldl | apply kept_nvsPut | simp only [kept_mk_iff]) | split | intro _ _ _ | intro _ _ | dsimp only

theorem State.stopObj_kept (s : State) (t : Nat) (o' : Obj) (h : Kept q o w s) :
    Kept q o w (State.stopObj s t o') := by
  unfold State.stopObj
  repeat' first | (with_reducible first | assumption | apply State.stopOne_kept | apply kept_ite | apply kept_fst_ite | apply kept_foldl | apply kept_fst_foldl | simp only [kept_mk_iff]) | split | intro _ _ _ | intro _ _ | dsimp only

theorem State.arrive_kept (s : State) (e : Event) (code : Nat) (h : Kept q o w s) :
    Kept q o w (State.arrive s e code).1 := by
  unfold State.arrive
  dsimp only
  repeat' first | (with_reducible first | assumption | apply State.flag_kept | apply State.count_kept | apply State.raise_kept | apply State.pendObj_kept | apply kept_ite | apply kept_fst_ite | apply kept_foldl | apply kept_fst_foldl | simp only [kept_mk_iff]) | split | intro _ _ _ | intro _ _

theorem State.dropEvent_kept (s : State) (handle : Nat) (h : Kept q o w s) :
    Kept q o w (State.dropEvent s handle) := by
  unfold State.dropEvent
  dsimp only
  repeat' first | (with_reducible first | assumption | apply kept_ite | apply kept_fst_ite | simp only [kept_mk_iff])

theorem State.unprepare_kept (s : State) (e : Event) (h : Kept q o w s) :
    Kept q o w (State.unprepare s e) := by
  unfold State.unprepare
  dsimp only
  repeat' first | (with_reducible first | assumption | apply State.unpendObj_kept | apply State.setBit_kept | apply State.setBstate_kept | apply kept_ite | apply kept_fst_ite | apply kept_foldl | apply kept_fst_foldl | simp only [kept_mk_iff]) | split | intro _ _ _ | intro _ _

theorem State.cancelEvent_kept (s : State) (e : Event) (h : Kept q o w s) :
    Kept q o w (State.cancelEvent s e) := by
  unfold State.cancelEvent
  repeat' first | (with_reducible first | assumption | apply State.unprepare_kept | apply State.dropEvent_kept | apply kept_ite | apply kept_fst_ite | simp only [kept_mk_iff]) | dsimp only

theorem State.grantMode_kept (s : State) (code : Nat) (h : Kept q o w s) :
    Kept q o w (State.grantMode s code) := by
  unfold State.grantMode
  dsimp only
  repeat' first | (with_reducible first | assumption | apply State.setSys_kept | apply State.linesSync_kept | apply kept_ite | apply kept_fst_ite | simp only [kept_mk_iff]) | split

theorem State.modeEvent_kept (s : State) (e : Event) (code : Nat) (h : Kept q o w s) :
    Kept q o w (State.modeEvent s e code) := by
  unfold State.modeEvent
  dsimp only
  repeat' first | (with_reducible first | assumption | apply State.notice_kept | apply State.grantMode_kept | apply kept_ite | apply kept_fst_ite | simp only [kept_mk_iff]) | split

theorem State.armCheck_kept (s : State) (e : Event) (h : Kept q o w s) :
    Kept q o w (State.armCheck s e).1 := by
  unfold State.armCheck
  dsimp only
  repeat' first | (with_reducible first | assumption | apply State.noteCheck_kept | apply State.setBstate_kept | apply State.dropEvent_kept | apply State.setBit_kept | apply State.raise_kept | apply State.flag_kept | apply State.count_kept | apply State.notice_kept | apply kept_ite | apply kept_fst_ite | apply kept_snd_ite | simp only [kept_mk_iff]) | split

theorem State.sewEvent_kept (s : State) (e : Event) (h : Kept q o w s) :
    Kept q o w (State.sewEvent s e) := by
  unfold State.sewEvent
  dsimp only
  repeat' first | (with_reducible first | assumption | apply State.armCheck_kept | apply State.swap_kept | apply State.notice_kept | apply kept_ite | apply kept_fst_ite | apply kept_snd_ite | simp only [kept_mk_iff]) | split

theorem State.twinRecopy_kept (s : State) (h : Kept q o w s) :
    Kept q o w (State.twinRecopy s) := by
  unfold State.twinRecopy
  dsimp only
  repeat' first | (with_reducible first | assumption | apply State.setFld_kept | apply kept_ite | apply kept_fst_ite | simp only [kept_mk_iff]) | split

theorem State.handoverEvent_kept (s : State) (e : Event) (h : Kept q o w s) :
    Kept q o w (State.handoverEvent s e) := by
  unfold State.handoverEvent
  dsimp only
  repeat' first | (with_reducible first | assumption | apply State.notice_kept | apply State.setSys_kept | apply State.twinRecopy_kept | apply State.linesSync_kept | apply kept_ite | apply kept_fst_ite | simp only [kept_mk_iff]) | split

theorem State.actEvent_kept (s : State) (e : Event) (h : Kept q o w s) :
    Kept q o w (State.actEvent s e) := by
  unfold State.actEvent
  dsimp only
  repeat' first | (with_reducible first | assumption | apply State.handoverEvent_kept | apply State.modeEvent_kept | apply State.sewEvent_kept | apply State.stopObj_kept | apply State.startObj_kept | apply State.messageEvent_kept | apply State.notice_kept | apply State.lineEnableMask_kept | apply kept_ite | apply kept_fst_ite | apply kept_snd_ite | apply kept_foldl | apply kept_fst_foldl | simp only [kept_mk_iff]) | split | intro _ _ _ | intro _ _

theorem State.fireEvent_kept (s : State) (e : Event) (h : Kept q o w s) :
    Kept q o w (State.fireEvent s e) := by
  unfold State.fireEvent
  dsimp only
  repeat' first | (with_reducible first | assumption | apply State.dropEvent_kept | apply State.notice_kept | apply State.unprepare_kept | apply State.actEvent_kept | apply kept_ite | apply kept_fst_ite | simp only [kept_mk_iff]) | split

theorem State.fireDue_kept (s : State) (n : Nat) (h : Kept q o w s) : Kept q o w (State.fireDue s n) := by
  induction n generalizing s with
  | zero => exact h
  | succ n ih =>
    unfold State.fireDue
    split
    · exact ih _ (State.fireEvent_kept _ _ h)
    · exact h

theorem execEventFire_kept (s : State) (h : Kept q o w s) :
    KeptRes q o w (execEventFire s) := by
  unfold execEventFire
  repeat' first | (with_reducible first | assumption | apply State.fireDue_kept | apply kept_next | apply kept_res_ite | apply kept_ite | apply kept_fst_ite | simp only [kept_mk_iff]) | dsimp only

theorem State.setTstate_kept (s : State) (t : Nat) (h : Kept q o w s) :
    Kept q o w (State.setTstate s t) := by
  unfold State.setTstate
  repeat' first | (with_reducible first | assumption | apply State.setFld_kept | apply kept_ite | apply kept_fst_ite | simp only [kept_mk_iff]) | dsimp only

theorem execLanesDetected_kept (s : State) (h : Kept q o w s) :
    KeptRes q o w (execLanesDetected s) := by
  unfold execLanesDetected
  repeat' first | (with_reducible first | assumption | apply State.setTstate_kept | apply kept_next | apply kept_res_ite | apply kept_ite | apply kept_fst_ite | simp only [kept_mk_iff]) | split | dsimp only

theorem execLinkTrained_kept (lanes : BitVec 2) (partner : Bool) (s : State) (h : Kept q o w s) :
    KeptRes q o w (execLinkTrained lanes partner s) := by
  unfold execLinkTrained
  dsimp only
  repeat' first | (with_reducible first | assumption | apply State.setFld_kept | apply State.setTstate_kept | apply kept_next | apply kept_res_ite | apply kept_ite | apply kept_fst_ite | simp only [kept_mk_iff]) | split

theorem execLinkTrainTimeout_kept (samples : Nat) (s : State) (h : Kept q o w s) :
    KeptRes q o w (execLinkTrainTimeout samples s) := by
  unfold execLinkTrainTimeout
  repeat' first | (with_reducible first | assumption | apply State.setTstate_kept | apply kept_next | apply kept_res_ite | apply kept_ite | apply kept_fst_ite | simp only [kept_mk_iff]) | split | dsimp only

theorem execLinkRetry_kept (samples : Nat) (s : State) (h : Kept q o w s) :
    KeptRes q o w (execLinkRetry samples s) := by
  unfold execLinkRetry
  repeat' first | (with_reducible first | assumption | apply State.setTstate_kept | apply kept_next | apply kept_res_ite | apply kept_ite | apply kept_fst_ite | simp only [kept_mk_iff]) | split | dsimp only

theorem execClockLock_kept (s : State) (h : Kept q o w s) :
    KeptRes q o w (execClockLock s) := by
  unfold execClockLock
  dsimp only
  repeat' first | (with_reducible first | assumption | apply kept_next | apply kept_res_ite | apply kept_ite | apply kept_fst_ite | simp only [kept_mk_iff]) | split

theorem State.mscTransfer_kept (s : State) (msc : Nat) (tb : Nat) (h : Kept q o w s) :
    Kept q o w (State.mscTransfer s msc tb) := by
  unfold State.mscTransfer
  dsimp only
  repeat' first | (with_reducible first | assumption | apply State.setFld_kept | apply State.setTstate_kept | apply State.raise_kept | apply State.flag_kept | apply kept_ite | apply kept_fst_ite | simp only [kept_mk_iff]) | split

theorem execMscTransfer_kept (msc : Sys2Proof.DWord) (tb : Fin 8) (accepted : Bool) (s : State) (h : Kept q o w s) :
    KeptRes q o w (execMscTransfer msc tb accepted s) := by
  unfold execMscTransfer
  repeat' first | (with_reducible first | assumption | apply State.mscTransfer_kept | apply State.setTstate_kept | apply kept_next | apply kept_res_ite | apply kept_ite | apply kept_fst_ite | simp only [kept_mk_iff]) | split | dsimp only

theorem execCopyComplete_kept (s : State) (h : Kept q o w s) :
    KeptRes q o w (execCopyComplete s) := by
  unfold execCopyComplete
  repeat' first | (with_reducible first | assumption | apply State.setTstate_kept | apply kept_next | apply kept_res_ite | apply kept_ite | apply kept_fst_ite | simp only [kept_mk_iff]) | split | dsimp only

theorem State.enterPaired_kept (s : State) (h : Kept q o w s) :
    Kept q o w (State.enterPaired s) := by
  unfold State.enterPaired
  dsimp only
  repeat' first | (with_reducible first | assumption | apply State.setTstate_kept | apply State.wrN_kept | apply kept_ite | apply kept_fst_ite | simp only [kept_mk_iff]) | split

theorem execSettleEnd_kept (seconds : Nat) (s : State) (h : Kept q o w s) :
    KeptRes q o w (execSettleEnd seconds s) := by
  unfold execSettleEnd
  repeat' first | (with_reducible first | assumption | apply State.enterPaired_kept | apply kept_next | apply kept_res_ite | apply kept_ite | apply kept_fst_ite | simp only [kept_mk_iff]) | split | dsimp only

theorem State.leavePaired_kept (s : State) (h : Kept q o w s) :
    Kept q o w (State.leavePaired s) := by
  unfold State.leavePaired
  dsimp only
  repeat' first | (with_reducible first | assumption | apply kept_ite | apply kept_fst_ite | simp only [kept_mk_iff]) | split

theorem State.followPartner_kept (s : State) (t : Nat) (h : Kept q o w s) :
    Kept q o w (State.followPartner s t) := by
  unfold State.followPartner
  repeat' first | (with_reducible first | assumption | apply State.setTstate_kept | apply State.leavePaired_kept | apply kept_ite | apply kept_fst_ite | simp only [kept_mk_iff]) | split | dsimp only

theorem execHealthReport_kept (tstate : Fin 8) (checking : Bool) (healthy : Bool) (mismatches : BitVec 16) (s : State) (h : Kept q o w s) :
    KeptRes q o w (execHealthReport tstate checking healthy mismatches s) := by
  unfold execHealthReport
  dsimp only
  repeat' first | (with_reducible first | assumption | apply State.wrN_kept | apply State.followPartner_kept | apply kept_next | apply kept_res_ite | apply kept_ite | apply kept_fst_ite | simp only [kept_mk_iff]) | split

theorem execReportStale_kept (s : State) (h : Kept q o w s) :
    KeptRes q o w (execReportStale s) := by
  unfold execReportStale
  dsimp only
  repeat' first | (with_reducible first | assumption | apply State.raise_kept | apply kept_next | apply kept_res_ite | apply kept_ite | apply kept_fst_ite | simp only [kept_mk_iff]) | split

theorem execRevertRequest_kept (seconds : Nat) (s : State) (h : Kept q o w s) :
    KeptRes q o w (execRevertRequest seconds s) := by
  unfold execRevertRequest
  dsimp only
  repeat' first | (with_reducible first | assumption | apply kept_next | apply kept_res_ite | apply kept_ite | apply kept_fst_ite | simp only [kept_mk_iff]) | split

theorem execHandoverRequest_kept (s : State) (h : Kept q o w s) :
    KeptRes q o w (execHandoverRequest s) := by
  unfold execHandoverRequest
  repeat' first | (with_reducible first | assumption | apply State.arrive_kept | apply kept_next | apply kept_res_ite | apply kept_ite | apply kept_fst_ite | simp only [kept_mk_iff]) | split | dsimp only

theorem execLaneLoss_kept (lane : Fin 2) (s : State) (h : Kept q o w s) :
    KeptRes q o w (execLaneLoss lane s) := by
  unfold execLaneLoss
  dsimp only
  repeat' first | (with_reducible first | assumption | apply State.raise_kept | apply State.flag_kept | apply State.setFld_kept | apply kept_next | apply kept_res_ite | apply kept_ite | apply kept_fst_ite | simp only [kept_mk_iff]) | split

theorem State.takeUpRef_kept (s : State) (raw : Int) (h : Kept q o w s) :
    Kept q o w (State.takeUpRef s raw) := by
  unfold State.takeUpRef
  repeat' first | (with_reducible first | assumption | apply State.zeroError_kept | apply kept_ite | apply kept_fst_ite | simp only [kept_mk_iff]) | split | dsimp only

theorem State.linkLost_kept (s : State) (raw : Int) (h : Kept q o w s) :
    Kept q o w (State.linkLost s raw) := by
  unfold State.linkLost
  dsimp only
  repeat' first | (with_reducible first | assumption | apply State.takeUpRef_kept | apply State.setFld_kept | apply State.setTstate_kept | apply State.leavePaired_kept | apply State.raise_kept | apply State.flag_kept | apply kept_ite | apply kept_fst_ite | simp only [kept_mk_iff]) | split

theorem execBothLanesLost_kept (raw : Int) (s : State) (h : Kept q o w s) :
    KeptRes q o w (execBothLanesLost raw s) := by
  unfold execBothLanesLost
  repeat' first | (with_reducible first | assumption | apply State.linkLost_kept | apply kept_next | apply kept_res_ite | apply kept_ite | apply kept_fst_ite | simp only [kept_mk_iff]) | dsimp only

theorem State.twinIgnored_kept (s : State) (h : Kept q o w s) :
    Kept q o w (State.twinIgnored s) := by
  unfold State.twinIgnored
  repeat' first | (with_reducible first | assumption | apply State.flag_kept | apply kept_ite | apply kept_fst_ite | simp only [kept_mk_iff]) | dsimp only

theorem State.twinResync_kept (s : State) (h : Kept q o w s) :
    Kept q o w (State.twinResync s) := by
  unfold State.twinResync
  repeat' first | (with_reducible first | assumption | apply State.setTstate_kept | apply State.leavePaired_kept | apply State.twinIgnored_kept | apply kept_ite | apply kept_fst_ite | simp only [kept_mk_iff]) | split | dsimp only

theorem State.twinRelease_kept (s : State) (h : Kept q o w s) :
    Kept q o w (State.twinRelease s) := by
  unfold State.twinRelease
  repeat' first | (with_reducible first | assumption | apply State.startRelease_kept | apply State.twinIgnored_kept | apply kept_ite | apply kept_fst_ite | simp only [kept_mk_iff]) | split | dsimp only

theorem State.selftestRuns_kept (s : State) (h : Kept q o w s) :
    Kept q o w (State.selftestRuns s) := by
  unfold State.selftestRuns
  dsimp only
  repeat' first | (with_reducible first | assumption | apply State.setCore_kept | apply State.setTstate_kept | apply State.ccuChange_kept | apply State.bump_kept | apply kept_ite | apply kept_fst_ite | apply kept_foldl | apply kept_fst_foldl | simp only [kept_mk_iff]) | intro _ _ _ | intro _ _

theorem State.twinSelftest_kept (s : State) (h : Kept q o w s) :
    Kept q o w (State.twinSelftest s) := by
  unfold State.twinSelftest
  repeat' first | (with_reducible first | assumption | apply State.selftestRuns_kept | apply State.leavePaired_kept | apply State.twinIgnored_kept | apply kept_ite | apply kept_fst_ite | simp only [kept_mk_iff]) | split | dsimp only

theorem execTwinCmdResync_kept (s : State) (h : Kept q o w s) :
    KeptRes q o w (execTwinCmdResync s) := by
  unfold execTwinCmdResync
  repeat' first | (with_reducible first | assumption | apply State.twinResync_kept | apply kept_next | apply kept_res_ite | apply kept_ite | apply kept_fst_ite | simp only [kept_mk_iff]) | dsimp only

theorem execTwinCmdRelease_kept (s : State) (h : Kept q o w s) :
    KeptRes q o w (execTwinCmdRelease s) := by
  unfold execTwinCmdRelease
  repeat' first | (with_reducible first | assumption | apply State.twinRelease_kept | apply kept_next | apply kept_res_ite | apply kept_ite | apply kept_fst_ite | simp only [kept_mk_iff]) | dsimp only

theorem execTwinCmdSelftest_kept (s : State) (h : Kept q o w s) :
    KeptRes q o w (execTwinCmdSelftest s) := by
  unfold execTwinCmdSelftest
  repeat' first | (with_reducible first | assumption | apply State.twinSelftest_kept | apply kept_next | apply kept_res_ite | apply kept_ite | apply kept_fst_ite | simp only [kept_mk_iff]) | dsimp only

theorem State.twinCmd_kept (s : State) (v : Nat) (h : Kept q o w s) :
    Kept q o w (State.twinCmd s v) := by
  unfold State.twinCmd
  repeat' first | (with_reducible first | assumption | apply State.twinResync_kept | apply State.twinRelease_kept | apply State.twinSelftest_kept | apply kept_ite | apply kept_fst_ite | simp only [kept_mk_iff]) | split | dsimp only

theorem execSelftestEnd_kept (pass : Bool) (s : State) (h : Kept q o w s) :
    KeptRes q o w (execSelftestEnd pass s) := by
  unfold execSelftestEnd
  dsimp only
  repeat' first | (with_reducible first | assumption | apply State.setTstate_kept | apply kept_next | apply kept_res_ite | apply kept_ite | apply kept_fst_ite | simp only [kept_mk_iff]) | split

theorem execDutyInDeassert_kept (s : State) (h : Kept q o w s) :
    KeptRes q o w (execDutyInDeassert s) := by
  unfold execDutyInDeassert
  dsimp only
  repeat' first | (with_reducible first | assumption | apply State.linesSync_kept | apply kept_next | apply kept_res_ite | apply kept_ite | apply kept_fst_ite | simp only [kept_mk_iff]) | split

theorem State.dualDuty_kept (s : State) (h : Kept q o w s) :
    Kept q o w (State.dualDuty s) := by
  unfold State.dualDuty
  dsimp only
  repeat' first | (with_reducible first | assumption | apply State.setSys_kept | apply State.raise_kept | apply State.flag_kept | apply kept_ite | apply kept_fst_ite | simp only [kept_mk_iff]) | split

theorem execDutyInAssert_kept (s : State) (h : Kept q o w s) :
    KeptRes q o w (execDutyInAssert s) := by
  unfold execDutyInAssert
  dsimp only
  repeat' first | (with_reducible first | assumption | apply State.linesSync_kept | apply State.dualDuty_kept | apply kept_next | apply kept_res_ite | apply kept_ite | apply kept_fst_ite | simp only [kept_mk_iff]) | split

theorem State.takeDuty_kept (s : State) (raw : Int) (h : Kept q o w s) :
    Kept q o w (State.takeDuty s raw) := by
  unfold State.takeDuty
  dsimp only
  repeat' first | (with_reducible first | assumption | apply State.setSys_kept | apply State.count_kept | apply State.wr64_kept | apply State.flag_kept | apply State.twinRecopy_kept | apply State.takeUpRef_kept | apply State.raise_kept | apply State.linesSync_kept | apply kept_ite | apply kept_fst_ite | simp only [kept_mk_iff]) | split

theorem execTakeover_kept (raw : Int) (s : State) (h : Kept q o w s) :
    KeptRes q o w (execTakeover raw s) := by
  unfold execTakeover
  repeat' first | (with_reducible first | assumption | apply State.takeDuty_kept | apply kept_next | apply kept_res_ite | apply kept_ite | apply kept_fst_ite | simp only [kept_mk_iff]) | split | dsimp only

theorem execMediaWatchdog_kept (ns : Nat) (s : State) (h : Kept q o w s) :
    KeptRes q o w (execMediaWatchdog ns s) := by
  unfold execMediaWatchdog
  repeat' first | (with_reducible first | assumption | apply State.linesSync_kept | apply State.setSys_kept | apply kept_next | apply kept_res_ite | apply kept_ite | apply kept_fst_ite | simp only [kept_mk_iff]) | split | dsimp only

theorem execFaultWindowClose_kept (f : Fin 256) (ms : Nat) (s : State) (h : Kept q o w s) :
    KeptRes q o w (execFaultWindowClose f ms s) := by
  unfold execFaultWindowClose
  repeat' first | (with_reducible first | assumption | apply State.setFld_kept | apply kept_next | apply kept_res_ite | apply kept_ite | apply kept_fst_ite | simp only [kept_mk_iff]) | split | dsimp only

theorem execFaultQuietExit_kept (f : Fin 256) (ms : Nat) (s : State) (h : Kept q o w s) :
    KeptRes q o w (execFaultQuietExit f ms s) := by
  unfold execFaultQuietExit
  dsimp only
  repeat' first | (with_reducible first | assumption | apply State.countFld_kept | apply State.setFld_kept | apply State.pinReleased_kept | apply State.setBitAt_kept | apply kept_next | apply kept_res_ite | apply kept_ite | apply kept_fst_ite | simp only [kept_mk_iff]) | split

theorem State.recAck_kept (s : State) (h : Kept q o w s) :
    Kept q o w (State.recAck s) := by
  unfold State.recAck
  repeat' first | (with_reducible first | assumption | apply State.setBit_kept | apply kept_ite | apply kept_fst_ite | simp only [kept_mk_iff]) | dsimp only

theorem execFaultRecAck_kept (s : State) (h : Kept q o w s) :
    KeptRes q o w (execFaultRecAck s) := by
  unfold execFaultRecAck
  repeat' first | (with_reducible first | assumption | apply State.recAck_kept | apply kept_next | apply kept_res_ite | apply kept_ite | apply kept_fst_ite | simp only [kept_mk_iff]) | dsimp only

theorem State.swRaise_kept (s : State) (v : Nat) (h : Kept q o w s) :
    Kept q o w (State.swRaise s v) := by
  unfold State.swRaise
  dsimp only
  repeat' first | (with_reducible first | assumption | apply State.raise_kept | apply kept_ite | apply kept_fst_ite | apply kept_foldl | apply kept_fst_foldl | simp only [kept_mk_iff]) | intro _ _ _ | intro _ _

theorem State.parityError_kept (s : State) (f : Nat) (h : Kept q o w s) :
    Kept q o w (State.parityError s f) := by
  unfold State.parityError
  repeat' first | (with_reducible first | assumption | apply State.raise_kept | apply State.setBit_kept | apply kept_ite | apply kept_fst_ite | simp only [kept_mk_iff]) | dsimp only

theorem execFaultSwRaise_kept (v : Sys2Proof.Word) (parity : List (Fin 256)) (s : State) (h : Kept q o w s) :
    KeptRes q o w (execFaultSwRaise v parity s) := by
  unfold execFaultSwRaise
  dsimp only
  repeat' first | (with_reducible first | assumption | apply State.parityError_kept | apply State.swRaise_kept | apply kept_next | apply kept_res_ite | apply kept_ite | apply kept_fst_ite | apply kept_foldl | apply kept_fst_foldl | simp only [kept_mk_iff]) | intro _ _ _ | intro _ _

theorem execFaultnReadback_kept (high : Bool) (ms : Nat) (s : State) (h : Kept q o w s) :
    KeptRes q o w (execFaultnReadback high ms s) := by
  unfold execFaultnReadback
  dsimp only
  repeat' first | (with_reducible first | assumption | apply State.pinReleased_kept | apply State.raise_kept | apply kept_next | apply kept_res_ite | apply kept_ite | apply kept_fst_ite | simp only [kept_mk_iff]) | split

theorem execFaultnMinLowEnd_kept (ms : Nat) (s : State) (h : Kept q o w s) :
    KeptRes q o w (execFaultnMinLowEnd ms s) := by
  unfold execFaultnMinLowEnd
  dsimp only
  repeat' first | (with_reducible first | assumption | apply State.pinReleased_kept | apply kept_next | apply kept_res_ite | apply kept_ite | apply kept_fst_ite | simp only [kept_mk_iff]) | split

theorem State.dieTemp_kept (s : State) (t : Int) (h : Kept q o w s) :
    Kept q o w (State.dieTemp s t) := by
  unfold State.dieTemp
  dsimp only
  repeat' first | (with_reducible first | assumption | apply State.wrN_kept | apply State.raise_kept | apply kept_ite | apply kept_fst_ite | simp only [kept_mk_iff]) | split

theorem execDieTempReading_kept (t : BitVec 16) (s : State) (h : Kept q o w s) :
    KeptRes q o w (execDieTempReading t s) := by
  unfold execDieTempReading
  repeat' first | (with_reducible first | assumption | apply State.dieTemp_kept | apply kept_next | apply kept_res_ite | apply kept_ite | apply kept_fst_ite | simp only [kept_mk_iff]) | dsimp only

theorem State.memPut_kept (s : State) (code o' : Nat) (v : Sys2Proof.Byte) (h : Kept q o w s) :
    Kept q o w (State.memPut s code o' v) := by
  unfold State.memPut
  have key (m : Mem) (hm : m.otp = s.mem.otp) (hw : s.mem.wf = true → m.wf = true) : Kept q o w { s with mem := m } :=
    ⟨h.1, hm.symm ▸ h.2.1, fun g => hw (h.2.2 g)⟩
  refine kept_ite (key _ rfl fun g => ?_) (kept_ite (key _ rfl fun g => ?_) (kept_ite (key _ rfl fun g => ?_)
    (kept_ite (key _ rfl fun g => Mem.wf_dramPut _ _ _ g) h)))
  all_goals rw [Mem.wf_iff] at g ⊢
  · exact ⟨g.1, Sparse.wf_set _ _ _ _ g.2.1, g.2.2⟩
  · exact ⟨g.1, g.2.1, Sparse.wf_set _ _ _ _ g.2.2.1, g.2.2.2⟩
  · exact ⟨Sparse.wf_set _ _ _ _ g.1, g.2⟩

theorem State.unpoison_kept (s : State) (code o' n : Nat) (h : Kept q o w s) : Kept q o w (State.unpoison s code o' n) := h

theorem State.memUe_kept (s : State) (code : Nat) (o' : Nat) (m : Master) (h : Kept q o w s) :
    Kept q o w (State.memUe s code o' m) := by
  unfold State.memUe
  repeat' first | (with_reducible first | assumption | apply State.dramUe_kept | apply State.eccResult_kept | apply kept_ite | apply kept_fst_ite | simp only [kept_mk_iff]) | split | dsimp only

theorem State.memRead_kept (s : State) (code : Nat) (o' : Nat) (m : Master) (h : Kept q o w s) :
    Kept q o w (State.memRead s code o' m).1 := by
  unfold State.memRead
  repeat' first | (with_reducible first | assumption | apply State.bump_kept | apply State.memUe_kept | apply kept_ite | apply kept_fst_ite | simp only [kept_mk_iff]) | split | dsimp only

theorem State.memWrite_kept (s : State) (code : Nat) (o' : Nat) (v : Nat) (msk : Nat) (h : Kept q o w s) :
    Kept q o w (State.memWrite s code o' v msk) := by
  unfold State.memWrite
  repeat' first | (with_reducible first | assumption | apply State.memPut_kept | apply kept_ite | apply kept_fst_ite | apply kept_foldl | apply kept_fst_foldl | simp only [kept_mk_iff]) | split | intro _ _ _ | intro _ _ | dsimp only

theorem State.unmapped_kept (s : State) (h : Kept q o w s) :
    Kept q o w (State.unmapped s) := by
  unfold State.unmapped
  repeat' first | (with_reducible first | assumption | apply State.raise_kept | apply kept_ite | apply kept_fst_ite | simp only [kept_mk_iff]) | dsimp only

theorem State.violate_kept (s : State) (addr : Nat) (m : Master) (kind : Nat) (h : Kept q o w s) :
    Kept q o w (State.violate s addr m kind) := by
  unfold State.violate
  dsimp only
  repeat' first | (with_reducible first | assumption | apply State.wrN_kept | apply State.raise_kept | apply State.flag_kept | apply State.count_kept | apply kept_ite | apply kept_fst_ite | simp only [kept_mk_iff])

theorem State.disableFold_kept (s : State) (f : Nat) (h : Kept q o w s) :
    Kept q o w (State.disableFold s f) := by
  unfold State.disableFold
  dsimp only
  repeat' first | (with_reducible first | assumption | apply State.setBit_kept | apply State.setFold_kept | apply State.syncFold_kept | apply State.closeFold_kept | apply kept_ite | apply kept_fst_ite | simp only [kept_mk_iff])

theorem State.enableFold_kept (s : State) (f : Nat) (h : Kept q o w s) :
    Kept q o w (State.enableFold s f) := by
  unfold State.enableFold
  dsimp only
  repeat' first | (with_reducible first | assumption | apply State.setBit_kept | apply State.setFold_kept | apply kept_ite | apply kept_fst_ite | simp only [kept_mk_iff])

theorem State.foldCfgWrite_kept (s : State) (f : Nat) (w' : FoldWord) (v : Nat) (msk : Nat) (m : Master) (addr : Nat) (h : Kept q o w s) :
    Kept q o w (State.foldCfgWrite s f w' v msk m addr) := by
  unfold State.foldCfgWrite
  dsimp only
  repeat' first | (with_reducible first | assumption | apply State.violate_kept | apply State.flag_kept | apply State.disableFold_kept | apply State.wrN_kept | apply State.enableFold_kept | apply State.ccuConfigChange_kept | apply kept_ite | apply kept_fst_ite | simp only [kept_mk_iff]) | split

theorem State.foldRateWrite_kept (s : State) (f : Nat) (v : Nat) (h : Kept q o w s) :
    Kept q o w (State.foldRateWrite s f v) := by
  unfold State.foldRateWrite
  dsimp only
  repeat' first | (with_reducible first | assumption | apply State.setFold_kept | apply State.ccuConfigChange_kept | apply State.wrN_kept | apply kept_ite | apply kept_fst_ite | simp only [kept_mk_iff])

theorem State.startCheck_kept (s : State) (cls : Nat) (h' : Option Hdr) (ask : Option SewAsk) (h : Kept q o w s) :
    Kept q o w (State.startCheck s cls h' ask) := by
  unfold State.startCheck
  dsimp only
  repeat' first | (with_reducible first | assumption | apply State.setBstate_kept | apply kept_ite | apply kept_fst_ite | simp only [kept_mk_iff])

theorem State.basteUe_kept (s : State) (master : Nat) (found : List QWord) (h : Kept q o w s) :
    Kept q o w (State.basteUe s master found) := by
  unfold State.basteUe
  dsimp only
  repeat' first | (with_reducible first | assumption | apply State.quiltEcc_kept | apply State.raise_kept | apply kept_ite | apply kept_fst_ite | apply kept_foldl | apply kept_fst_foldl | simp only [kept_mk_iff]) | split | intro _ _ _ | intro _ _

theorem sewArrived_kept (grouped : Bool) (r : State × Arrival) (h : Kept q o w r.1) :
    Kept q o w (sewArrived grouped r).1 := by
  unfold sewArrived; split
  · exact State.wr64_kept _ _ _ _ (State.setBit_kept _ _ _ _ (State.setBstate_kept _ _ (kept_mk_iff.2 h)))
  · exact h

theorem State.enterSew_kept (s : State) (a : SewAsk) (h : Kept q o w s) :
    Kept q o w (State.enterSew s a).1 := by
  unfold State.enterSew
  dsimp only
  repeat' first | (with_reducible first | assumption | apply State.seamBusy_kept | apply sewArrived_kept | apply State.arrive_kept | apply kept_ite | apply kept_fst_ite | simp only [kept_mk_iff]) | split

theorem State.checkDone_kept (s : State) (found : List QWord) (h : Kept q o w s) :
    Kept q o w (State.checkDone s found) := by
  unfold State.checkDone
  dsimp only
  repeat' first | (with_reducible first | assumption | apply State.basteUe_kept | apply State.liveUes_kept | apply State.noteCheck_kept | apply State.setFld_kept | apply State.wrN_kept | apply State.setBstate_kept | apply State.enterSew_kept | apply State.answer_kept | apply kept_ite | apply kept_fst_ite | apply kept_snd_ite | simp only [kept_mk_iff]) | split

theorem execCheckDone_kept (found : List QWord) (s : State) (h : Kept q o w s) :
    KeptRes q o w (execCheckDone found s) := by
  unfold execCheckDone
  repeat' first | (with_reducible first | assumption | apply State.checkDone_kept | apply kept_next | apply kept_res_ite | apply kept_ite | apply kept_fst_ite | simp only [kept_mk_iff]) | dsimp only

theorem State.armSew_kept (s : State) (h : Kept q o w s) :
    Kept q o w (State.armSew s) := by
  unfold State.armSew
  dsimp only
  repeat' first | (with_reducible first | assumption | apply State.setBstate_kept | apply kept_ite | apply kept_fst_ite | simp only [kept_mk_iff]) | split

theorem execSewArmCheckDone_kept (s : State) (h : Kept q o w s) :
    KeptRes q o w (execSewArmCheckDone s) := by
  unfold execSewArmCheckDone
  repeat' first | (with_reducible first | assumption | apply State.armCheck_kept | apply kept_next | apply kept_res_ite | apply kept_ite | apply kept_fst_ite | simp only [kept_mk_iff]) | split | dsimp only

theorem State.basteReturned_kept (s : State) (h : Kept q o w s) :
    Kept q o w (State.basteReturned s) := by
  unfold State.basteReturned
  dsimp only
  repeat' first | (with_reducible first | assumption | apply State.setBstate_kept | apply State.flag_kept | apply State.notice_kept | apply kept_ite | apply kept_fst_ite | simp only [kept_mk_iff]) | split

theorem State.unravelOver_kept (s : State) (h : Kept q o w s) :
    Kept q o w (State.unravelOver s) := by
  unfold State.unravelOver
  dsimp only
  repeat' first | (with_reducible first | assumption | apply State.basteReturned_kept | apply State.setBstate_kept | apply kept_ite | apply kept_fst_ite | simp only [kept_mk_iff]) | split

theorem execUnravelEnd_kept (s : State) (h : Kept q o w s) :
    KeptRes q o w (execUnravelEnd s) := by
  unfold execUnravelEnd
  repeat' first | (with_reducible first | assumption | apply State.unravelOver_kept | apply kept_next | apply kept_res_ite | apply kept_ite | apply kept_fst_ite | simp only [kept_mk_iff]) | split | dsimp only

theorem execRebasteDone_kept (found : List QWord) (s : State) (h : Kept q o w s) :
    KeptRes q o w (execRebasteDone found s) := by
  unfold execRebasteDone
  dsimp only
  repeat' first | (with_reducible first | assumption | apply State.rebasteCopy_kept | apply State.basteReturned_kept | apply kept_next | apply kept_res_ite | apply kept_ite | apply kept_fst_ite | simp only [kept_mk_iff]) | split

theorem State.forceUnravel_kept (s : State) (h : Kept q o w s) :
    Kept q o w (State.forceUnravel s) := by
  unfold State.forceUnravel
  dsimp only
  repeat' first | (with_reducible first | assumption | apply State.unravelOver_kept | apply State.raise_kept | apply State.flag_kept | apply kept_ite | apply kept_fst_ite | simp only [kept_mk_iff])

theorem State.discard_kept (s : State) (force : Bool) (h : Kept q o w s) :
    Kept q o w (State.discard s force).1 := by
  unfold State.discard
  dsimp only
  repeat' first | (with_reducible first | assumption | apply State.setBstate_kept | apply State.cancelEvent_kept | apply State.forceUnravel_kept | apply State.seamBusy_kept | apply kept_ite | apply kept_fst_ite | simp only [kept_mk_iff]) | split

theorem execSeamCmdCheck_kept (cls : Fin 4) (s : State) (h : Kept q o w s) :
    KeptRes q o w (execSeamCmdCheck cls s) := by
  unfold execSeamCmdCheck
  repeat' first | (with_reducible first | assumption | apply State.startCheck_kept | apply State.seamBusy_kept | apply kept_next | apply kept_res_ite | apply kept_ite | apply kept_fst_ite | simp only [kept_mk_iff]) | split | dsimp only

theorem execSeamCmdDiscard_kept (x1 : Fin 4) (s : State) (h : Kept q o w s) :
    KeptRes q o w (execSeamCmdDiscard x1 s) := by
  unfold execSeamCmdDiscard
  repeat' first | (with_reducible first | assumption | apply State.discard_kept | apply kept_next | apply kept_res_ite | apply kept_ite | apply kept_fst_ite | simp only [kept_mk_iff]) | dsimp only

theorem execSeamCmdForce_kept (cls : Fin 4) (s : State) (h : Kept q o w s) :
    KeptRes q o w (execSeamCmdForce cls s) := by
  unfold execSeamCmdForce
  repeat' first | (with_reducible first | assumption | apply State.discard_kept | apply kept_next | apply kept_res_ite | apply kept_ite | apply kept_fst_ite | simp only [kept_mk_iff]) | dsimp only

end Sys2Proof.Machine
end

