-- ==== Sys2Proof/Laws/KeptNeedle.lean ====
section
/-! SUPPORT. What every function of the needle cores keeps: the queue, the fuses (`Otp.Same`) and the canonical memory (`Kept`), one lemma a function. -/

set_option maxRecDepth 4000
set_option linter.unusedSimpArgs false

namespace Sys2Proof.Machine

variable {q : List Sys2Proof.Instr} {o : Otp} {w : Bool}

theorem State.spErr_kept (s : State) (c : Nat) (j : Nat) (h : Kept q o w s) :
    Kept q o w (State.spErr s c j) := by
  unfold State.spErr
  dsimp only
  repeat' first | (with_reducible first | assumption | apply State.raise_kept | apply State.flag_kept | apply State.setCore_kept | apply kept_ite | apply kept_fst_ite | simp only [kept_mk_iff])

theorem State.spGo_kept (s : State) (c : Nat) (j : Nat) (h : Kept q o w s) :
    Kept q o w (State.spGo s c j) := by
  unfold State.spGo
  dsimp only
  repeat' first | (with_reducible first | assumption | apply State.setCore_kept | apply State.spErr_kept | apply kept_ite | apply kept_fst_ite | simp only [kept_mk_iff]) | split

theorem State.spSwap_kept (s : State) (c : Nat) (j : Nat) (h : Kept q o w s) :
    Kept q o w (State.spSwap s c j) := by
  unfold State.spSwap
  dsimp only
  repeat' first | (with_reducible first | assumption | apply State.setCore_kept | apply kept_ite | apply kept_fst_ite | simp only [kept_mk_iff]) | split

theorem State.nxDone_kept (s : State) (c : Nat) (v : Nat) (cyc : Nat) (h : Kept q o w s) :
    Kept q o w (State.nxDone s c v cyc) := by
  unfold State.nxDone
  dsimp only
  repeat' first | (with_reducible first | assumption | apply State.count_kept | apply State.setFld_kept | apply State.setCore_kept | apply kept_ite | apply kept_fst_ite | simp only [kept_mk_iff]) | split

theorem State.nxStore_kept (s : State) (c : Nat) (a : Nat) (v : Nat) (cyc : Nat) (h : Kept q o w s) :
    Kept q o w (State.nxStore s c a v cyc) := by
  unfold State.nxStore
  dsimp only
  repeat' first | (with_reducible first | assumption | apply State.nxDone_kept | apply State.setCore_kept | apply State.wrN_kept | apply State.spSwap_kept | apply State.spGo_kept | apply kept_ite | apply kept_fst_ite | simp only [kept_mk_iff]) | split

theorem State.cycles_kept (s : State) (c n : Nat) (h : Kept q o w s) : Kept q o w (State.cycles s c n) := by
  induction n generalizing s with
  | zero => exact h
  | succ n ih =>
    unfold State.cycles
    refine ih _ (kept_foldl (fun t e ht => ?_) (State.setCore_kept _ _ _ h))
    split
    · exact State.nxStore_kept _ _ _ _ _ ht
    · exact ht

theorem State.stall_kept (s : State) (c : Nat) (n : Nat) (h : Kept q o w s) :
    Kept q o w (State.stall s c n) := by
  unfold State.stall
  dsimp only
  repeat' first | (with_reducible first | assumption | apply State.cycles_kept | apply State.setCore_kept | apply kept_ite | apply kept_fst_ite | simp only [kept_mk_iff])

theorem State.trapCore_kept (s : State) (c : Nat) (cause : Nat) (h : Kept q o w s) :
    Kept q o w (State.trapCore s c cause) := by
  unfold State.trapCore
  dsimp only
  repeat' first | (with_reducible first | assumption | apply State.setCore_kept | apply State.setBitAt_kept | apply State.raise_kept | apply kept_ite | apply kept_fst_ite | simp only [kept_mk_iff]) | split

theorem State.eccTrap_kept (s : State) (c : Nat) (addr : Sys2Proof.Word) (h : Kept q o w s) :
    Kept q o w (State.eccTrap s c addr) := by
  unfold State.eccTrap
  repeat' first | (with_reducible first | assumption | apply State.trapCore_kept | apply State.eccResult_kept | apply kept_ite | apply kept_fst_ite | simp only [kept_mk_iff]) | dsimp only

theorem State.issue_kept (s : State) (c : Nat) (e : Ecc) (f : NI → Core → Option NRes) (h : Kept q o w s) :
    Kept q o w (State.issue s c e f) := by
  unfold State.issue
  dsimp only
  repeat' first | (with_reducible first | assumption | apply State.eccTrap_kept | apply State.flag_kept | apply State.eccResult_kept | apply State.trapCore_kept | apply State.cycles_kept | apply State.setCore_kept | apply kept_ite | apply kept_fst_ite | simp only [kept_mk_iff]) | split

theorem execAlNeedleNop_kept (c : Fin 64) (e : Ecc) (s : State) (h : Kept q o w s) :
    KeptRes q o w (execAlNeedleNop c e s) := by
  unfold execAlNeedleNop
  repeat' first | (with_reducible first | assumption | apply State.issue_kept | apply kept_next | apply kept_res_ite | apply kept_ite | apply kept_fst_ite | simp only [kept_mk_iff]) | split | dsimp only

theorem execAlWait_kept (c : Fin 64) (e : Ecc) (s : State) (h : Kept q o w s) :
    KeptRes q o w (execAlWait c e s) := by
  unfold execAlWait
  repeat' first | (with_reducible first | assumption | apply State.issue_kept | apply kept_next | apply kept_res_ite | apply kept_ite | apply kept_fst_ite | simp only [kept_mk_iff]) | split | dsimp only

theorem execAlWaits_kept (c : Fin 64) (e : Ecc) (s : State) (h : Kept q o w s) :
    KeptRes q o w (execAlWaits c e s) := by
  unfold execAlWaits
  repeat' first | (with_reducible first | assumption | apply State.issue_kept | apply kept_next | apply kept_res_ite | apply kept_ite | apply kept_fst_ite | simp only [kept_mk_iff]) | split | dsimp only

theorem execAlHalt_kept (c : Fin 64) (e : Ecc) (s : State) (h : Kept q o w s) :
    KeptRes q o w (execAlHalt c e s) := by
  unfold execAlHalt
  repeat' first | (with_reducible first | assumption | apply State.issue_kept | apply kept_next | apply kept_res_ite | apply kept_ite | apply kept_fst_ite | simp only [kept_mk_iff]) | split | dsimp only

theorem flowIssue_kept (s : State) (c : Nat) (e : Ecc) (f : NI → Core → Option (Core × NFlow)) (h : Kept q o w s) :
    Kept q o w (flowIssue s c e f) := by
  unfold flowIssue
  dsimp only
  repeat' first | (with_reducible first | assumption | apply State.issue_kept | apply State.setCore_kept | apply kept_ite | apply kept_fst_ite | apply kept_snd_ite | simp only [kept_mk_iff]) | split

theorem execAlBr_kept (c : Fin 64) (e : Ecc) (s : State) (h : Kept q o w s) :
    KeptRes q o w (execAlBr c e s) := by
  unfold execAlBr
  repeat' first | (with_reducible first | assumption | apply flowIssue_kept | apply kept_next | apply kept_res_ite | apply kept_ite | apply kept_fst_ite | simp only [kept_mk_iff]) | split | dsimp only

theorem execAlCall_kept (c : Fin 64) (e : Ecc) (s : State) (h : Kept q o w s) :
    KeptRes q o w (execAlCall c e s) := by
  unfold execAlCall
  repeat' first | (with_reducible first | assumption | apply flowIssue_kept | apply kept_next | apply kept_res_ite | apply kept_ite | apply kept_fst_ite | simp only [kept_mk_iff]) | split | dsimp only

theorem execAlJr_kept (c : Fin 64) (e : Ecc) (s : State) (h : Kept q o w s) :
    KeptRes q o w (execAlJr c e s) := by
  unfold execAlJr
  repeat' first | (with_reducible first | assumption | apply flowIssue_kept | apply kept_next | apply kept_res_ite | apply kept_ite | apply kept_fst_ite | simp only [kept_mk_iff]) | split | dsimp only

theorem execAlRet_kept (c : Fin 64) (e : Ecc) (s : State) (h : Kept q o w s) :
    KeptRes q o w (execAlRet c e s) := by
  unfold execAlRet
  repeat' first | (with_reducible first | assumption | apply flowIssue_kept | apply kept_next | apply kept_res_ite | apply kept_ite | apply kept_fst_ite | simp only [kept_mk_iff]) | split | dsimp only

theorem execAlRti_kept (c : Fin 64) (e : Ecc) (s : State) (h : Kept q o w s) :
    KeptRes q o w (execAlRti c e s) := by
  unfold execAlRti
  repeat' first | (with_reducible first | assumption | apply flowIssue_kept | apply kept_next | apply kept_res_ite | apply kept_ite | apply kept_fst_ite | simp only [kept_mk_iff]) | split | dsimp only

theorem execAlCallr_kept (c : Fin 64) (e : Ecc) (s : State) (h : Kept q o w s) :
    KeptRes q o w (execAlCallr c e s) := by
  unfold execAlCallr
  repeat' first | (with_reducible first | assumption | apply flowIssue_kept | apply kept_next | apply kept_res_ite | apply kept_ite | apply kept_fst_ite | simp only [kept_mk_iff]) | split | dsimp only

theorem execAlRepImm_kept (c : Fin 64) (e : Ecc) (s : State) (h : Kept q o w s) :
    KeptRes q o w (execAlRepImm c e s) := by
  unfold execAlRepImm
  repeat' first | (with_reducible first | assumption | apply State.issue_kept | apply kept_next | apply kept_res_ite | apply kept_ite | apply kept_fst_ite | simp only [kept_mk_iff]) | split | dsimp only

theorem execAlRepReg_kept (c : Fin 64) (e : Ecc) (s : State) (h : Kept q o w s) :
    KeptRes q o w (execAlRepReg c e s) := by
  unfold execAlRepReg
  repeat' first | (with_reducible first | assumption | apply State.issue_kept | apply kept_next | apply kept_res_ite | apply kept_ite | apply kept_fst_ite | simp only [kept_mk_iff]) | split | dsimp only

theorem execInterruptEntry_kept (c : Fin 64) (stall : Nat) (s : State) (h : Kept q o w s) :
    KeptRes q o w (execInterruptEntry c stall s) := by
  unfold execInterruptEntry
  dsimp only
  repeat' first | (with_reducible first | assumption | apply State.stall_kept | apply State.setCore_kept | apply State.setFld_kept | apply kept_next | apply kept_res_ite | apply kept_ite | apply kept_fst_ite | simp only [kept_mk_iff]) | split

theorem execWaitEnd_kept (c : Fin 64) (stall : Nat) (s : State) (h : Kept q o w s) :
    KeptRes q o w (execWaitEnd c stall s) := by
  unfold execWaitEnd
  dsimp only
  repeat' first | (with_reducible first | assumption | apply State.stall_kept | apply State.setCore_kept | apply kept_next | apply kept_res_ite | apply kept_ite | apply kept_fst_ite | simp only [kept_mk_iff]) | split

theorem execWaitsEnd_kept (c : Fin 64) (stall : Nat) (s : State) (h : Kept q o w s) :
    KeptRes q o w (execWaitsEnd c stall s) := by
  unfold execWaitsEnd
  dsimp only
  repeat' first | (with_reducible first | assumption | apply State.stall_kept | apply State.setCore_kept | apply kept_next | apply kept_res_ite | apply kept_ite | apply kept_fst_ite | simp only [kept_mk_iff]) | split

theorem State.allCores_kept (s : State) (f : State → Nat → State) (hf : ∀ s r, Kept q o w s → Kept q o w (f s r))
    (h : Kept q o w s) : Kept q o w (State.allCores s f) := by
  unfold State.allCores
  exact kept_foldl hf h

theorem State.openCore_kept (s : State) (c : Nat) (h : Kept q o w s) :
    Kept q o w (State.openCore s c) := by
  unfold State.openCore
  dsimp only
  repeat' first | (with_reducible first | assumption | apply State.setCore_kept | apply kept_ite | apply kept_fst_ite | apply kept_snd_ite | apply kept_foldl | apply kept_fst_foldl | simp only [kept_mk_iff]) | split | intro _ _ _ | intro _ _

theorem execNeedleWindowOpen_kept (s : State) (h : Kept q o w s) :
    KeptRes q o w (execNeedleWindowOpen s) := by
  unfold execNeedleWindowOpen
  dsimp only
  repeat' first | (with_reducible first | assumption | apply State.allCores_kept | apply State.openCore_kept | apply kept_next | apply kept_res_ite | apply kept_ite | apply kept_fst_ite | simp only [kept_mk_iff])

theorem State.closeCore_kept (s : State) (c : Nat) (h : Kept q o w s) :
    Kept q o w (State.closeCore s c) := by
  unfold State.closeCore
  dsimp only
  repeat' first | (with_reducible first | assumption | apply State.setCore_kept | apply State.raise_kept | apply State.setBitAt_kept | apply State.count_kept | apply kept_ite | apply kept_fst_ite | apply kept_snd_ite | simp only [kept_mk_iff]) | split

theorem execNeedleWindowClose_kept (cycles : BitVec 17) (s : State) (h : Kept q o w s) :
    KeptRes q o w (execNeedleWindowClose cycles s) := by
  unfold execNeedleWindowClose
  dsimp only
  repeat' first | (with_reducible first | assumption | apply State.setFld_kept | apply State.allCores_kept | apply State.closeCore_kept | apply kept_next | apply kept_res_ite | apply kept_ite | apply kept_fst_ite | simp only [kept_mk_iff])

theorem execNxDoneStore_kept (c : Fin 64) (v : Sys2Proof.Word) (s : State) (h : Kept q o w s) :
    KeptRes q o w (execNxDoneStore c v s) := by
  unfold execNxDoneStore
  repeat' first | (with_reducible first | assumption | apply State.nxStore_kept | apply kept_next | apply kept_res_ite | apply kept_ite | apply kept_fst_ite | simp only [kept_mk_iff]) | split | dsimp only

theorem execNxTohostStore_kept (c : Fin 64) (v : Sys2Proof.Word) (s : State) (h : Kept q o w s) :
    KeptRes q o w (execNxTohostStore c v s) := by
  unfold execNxTohostStore
  repeat' first | (with_reducible first | assumption | apply State.nxStore_kept | apply kept_next | apply kept_res_ite | apply kept_ite | apply kept_fst_ite | simp only [kept_mk_iff]) | split | dsimp only

theorem execNxDbellRead_kept (c : Fin 64) (s : State) (h : Kept q o w s) :
    KeptRes q o w (execNxDbellRead c s) := by
  unfold execNxDbellRead
  repeat' first | (with_reducible first | assumption | apply State.setCore_kept | apply kept_next | apply kept_res_ite | apply kept_ite | apply kept_fst_ite | simp only [kept_mk_iff]) | split | dsimp only

theorem execSpGo_kept (c : Fin 64) (p : Fin 2) (s : State) (h : Kept q o w s) :
    KeptRes q o w (execSpGo c p s) := by
  unfold execSpGo
  repeat' first | (with_reducible first | assumption | apply State.spGo_kept | apply kept_next | apply kept_res_ite | apply kept_ite | apply kept_fst_ite | simp only [kept_mk_iff]) | split | dsimp only

theorem execSpSwap_kept (c : Fin 64) (p : Fin 2) (s : State) (h : Kept q o w s) :
    KeptRes q o w (execSpSwap c p s) := by
  unfold execSpSwap
  repeat' first | (with_reducible first | assumption | apply State.spSwap_kept | apply kept_next | apply kept_res_ite | apply kept_ite | apply kept_fst_ite | simp only [kept_mk_iff]) | split | dsimp only

theorem State.spMove_kept (s : State) (c j : Nat) (t : SpJob) (bad : List Nat) (h : Kept q o w s) :
    Kept q o w (State.spMove s c j t bad) := by
  unfold State.spMove
  refine kept_ite (kept_mem h ?_ ?_) (State.setCore_kept _ _ _ h)
  · exact fun g => (Mem.foldl_keeps _ (fun _ _ => (Mem.dramPutWord_keeps _ _ _).1)
      (fun _ _ => (Mem.dramPutWord_keeps _ _ _).2) _ _).1.symm ▸ g
  · exact (Mem.foldl_keeps _ (fun _ _ => (Mem.dramPutWord_keeps _ _ _).1) (fun _ _ => (Mem.dramPutWord_keeps _ _ _).2) _ _).2

theorem execSpTransferDone_kept (c : Fin 64) (p : Fin 2) (bad : List (Fin 1024)) (s : State) (h : Kept q o w s) :
    KeptRes q o w (execSpTransferDone c p bad s) := by
  unfold execSpTransferDone
  dsimp only
  repeat' first | (with_reducible first | assumption | apply State.spMove_kept | apply State.setCore_kept | apply State.spErr_kept | apply State.dramUe_kept | apply kept_next | apply kept_res_ite | apply kept_ite | apply kept_fst_ite | apply kept_foldl | apply kept_fst_foldl | simp only [kept_mk_iff]) | split | intro _ _ _ | intro _ _

theorem State.needleRun_kept (s : State) (c : Nat) (h : Kept q o w s) :
    Kept q o w (State.needleRun s c) := by
  unfold State.needleRun
  dsimp only
  repeat' first | (with_reducible first | assumption | apply State.setCore_kept | apply State.flag_kept | apply kept_ite | apply kept_fst_ite | simp only [kept_mk_iff]) | split

theorem State.needleHalt_kept (s : State) (c : Nat) (h : Kept q o w s) :
    Kept q o w (State.needleHalt s c) := by
  unfold State.needleHalt
  dsimp only
  repeat' first | (with_reducible first | assumption | apply State.setCore_kept | apply kept_ite | apply kept_fst_ite | simp only [kept_mk_iff]) | split

theorem execNeedleCtrlRun_kept (c : Fin 64) (s : State) (h : Kept q o w s) :
    KeptRes q o w (execNeedleCtrlRun c s) := by
  unfold execNeedleCtrlRun
  repeat' first | (with_reducible first | assumption | apply State.needleRun_kept | apply kept_next | apply kept_res_ite | apply kept_ite | apply kept_fst_ite | simp only [kept_mk_iff]) | dsimp only

theorem execNeedleCtrlHalt_kept (c : Fin 64) (s : State) (h : Kept q o w s) :
    KeptRes q o w (execNeedleCtrlHalt c s) := by
  unfold execNeedleCtrlHalt
  repeat' first | (with_reducible first | assumption | apply State.needleHalt_kept | apply kept_next | apply kept_res_ite | apply kept_ite | apply kept_fst_ite | simp only [kept_mk_iff]) | dsimp only

theorem State.needleWrite_kept (s : State) (c : Nat) (space : Nat) (addr : Nat) (v : Sys2Proof.Word) (h : Kept q o w s) :
    Kept q o w (State.needleWrite s c space addr v) := by
  unfold State.needleWrite
  dsimp only
  repeat' first | (with_reducible first | assumption | apply State.setCore_kept | apply State.ccuChange_kept | apply State.flag_kept | apply State.raise_kept | apply kept_ite | apply kept_fst_ite | simp only [kept_mk_iff]) | split

theorem State.memAddrStep_kept (s : State) (c : Nat) (h : Kept q o w s) :
    Kept q o w (State.memAddrStep s c) := by
  unfold State.memAddrStep
  dsimp only
  repeat' first | (with_reducible first | assumption | apply State.setFld_kept | apply kept_ite | apply kept_fst_ite | simp only [kept_mk_iff]) | split

theorem State.memDataWrite_kept (s : State) (c : Nat) (v : Sys2Proof.Word) (h : Kept q o w s) :
    Kept q o w (State.memDataWrite s c v) := by
  unfold State.memDataWrite
  dsimp only
  repeat' first | (with_reducible first | assumption | apply State.memAddrStep_kept | apply State.needleWrite_kept | apply kept_ite | apply kept_fst_ite | simp only [kept_mk_iff])

theorem State.needleRead_kept (s : State) (c : Nat) (space : Nat) (addr : Nat) (m : Master) (e : Ecc) (h : Kept q o w s) :
    Kept q o w (State.needleRead s c space addr m e).1 := by
  unfold State.needleRead
  dsimp only
  repeat' first | (with_reducible first | assumption | apply State.stall_kept | apply State.bump_kept | apply State.eccResult_kept | apply State.flag_kept | apply kept_ite | apply kept_fst_ite | simp only [kept_mk_iff]) | split

theorem State.memDataRead_kept (s : State) (c : Nat) (m : Master) (e : Ecc) (h : Kept q o w s) :
    Kept q o w (State.memDataRead s c m e).1 := by
  unfold State.memDataRead
  dsimp only
  repeat' first | (with_reducible first | assumption | apply State.needleRead_kept | apply State.memAddrStep_kept | apply kept_ite | apply kept_fst_ite | apply kept_snd_ite | simp only [kept_mk_iff])

theorem execNeedleMemWrite_kept (c : Fin 64) (v : Sys2Proof.Word) (s : State) (h : Kept q o w s) :
    KeptRes q o w (execNeedleMemWrite c v s) := by
  unfold execNeedleMemWrite
  repeat' first | (with_reducible first | assumption | apply State.memDataWrite_kept | apply kept_next | apply kept_res_ite | apply kept_ite | apply kept_fst_ite | simp only [kept_mk_iff]) | dsimp only

theorem execNeedleMemRead_kept (c : Fin 64) (m : Master) (e : Ecc) (s : State) (h : Kept q o w s) :
    KeptRes q o w (execNeedleMemRead c m e s) := kept_next (kept_mk_iff.2 (State.memDataRead_kept s c m e h))

theorem State.doorbell_kept (s : State) (c : Nat) (v : Sys2Proof.Word) (h : Kept q o w s) :
    Kept q o w (State.doorbell s c v) := by
  unfold State.doorbell
  dsimp only
  repeat' first | (with_reducible first | assumption | apply State.setCore_kept | apply kept_ite | apply kept_fst_ite | simp only [kept_mk_iff]) | split

theorem execNeedleDoorbellWrite_kept (c : Fin 64) (v : Sys2Proof.Word) (s : State) (h : Kept q o w s) :
    KeptRes q o w (execNeedleDoorbellWrite c v s) := by
  unfold execNeedleDoorbellWrite
  repeat' first | (with_reducible first | assumption | apply State.doorbell_kept | apply kept_next | apply kept_res_ite | apply kept_ite | apply kept_fst_ite | simp only [kept_mk_iff]) | dsimp only

theorem execNeedleTohostRead_kept (c : Fin 64) (s : State) (h : Kept q o w s) : KeptRes q o w (execNeedleTohostRead c s) :=
  kept_next (kept_mk_iff.2 (State.wrN_kept _ _ _ h))

end Sys2Proof.Machine
end

