-- ==== Sys2Proof/Laws/KeptBus.lean ====
section
/-! SUPPORT. What every function of the bus, the drover and the scrubber keeps: the queue, the fuses (`Otp.Same`) and the canonical memory (`Kept`), one lemma a function. -/

set_option maxRecDepth 4000
set_option linter.unusedSimpArgs false

namespace Sys2Proof.Machine

variable {q : List Sys2Proof.Instr} {o : Otp} {w : Bool}

theorem State.freshReq_kept (s : State) (h : Kept q o w s) :
    Kept q o w (State.freshReq s) := by
  unfold State.freshReq
  dsimp only
  repeat' first | (with_reducible first | assumption | apply State.setBit_kept | apply kept_ite | apply kept_fst_ite | simp only [kept_mk_iff])

theorem State.bootConfirm_kept (s : State) (h : Kept q o w s) : Kept q o w (State.bootConfirm s) := by
  unfold State.bootConfirm
  exact kept_mem h (fun g => { g with rollback := Nat.le_trans g.rollback (Nat.le_max_left _ _) }) id

theorem State.ccuCommit_kept (s : State) (v : Nat) (h : Kept q o w s) :
    Kept q o w (State.ccuCommit s v) := by
  unfold State.ccuCommit
  repeat' first | (with_reducible first | assumption | apply State.commitRegions_kept | apply State.commitExplicit_kept | apply State.commitMeasured_kept | apply kept_ite | apply kept_fst_ite | simp only [kept_mk_iff]) | split | dsimp only

theorem State.anchorWrite_kept (s : State) (v : Nat) (m : Master) (addr : Nat) (h : Kept q o w s) :
    Kept q o w (State.anchorWrite s v m addr) := by
  unfold State.anchorWrite
  dsimp only
  repeat' first | (with_reducible first | assumption | apply State.violate_kept | apply State.setFld_kept | apply kept_ite | apply kept_fst_ite | simp only [kept_mk_iff]) | split

theorem State.genWrite_kept (s : State) (g : Nat) (reg : Nat) (new : Nat) (m : Master) (h : Kept q o w s) :
    Kept q o w (State.genWrite s g reg new m) := by
  unfold State.genWrite
  dsimp only
  repeat' first | (with_reducible first | assumption | apply State.wrN_kept | apply State.ccuConfigChange_kept | apply kept_ite | apply kept_fst_ite | simp only [kept_mk_iff]) | split

theorem State.seamCmd_kept (s : State) (v : Nat) (h : Kept q o w s) :
    Kept q o w (State.seamCmd s v) := by
  unfold State.seamCmd
  dsimp only
  repeat' first | (with_reducible first | assumption | apply State.startCheck_kept | apply State.seamBusy_kept | apply State.discard_kept | apply kept_ite | apply kept_fst_ite | simp only [kept_mk_iff]) | split

theorem State.needleCmd_kept (s : State) (c : Nat) (v : Nat) (h : Kept q o w s) :
    Kept q o w (State.needleCmd s c v) := by
  unfold State.needleCmd
  repeat' first | (with_reducible first | assumption | apply State.needleRun_kept | apply State.needleHalt_kept | apply kept_ite | apply kept_fst_ite | simp only [kept_mk_iff]) | split | dsimp only

theorem State.lineCmd_kept (s : State) (n : Nat) (v : Nat) (m : Master) (h : Kept q o w s) :
    Kept q o w (State.lineCmd s n v m) := by
  unfold State.lineCmd
  dsimp only
  repeat' first | (with_reducible first | assumption | apply State.setLineCh_kept | apply State.lineClear_kept | apply kept_ite | apply kept_fst_ite | simp only [kept_mk_iff]) | split

theorem State.netPortCfg_kept (s : State) (p : Nat) (new : Nat) (h : Kept q o w s) :
    Kept q o w (State.netPortCfg s p new) := by
  unfold State.netPortCfg
  dsimp only
  repeat' first | (with_reducible first | assumption | apply State.flag_kept | apply State.wrN_kept | apply kept_ite | apply kept_fst_ite | simp only [kept_mk_iff]) | split

theorem State.setDrv_kept (s : State) (c : Nat) (x : DroverCh) (h : Kept q o w s) :
    Kept q o w (State.setDrv s c x) := by
  unfold State.setDrv
  repeat' first | (with_reducible first | assumption | apply kept_ite | apply kept_fst_ite | simp only [kept_mk_iff]) | dsimp only

theorem State.drvEnter_kept (s : State) (c : Nat) (st : Nat) (cause : Nat) (h : Kept q o w s) :
    Kept q o w (State.drvEnter s c st cause) := by
  unfold State.drvEnter
  dsimp only
  repeat' first | (with_reducible first | assumption | apply State.setFld_kept | apply State.setDrv_kept | apply kept_ite | apply kept_fst_ite | simp only [kept_mk_iff]) | split

theorem State.droverStart_kept (s : State) (c : Nat) (h : Kept q o w s) :
    Kept q o w (State.droverStart s c) := by
  unfold State.droverStart
  dsimp only
  repeat' first | (with_reducible first | assumption | apply State.flag_kept | apply State.setDrv_kept | apply State.wrN_kept | apply kept_ite | apply kept_fst_ite | simp only [kept_mk_iff]) | split

theorem State.droverAbort_kept (s : State) (c : Nat) (h : Kept q o w s) :
    Kept q o w (State.droverAbort s c) := by
  unfold State.droverAbort
  dsimp only
  repeat' first | (with_reducible first | assumption | apply State.setDrv_kept | apply kept_ite | apply kept_fst_ite | simp only [kept_mk_iff]) | split

theorem State.droverCmd_kept (s : State) (c : Nat) (v : Nat) (h : Kept q o w s) :
    Kept q o w (State.droverCmd s c v) := by
  unfold State.droverCmd
  repeat' first | (with_reducible first | assumption | apply State.droverStart_kept | apply State.droverAbort_kept | apply kept_ite | apply kept_fst_ite | simp only [kept_mk_iff]) | split | dsimp only

theorem State.woWrite_kept (s : State) (base : Nat) (i : Nat) (j : Nat) (v : Nat) (msk : Nat) (m : Master) (addr : Nat) (h : Kept q o w s) :
    Kept q o w (State.woWrite s base i j v msk m addr) := by
  unfold State.woWrite
  dsimp only
  repeat' first | (with_reducible first | assumption | apply State.dlyApply_kept | apply State.seamCmd_kept | apply State.needleCmd_kept | apply State.divUpdate_kept | apply State.refLimitApply_kept | apply State.tbApply_kept | apply State.tbStep_kept | apply State.netApply_kept | apply State.portApply_kept | apply State.lineApply_kept | apply State.lineCmd_kept | apply State.twinCmd_kept | apply State.recAck_kept | apply State.swRaise_kept | apply State.doorbellFold_kept | apply State.foldCfgWrite_kept | apply State.ccuCommit_kept | apply State.flag_kept | apply State.droverCmd_kept | apply kept_ite | apply kept_fst_ite | simp only [kept_mk_iff]) | split

theorem State.rwWrite_kept (s : State) (r : RegSpec) (a : Nat) (i : Nat) (j : Nat) (v : Nat) (msk : Nat) (m : Master) (addr : Nat) (hw : Nat) (h : Kept q o w s) :
    Kept q o w (State.rwWrite s r a i j v msk m addr hw) := by
  unfold State.rwWrite
  dsimp only
  repeat' first | (with_reducible first | assumption | apply State.ccuConfigChange_kept | apply State.wrN_kept | apply State.setBit_kept | apply State.freshReq_kept | apply State.bootConfirm_kept | apply State.anchorWrite_kept | apply State.meterCfg_kept | apply State.dlyDelay_kept | apply State.genWrite_kept | apply State.basteWrite_kept | apply State.memDataWrite_kept | apply State.syncBw_kept | apply State.openWrite_kept | apply State.bump_kept | apply State.refSelWrite_kept | apply State.freqWrite_kept | apply State.syncQtLeft_kept | apply State.syncTbRef_kept | apply State.netPortCfg_kept | apply State.lineCtrlWrite_kept | apply State.alarmInCfg_kept | apply State.pinReleased_kept | apply State.pinSync_kept | apply State.violate_kept | apply State.foldCfgWrite_kept | apply State.foldRateWrite_kept | apply State.rheadWrite_kept | apply State.flag_kept | apply kept_ite | apply kept_fst_ite | apply kept_snd_ite | simp only [kept_mk_iff]) | split

theorem State.writeReg_kept (s : State) (a : Nat) (v : Nat) (msk : Nat) (m : Master) (addr : Nat) (hw : Nat) (h : Kept q o w s) :
    Kept q o w (State.writeReg s a v msk m addr hw) := by
  unfold State.writeReg
  dsimp only
  repeat' first | (with_reducible first | assumption | apply State.wrN_kept | apply State.doorbell_kept | apply State.violate_kept | apply State.msgDramStart_kept | apply State.setShadow_kept | apply State.woWrite_kept | apply State.rwWrite_kept | apply kept_ite | apply kept_fst_ite | apply kept_snd_ite | simp only [kept_mk_iff]) | split

theorem State.putTarget_kept (s : State) (t : Target) (v : Nat) (msk : Nat) (m : Master) (addr : Nat) (hw : Nat) (h : Kept q o w s) :
    Kept q o w (State.putTarget s t v msk m addr hw) := by
  unfold State.putTarget
  repeat' first | (with_reducible first | assumption | apply State.writeReg_kept | apply State.directWrite_kept | apply State.basteWrite_kept | apply State.memWrite_kept | apply kept_ite | apply kept_fst_ite | apply kept_snd_ite | simp only [kept_mk_iff]) | split | dsimp only

theorem State.busWrite_kept (s : State) (m : Master) (addr : Nat) (v : Nat) (msk : Nat) (hw : Nat) (h : Kept q o w s) :
    Kept q o w (State.busWrite s m addr v msk hw).1 := by
  unfold State.busWrite
  dsimp only
  repeat' first | (with_reducible first | assumption | apply State.unmapped_kept | apply State.violate_kept | apply State.twinIgnored_kept | apply State.raise_kept | apply State.flag_kept | apply State.putTarget_kept | apply kept_ite | apply kept_fst_ite | simp only [kept_mk_iff]) | split

theorem State.serveHeld_kept (s : State) (h : Kept q o w s) :
    Kept q o w (State.serveHeld s) := by
  unfold State.serveHeld
  dsimp only
  repeat' first | (with_reducible first | assumption | apply State.busWrite_kept | apply kept_ite | apply kept_fst_ite | apply kept_foldl | apply kept_fst_foldl | simp only [kept_mk_iff]) | intro _ _ _ | intro _ _

theorem execRegisterWrite_kept (m : Master) (addr : Sys2Proof.Word) (v : Sys2Proof.Word) (enable : BitVec 4) (hw : Sys2Proof.Word) (s : State) (h : Kept q o w s) :
    KeptRes q o w (execRegisterWrite m addr v enable hw s) := by
  unfold execRegisterWrite
  dsimp only
  repeat' first | (with_reducible first | assumption | apply State.busWrite_kept | apply kept_next | apply kept_res_ite | apply kept_ite | apply kept_fst_ite | apply kept_snd_ite | simp only [kept_mk_iff])

theorem State.writeAs_kept (s : State) (m : Master) (a : Nat) (v : Nat) (h : Kept q o w s) :
    Kept q o w (State.writeAs s m a v) := by
  unfold State.writeAs
  dsimp only
  repeat' first | (with_reducible first | assumption | apply State.busWrite_kept | apply kept_ite | apply kept_fst_ite | apply kept_snd_ite | simp only [kept_mk_iff])

theorem execAnchorGo_kept (m : Master) (v : Sys2Proof.Word) (s : State) (h : Kept q o w s) :
    KeptRes q o w (execAnchorGo m v s) := by
  unfold execAnchorGo
  repeat' first | (with_reducible first | assumption | apply State.writeAs_kept | apply kept_next | apply kept_res_ite | apply kept_ite | apply kept_fst_ite | simp only [kept_mk_iff]) | dsimp only

theorem execRemapWrite_kept (m : Master) (v : Sys2Proof.Word) (s : State) (h : Kept q o w s) :
    KeptRes q o w (execRemapWrite m v s) := by
  unfold execRemapWrite
  repeat' first | (with_reducible first | assumption | apply State.writeAs_kept | apply kept_next | apply kept_res_ite | apply kept_ite | apply kept_fst_ite | simp only [kept_mk_iff]) | dsimp only

theorem execMsgDramWrite_kept (m : Master) (v : Sys2Proof.Word) (s : State) (h : Kept q o w s) :
    KeptRes q o w (execMsgDramWrite m v s) := by
  unfold execMsgDramWrite
  repeat' first | (with_reducible first | assumption | apply State.writeAs_kept | apply kept_next | apply kept_res_ite | apply kept_ite | apply kept_fst_ite | simp only [kept_mk_iff]) | dsimp only

theorem execFoldCfgWrite_kept (m : Master) (f : Fin 128) (w' : FoldWord) (v : Sys2Proof.Word) (enable : BitVec 4) (s : State) (h : Kept q o w s) :
    KeptRes q o w (execFoldCfgWrite m f w' v enable s) := by
  unfold execFoldCfgWrite
  dsimp only
  repeat' first | (with_reducible first | assumption | apply State.busWrite_kept | apply kept_next | apply kept_res_ite | apply kept_ite | apply kept_fst_ite | apply kept_snd_ite | simp only [kept_mk_iff])

theorem execSysFreshReq_kept (s : State) (h : Kept q o w s) :
    KeptRes q o w (execSysFreshReq s) := by
  unfold execSysFreshReq
  repeat' first | (with_reducible first | assumption | apply State.freshReq_kept | apply kept_next | apply kept_res_ite | apply kept_ite | apply kept_fst_ite | simp only [kept_mk_iff]) | dsimp only

theorem execFreshDone_kept (edges : Nat) (s : State) (h : Kept q o w s) :
    KeptRes q o w (execFreshDone edges s) := by
  unfold execFreshDone
  dsimp only
  repeat' first | (with_reducible first | assumption | apply State.setBit_kept | apply kept_next | apply kept_res_ite | apply kept_ite | apply kept_fst_ite | simp only [kept_mk_iff]) | split

theorem execBusTimeout_kept (m : Master) (addr : Sys2Proof.Word) (write : Option (Sys2Proof.Word × BitVec 4)) (took : Bool) (s : State) (h : Kept q o w s) :
    KeptRes q o w (execBusTimeout m addr write took s) := by
  unfold execBusTimeout
  dsimp only
  repeat' first | (with_reducible first | assumption | apply State.busWrite_kept | apply State.flag_kept | apply State.wr_kept | apply State.raise_kept | apply kept_next | apply kept_res_ite | apply kept_ite | apply kept_fst_ite | apply kept_snd_ite | simp only [kept_mk_iff]) | split

theorem execBootConfirm_kept (s : State) (h : Kept q o w s) :
    KeptRes q o w (execBootConfirm s) := by
  unfold execBootConfirm
  repeat' first | (with_reducible first | assumption | apply State.bootConfirm_kept | apply kept_next | apply kept_res_ite | apply kept_ite | apply kept_fst_ite | simp only [kept_mk_iff]) | dsimp only

theorem execDroverStart_kept (m : Master) (c : Fin 16) (s : State) (h : Kept q o w s) :
    KeptRes q o w (execDroverStart m c s) := by
  unfold execDroverStart
  repeat' first | (with_reducible first | assumption | apply State.writeAs_kept | apply kept_next | apply kept_res_ite | apply kept_ite | apply kept_fst_ite | simp only [kept_mk_iff]) | dsimp only

theorem State.readReg_kept (s : State) (a : Nat) (m : Master) (h : Kept q o w s) :
    Kept q o w (State.readReg s a m).1 := by
  unfold State.readReg
  dsimp only
  repeat' first | (with_reducible first | assumption | apply State.meterPeak_kept | apply State.wrN_kept | apply State.memDataRead_kept | apply State.tbTimeRead_kept | apply State.tbMapRead_kept | apply State.txtsRead_kept | apply State.csLatch_kept | apply State.latchHi_kept | apply State.dropLatch_kept | apply kept_ite | apply kept_fst_ite | apply kept_snd_ite | simp only [kept_mk_iff]) | split

theorem State.quiltWord_kept (s : State) (w' : QWord) (v : Sys2Proof.Word) (m : Master) (h : Kept q o w s) :
    Kept q o w (State.quiltWord s w' v m).1 := by
  unfold State.quiltWord
  dsimp only
  repeat' first | (with_reducible first | assumption | apply State.liveUes_kept | apply State.basteUe_kept | apply State.bump_kept | apply kept_ite | apply kept_fst_ite | simp only [kept_mk_iff]) | split

theorem State.busRead_kept (s : State) (m : Master) (addr : Nat) (h : Kept q o w s) :
    Kept q o w (State.busRead s m addr).1 := by
  unfold State.busRead
  dsimp only
  repeat' first | (with_reducible first | assumption | apply State.unmapped_kept | apply State.quiltWord_kept | apply State.readReg_kept | apply State.memRead_kept | apply kept_ite | apply kept_fst_ite | apply kept_snd_ite | simp only [kept_mk_iff]) | split

theorem execLatchedPairRead_kept (m : Master) (addr : Sys2Proof.Word) (s : State) (h : Kept q o w s) :
    KeptRes q o w (execLatchedPairRead m addr s) := kept_next (kept_mk_iff.2 (State.busRead_kept s m _ h))

theorem execAliasAccess_kept (m : Master) (i : Fin 32768) (x : Option Sys2Proof.Word) (s : State) (h : Kept q o w s) :
    KeptRes q o w (execAliasAccess m i x s) := by
  unfold execAliasAccess
  split
  · exact kept_next (kept_mk_iff.2 (State.busWrite_kept s m _ _ _ _ h))
  · exact kept_next (kept_mk_iff.2 (State.busRead_kept s m _ h))

theorem State.drvReadWord_kept (s : State) (space : Nat) (w' : Nat) (h : Kept q o w s) :
    Kept q o w (State.drvReadWord s space w').1 := by
  unfold State.drvReadWord
  dsimp only
  repeat' first | (with_reducible first | assumption | apply State.busRead_kept | apply State.unmapped_kept | apply State.memRead_kept | apply kept_ite | apply kept_fst_ite | apply kept_snd_ite | simp only [kept_mk_iff]) | split

theorem State.drvRead_kept (s : State) (addr : Nat) (n : Nat) (host : Nat → Sys2Proof.Byte) (h : Kept q o w s) :
    Kept q o w (State.drvRead s addr n host).1 := by
  unfold State.drvRead
  dsimp only
  repeat' first | (with_reducible first | assumption | apply State.drvReadWord_kept | apply kept_ite | apply kept_fst_ite | apply kept_snd_ite | apply kept_foldl | apply kept_fst_foldl | simp only [kept_mk_iff]) | split | intro _ _ _ | intro _ _

theorem State.drvWriteWord_kept (s : State) (c : Nat) (space : Nat) (w' : Nat) (v : Nat) (msk : Nat) (conflict : List Nat) (h : Kept q o w s) :
    Kept q o w (State.drvWriteWord s c space w' v msk conflict).1 := by
  unfold State.drvWriteWord
  dsimp only
  repeat' first | (with_reducible first | assumption | apply State.flag_kept | apply State.setBit_kept | apply State.busWrite_kept | apply State.unmapped_kept | apply State.memWrite_kept | apply kept_ite | apply kept_fst_ite | apply kept_snd_ite | simp only [kept_mk_iff]) | split

theorem State.drvWrite_kept (s : State) (c : Nat) (addr : Nat) (n : Nat) (v : Nat) (conflict : List Nat) (h : Kept q o w s) :
    Kept q o w (State.drvWrite s c addr n v conflict).1 := by
  unfold State.drvWrite
  dsimp only
  repeat' first | (with_reducible first | assumption | apply State.drvWriteWord_kept | apply kept_ite | apply kept_fst_ite | apply kept_snd_ite | apply kept_foldl | apply kept_fst_foldl | simp only [kept_mk_iff]) | split | intro _ _ _ | intro _ _

theorem State.drvMove_kept (s : State) (c : Nat) (d : Desc) (n : Nat) (host : Nat → Sys2Proof.Byte) (conflict : List Nat) (h : Kept q o w s) :
    Kept q o w (State.drvMove s c d n host conflict).1 := by
  unfold State.drvMove
  dsimp only
  repeat' first | (with_reducible first | assumption | apply State.drvRead_kept | apply State.drvWrite_kept | apply State.countBy_kept | apply kept_ite | apply kept_fst_ite | apply kept_snd_ite | apply kept_foldl | apply kept_fst_foldl | simp only [kept_mk_iff]) | split | intro _ _ _ | intro _ _

theorem State.drvStop_kept (s : State) (c : Nat) (n : Nat) (host : List Sys2Proof.Byte) (st : Nat) (cause : Nat) (h : Kept q o w s) :
    Kept q o w (State.drvStop s c n host st cause) := by
  unfold State.drvStop
  dsimp only
  repeat' first | (with_reducible first | assumption | apply State.bump_kept | apply State.drvMove_kept | apply State.drvEnter_kept | apply kept_ite | apply kept_fst_ite | simp only [kept_mk_iff]) | split

theorem State.drvBusError_kept (s : State) (e : BusErr) (moved : Option (List (Nat × Nat × List Sys2Proof.Byte))) (h : Kept q o w s) :
    Kept q o w (State.drvBusError s e moved) := by
  unfold State.drvBusError
  dsimp only
  repeat' first | (with_reducible first | assumption | apply State.drvStop_kept | apply State.bump_kept | apply State.wr64_kept | apply State.wrN_kept | apply State.raise_kept | apply State.flag_kept | apply kept_ite | apply kept_fst_ite | apply kept_snd_ite | apply kept_foldl | apply kept_fst_foldl | simp only [kept_mk_iff]) | split | intro _ _ _ | intro _ _

theorem execDroverBusError_kept (write : Bool) (kind : Fin 4) (addr : Sys2Proof.DWord) (moved : List (Fin 16 × Nat × List Sys2Proof.Byte)) (s : State) (h : Kept q o w s) :
    KeptRes q o w (execDroverBusError write kind addr moved s) := by
  unfold execDroverBusError
  repeat' first | (with_reducible first | assumption | apply State.drvBusError_kept | apply kept_next | apply kept_res_ite | apply kept_ite | apply kept_fst_ite | apply kept_snd_ite | simp only [kept_mk_iff]) | split | dsimp only

theorem State.drvDescError_kept (s : State) (c : Nat) (h : Kept q o w s) :
    Kept q o w (State.drvDescError s c) := by
  unfold State.drvDescError
  repeat' first | (with_reducible first | assumption | apply State.raise_kept | apply State.flag_kept | apply State.drvEnter_kept | apply kept_ite | apply kept_fst_ite | simp only [kept_mk_iff]) | dsimp only

theorem execDescriptorFetch_kept (c : Fin 16) (host : List Sys2Proof.Byte) (s : State) (h : Kept q o w s) :
    KeptRes q o w (execDescriptorFetch c host s) := by
  unfold execDescriptorFetch
  dsimp only
  repeat' first | (with_reducible first | assumption | apply State.drvEnter_kept | apply State.raise_kept | apply State.flag_kept | apply State.drvDescError_kept | apply State.bump_kept | apply State.wr64_kept | apply State.drvRead_kept | apply State.drvBusError_kept | apply State.setDrv_kept | apply kept_next | apply kept_res_ite | apply kept_ite | apply kept_fst_ite | apply kept_snd_ite | simp only [kept_mk_iff]) | split

theorem execDescriptorComplete_kept (c : Fin 16) (host : List Sys2Proof.Byte) (conflict : List (Fin 65536)) (s : State) (h : Kept q o w s) :
    KeptRes q o w (execDescriptorComplete c host conflict s) := by
  unfold execDescriptorComplete
  dsimp only
  repeat' first | (with_reducible first | assumption | apply State.drvMove_kept | apply State.bump_kept | apply State.drvBusError_kept | apply State.unpoison_kept | apply State.count_kept | apply State.setBitAt_kept | apply State.drvEnter_kept | apply State.setDrv_kept | apply kept_next | apply kept_res_ite | apply kept_ite | apply kept_fst_ite | apply kept_snd_ite | simp only [kept_mk_iff]) | split

theorem execDroverAbort_kept (m : Master) (c : Fin 16) (moved : Nat) (host : List Sys2Proof.Byte) (s : State) (h : Kept q o w s) :
    KeptRes q o w (execDroverAbort m c moved host s) := by
  unfold execDroverAbort
  dsimp only
  repeat' first | (with_reducible first | assumption | apply State.writeAs_kept | apply State.drvStop_kept | apply kept_next | apply kept_res_ite | apply kept_ite | apply kept_fst_ite | simp only [kept_mk_iff]) | split

theorem State.scrubWord_kept (s : State) (word : ScrubWord) (ue : Bool) (h : Kept q o w s) :
    Kept q o w (State.scrubWord s word ue) := by
  unfold State.scrubWord
  split
  · rename_i code i
    have h2 : Kept q o w (if ue && !s.mem.poison.contains (code.val, i) then
        { s with mem := { s.mem with poison := (code.val, i) :: s.mem.poison } } else s) := kept_ite (kept_mem h id id) h
    exact kept_ite (kept_ite (State.dramUe_kept _ _ _ _ h2) (State.eccResult_kept _ _ _ _ _ _ _ _ h2))
      (State.eccResult_kept _ _ _ _ _ _ _ _ h2)
  all_goals
    repeat' first | (with_reducible first | assumption | apply State.quiltCe_kept | apply State.liveUes_kept | apply State.basteUe_kept | apply State.gainUe_kept | apply State.quiltEcc_kept | apply State.raise_kept | apply State.setCore_kept | apply State.eccResult_kept | apply State.flag_kept | apply kept_ite) | split | dsimp only

theorem execScrubLine_kept (found : List (ScrubWord × Bool)) (nvsEnd : Bool) (s : State) (h : Kept q o w s) :
    KeptRes q o w (execScrubLine found nvsEnd s) := by
  unfold execScrubLine
  dsimp only
  repeat' first | (with_reducible first | assumption | apply State.scrubWord_kept | apply State.nvsPass_kept | apply kept_next | apply kept_res_ite | apply kept_ite | apply kept_fst_ite | apply kept_snd_ite | apply kept_foldl | apply kept_fst_foldl | simp only [kept_mk_iff]) | split | intro _ _ _ | intro _ _

theorem execDramRetrain_kept (ok : Bool) (s : State) (h : Kept q o w s) :
    KeptRes q o w (execDramRetrain ok s) := by
  unfold execDramRetrain
  repeat' first | (with_reducible first | assumption | apply State.dramFail_kept | apply kept_next | apply kept_res_ite | apply kept_ite | apply kept_fst_ite | simp only [kept_mk_iff]) | split | dsimp only

end Sys2Proof.Machine
end

