-- ==== Sys2Proof/Laws/KeptNeedleAlu.lean ====
section
/-! SUPPORT. What every function of the needle arithmetic, the domain clocks and the media ports keeps: the queue, the fuses (`Otp.Same`) and the canonical memory (`Kept`), one lemma a function. -/

set_option maxRecDepth 4000
set_option linter.unusedSimpArgs false

namespace Sys2Proof.Machine

variable {q : List Sys2Proof.Instr} {o : Otp} {w : Bool}

theorem execAlAdd_kept (c : Fin 64) (e : Ecc) (s : State) (h : Kept q o w s) :
    KeptRes q o w (execAlAdd c e s) := by
  unfold execAlAdd
  dsimp only
  repeat' first | (with_reducible first | assumption | apply State.issue_kept | apply kept_next | apply kept_res_ite | apply kept_ite | apply kept_fst_ite | apply kept_snd_ite | simp only [kept_mk_iff]) | split

theorem execAlSub_kept (c : Fin 64) (e : Ecc) (s : State) (h : Kept q o w s) :
    KeptRes q o w (execAlSub c e s) := by
  unfold execAlSub
  dsimp only
  repeat' first | (with_reducible first | assumption | apply State.issue_kept | apply kept_next | apply kept_res_ite | apply kept_ite | apply kept_fst_ite | apply kept_snd_ite | simp only [kept_mk_iff]) | split

theorem execAlNeg_kept (c : Fin 64) (e : Ecc) (s : State) (h : Kept q o w s) :
    KeptRes q o w (execAlNeg c e s) := by
  unfold execAlNeg
  dsimp only
  repeat' first | (with_reducible first | assumption | apply State.issue_kept | apply kept_next | apply kept_res_ite | apply kept_ite | apply kept_fst_ite | apply kept_snd_ite | simp only [kept_mk_iff]) | split

theorem execAlAbs_kept (c : Fin 64) (e : Ecc) (s : State) (h : Kept q o w s) :
    KeptRes q o w (execAlAbs c e s) := by
  unfold execAlAbs
  dsimp only
  repeat' first | (with_reducible first | assumption | apply State.issue_kept | apply kept_next | apply kept_res_ite | apply kept_ite | apply kept_fst_ite | simp only [kept_mk_iff]) | split

theorem execAlMin_kept (c : Fin 64) (e : Ecc) (s : State) (h : Kept q o w s) :
    KeptRes q o w (execAlMin c e s) := by
  unfold execAlMin
  dsimp only
  repeat' first | (with_reducible first | assumption | apply State.issue_kept | apply kept_next | apply kept_res_ite | apply kept_ite | apply kept_fst_ite | simp only [kept_mk_iff]) | split

theorem execAlMax_kept (c : Fin 64) (e : Ecc) (s : State) (h : Kept q o w s) :
    KeptRes q o w (execAlMax c e s) := by
  unfold execAlMax
  dsimp only
  repeat' first | (with_reducible first | assumption | apply State.issue_kept | apply kept_next | apply kept_res_ite | apply kept_ite | apply kept_fst_ite | simp only [kept_mk_iff]) | split

theorem execAlCmp_kept (c : Fin 64) (e : Ecc) (s : State) (h : Kept q o w s) :
    KeptRes q o w (execAlCmp c e s) := by
  unfold execAlCmp
  dsimp only
  repeat' first | (with_reducible first | assumption | apply State.issue_kept | apply kept_next | apply kept_res_ite | apply kept_ite | apply kept_fst_ite | apply kept_snd_ite | simp only [kept_mk_iff]) | split

theorem execAlAnd_kept (c : Fin 64) (e : Ecc) (s : State) (h : Kept q o w s) :
    KeptRes q o w (execAlAnd c e s) := by
  unfold execAlAnd
  repeat' first | (with_reducible first | assumption | apply State.issue_kept | apply kept_next | apply kept_res_ite | apply kept_ite | apply kept_fst_ite | simp only [kept_mk_iff]) | split | dsimp only

theorem execAlOr_kept (c : Fin 64) (e : Ecc) (s : State) (h : Kept q o w s) :
    KeptRes q o w (execAlOr c e s) := by
  unfold execAlOr
  repeat' first | (with_reducible first | assumption | apply State.issue_kept | apply kept_next | apply kept_res_ite | apply kept_ite | apply kept_fst_ite | simp only [kept_mk_iff]) | split | dsimp only

theorem execAlXor_kept (c : Fin 64) (e : Ecc) (s : State) (h : Kept q o w s) :
    KeptRes q o w (execAlXor c e s) := by
  unfold execAlXor
  repeat' first | (with_reducible first | assumption | apply State.issue_kept | apply kept_next | apply kept_res_ite | apply kept_ite | apply kept_fst_ite | simp only [kept_mk_iff]) | split | dsimp only

theorem execAlNot_kept (c : Fin 64) (e : Ecc) (s : State) (h : Kept q o w s) :
    KeptRes q o w (execAlNot c e s) := by
  unfold execAlNot
  repeat' first | (with_reducible first | assumption | apply State.issue_kept | apply kept_next | apply kept_res_ite | apply kept_ite | apply kept_fst_ite | simp only [kept_mk_iff]) | split | dsimp only

theorem execAlShl_kept (c : Fin 64) (e : Ecc) (s : State) (h : Kept q o w s) :
    KeptRes q o w (execAlShl c e s) := by
  unfold execAlShl
  repeat' first | (with_reducible first | assumption | apply State.issue_kept | apply kept_next | apply kept_res_ite | apply kept_ite | apply kept_fst_ite | simp only [kept_mk_iff]) | split | dsimp only

theorem execAlShr_kept (c : Fin 64) (e : Ecc) (s : State) (h : Kept q o w s) :
    KeptRes q o w (execAlShr c e s) := by
  unfold execAlShr
  repeat' first | (with_reducible first | assumption | apply State.issue_kept | apply kept_next | apply kept_res_ite | apply kept_ite | apply kept_fst_ite | simp only [kept_mk_iff]) | split | dsimp only

theorem execAlLsr_kept (c : Fin 64) (e : Ecc) (s : State) (h : Kept q o w s) :
    KeptRes q o w (execAlLsr c e s) := by
  unfold execAlLsr
  repeat' first | (with_reducible first | assumption | apply State.issue_kept | apply kept_next | apply kept_res_ite | apply kept_ite | apply kept_fst_ite | simp only [kept_mk_iff]) | split | dsimp only

theorem execAlRshr_kept (c : Fin 64) (e : Ecc) (s : State) (h : Kept q o w s) :
    KeptRes q o w (execAlRshr c e s) := by
  unfold execAlRshr
  dsimp only
  repeat' first | (with_reducible first | assumption | apply State.issue_kept | apply kept_next | apply kept_res_ite | apply kept_ite | apply kept_fst_ite | simp only [kept_mk_iff]) | split

theorem execAlShlv_kept (c : Fin 64) (e : Ecc) (s : State) (h : Kept q o w s) :
    KeptRes q o w (execAlShlv c e s) := by
  unfold execAlShlv
  repeat' first | (with_reducible first | assumption | apply State.issue_kept | apply kept_next | apply kept_res_ite | apply kept_ite | apply kept_fst_ite | simp only [kept_mk_iff]) | split | dsimp only

theorem execAlShrv_kept (c : Fin 64) (e : Ecc) (s : State) (h : Kept q o w s) :
    KeptRes q o w (execAlShrv c e s) := by
  unfold execAlShrv
  repeat' first | (with_reducible first | assumption | apply State.issue_kept | apply kept_next | apply kept_res_ite | apply kept_ite | apply kept_fst_ite | simp only [kept_mk_iff]) | split | dsimp only

theorem execAlMov_kept (c : Fin 64) (e : Ecc) (s : State) (h : Kept q o w s) :
    KeptRes q o w (execAlMov c e s) := by
  unfold execAlMov
  repeat' first | (with_reducible first | assumption | apply State.issue_kept | apply kept_next | apply kept_res_ite | apply kept_ite | apply kept_fst_ite | simp only [kept_mk_iff]) | split | dsimp only

theorem execAlNorm_kept (c : Fin 64) (e : Ecc) (s : State) (h : Kept q o w s) :
    KeptRes q o w (execAlNorm c e s) := by
  unfold execAlNorm
  dsimp only
  repeat' first | (with_reducible first | assumption | apply State.issue_kept | apply kept_next | apply kept_res_ite | apply kept_ite | apply kept_fst_ite | simp only [kept_mk_iff]) | split

theorem execAlAddi_kept (c : Fin 64) (e : Ecc) (s : State) (h : Kept q o w s) :
    KeptRes q o w (execAlAddi c e s) := by
  unfold execAlAddi
  dsimp only
  repeat' first | (with_reducible first | assumption | apply State.issue_kept | apply kept_next | apply kept_res_ite | apply kept_ite | apply kept_fst_ite | apply kept_snd_ite | simp only [kept_mk_iff]) | split

theorem execAlCmpi_kept (c : Fin 64) (e : Ecc) (s : State) (h : Kept q o w s) :
    KeptRes q o w (execAlCmpi c e s) := by
  unfold execAlCmpi
  dsimp only
  repeat' first | (with_reducible first | assumption | apply State.issue_kept | apply kept_next | apply kept_res_ite | apply kept_ite | apply kept_fst_ite | apply kept_snd_ite | simp only [kept_mk_iff]) | split

theorem execAlLdi_kept (c : Fin 64) (e : Ecc) (s : State) (h : Kept q o w s) :
    KeptRes q o w (execAlLdi c e s) := by
  unfold execAlLdi
  repeat' first | (with_reducible first | assumption | apply State.issue_kept | apply kept_next | apply kept_res_ite | apply kept_ite | apply kept_fst_ite | simp only [kept_mk_iff]) | split | dsimp only

theorem execAlLdi32_kept (c : Fin 64) (e : Ecc) (s : State) (h : Kept q o w s) :
    KeptRes q o w (execAlLdi32 c e s) := by
  unfold execAlLdi32
  repeat' first | (with_reducible first | assumption | apply State.issue_kept | apply kept_next | apply kept_res_ite | apply kept_ite | apply kept_fst_ite | simp only [kept_mk_iff]) | split | dsimp only

theorem execAlMovs_kept (c : Fin 64) (e : Ecc) (s : State) (h : Kept q o w s) :
    KeptRes q o w (execAlMovs c e s) := by
  unfold execAlMovs
  repeat' first | (with_reducible first | assumption | apply State.issue_kept | apply kept_next | apply kept_res_ite | apply kept_ite | apply kept_fst_ite | simp only [kept_mk_iff]) | split | dsimp only

theorem execAlSeta_kept (c : Fin 64) (e : Ecc) (s : State) (h : Kept q o w s) :
    KeptRes q o w (execAlSeta c e s) := by
  unfold execAlSeta
  repeat' first | (with_reducible first | assumption | apply State.issue_kept | apply kept_next | apply kept_res_ite | apply kept_ite | apply kept_fst_ite | simp only [kept_mk_iff]) | split | dsimp only

theorem execAlAddp_kept (c : Fin 64) (e : Ecc) (s : State) (h : Kept q o w s) :
    KeptRes q o w (execAlAddp c e s) := by
  unfold execAlAddp
  repeat' first | (with_reducible first | assumption | apply State.issue_kept | apply kept_next | apply kept_res_ite | apply kept_ite | apply kept_fst_ite | simp only [kept_mk_iff]) | split | dsimp only

theorem execAlAclr_kept (c : Fin 64) (e : Ecc) (s : State) (h : Kept q o w s) :
    KeptRes q o w (execAlAclr c e s) := by
  unfold execAlAclr
  repeat' first | (with_reducible first | assumption | apply State.issue_kept | apply kept_next | apply kept_res_ite | apply kept_ite | apply kept_fst_ite | simp only [kept_mk_iff]) | split | dsimp only

theorem execAlAadd_kept (c : Fin 64) (e : Ecc) (s : State) (h : Kept q o w s) :
    KeptRes q o w (execAlAadd c e s) := by
  unfold execAlAadd
  repeat' first | (with_reducible first | assumption | apply State.issue_kept | apply kept_next | apply kept_res_ite | apply kept_ite | apply kept_fst_ite | simp only [kept_mk_iff]) | split | dsimp only

theorem execAlAsub_kept (c : Fin 64) (e : Ecc) (s : State) (h : Kept q o w s) :
    KeptRes q o w (execAlAsub c e s) := by
  unfold execAlAsub
  repeat' first | (with_reducible first | assumption | apply State.issue_kept | apply kept_next | apply kept_res_ite | apply kept_ite | apply kept_fst_ite | simp only [kept_mk_iff]) | split | dsimp only

theorem execAlAmov_kept (c : Fin 64) (e : Ecc) (s : State) (h : Kept q o w s) :
    KeptRes q o w (execAlAmov c e s) := by
  unfold execAlAmov
  repeat' first | (with_reducible first | assumption | apply State.issue_kept | apply kept_next | apply kept_res_ite | apply kept_ite | apply kept_fst_ite | simp only [kept_mk_iff]) | split | dsimp only

theorem execAlAneg_kept (c : Fin 64) (e : Ecc) (s : State) (h : Kept q o w s) :
    KeptRes q o w (execAlAneg c e s) := by
  unfold execAlAneg
  repeat' first | (with_reducible first | assumption | apply State.issue_kept | apply kept_next | apply kept_res_ite | apply kept_ite | apply kept_fst_ite | simp only [kept_mk_iff]) | split | dsimp only

theorem execAlAshl_kept (c : Fin 64) (e : Ecc) (s : State) (h : Kept q o w s) :
    KeptRes q o w (execAlAshl c e s) := by
  unfold execAlAshl
  repeat' first | (with_reducible first | assumption | apply State.issue_kept | apply kept_next | apply kept_res_ite | apply kept_ite | apply kept_fst_ite | simp only [kept_mk_iff]) | split | dsimp only

theorem execAlAshr_kept (c : Fin 64) (e : Ecc) (s : State) (h : Kept q o w s) :
    KeptRes q o w (execAlAshr c e s) := by
  unfold execAlAshr
  repeat' first | (with_reducible first | assumption | apply State.issue_kept | apply kept_next | apply kept_res_ite | apply kept_ite | apply kept_fst_ite | simp only [kept_mk_iff]) | split | dsimp only

theorem execAlExt_kept (c : Fin 64) (e : Ecc) (s : State) (h : Kept q o w s) :
    KeptRes q o w (execAlExt c e s) := by
  unfold execAlExt
  dsimp only
  repeat' first | (with_reducible first | assumption | apply State.issue_kept | apply kept_next | apply kept_res_ite | apply kept_ite | apply kept_fst_ite | apply kept_snd_ite | simp only [kept_mk_iff]) | split

theorem execAlQext_kept (c : Fin 64) (e : Ecc) (s : State) (h : Kept q o w s) :
    KeptRes q o w (execAlQext c e s) := by
  unfold execAlQext
  repeat' first | (with_reducible first | assumption | apply State.issue_kept | apply kept_next | apply kept_res_ite | apply kept_ite | apply kept_fst_ite | simp only [kept_mk_iff]) | split | dsimp only

theorem macAs_kept (want : Nat) (c : Nat) (e : Ecc) (s : State) (h : Kept q o w s) :
    Kept q o w (macAs want c e s) := by
  unfold macAs
  repeat' first | (with_reducible first | assumption | apply State.issue_kept | apply kept_ite | apply kept_fst_ite | simp only [kept_mk_iff]) | split | dsimp only

theorem qmacAs_kept (want : Nat) (c : Nat) (e : Ecc) (s : State) (h : Kept q o w s) :
    Kept q o w (qmacAs want c e s) := by
  unfold qmacAs
  repeat' first | (with_reducible first | assumption | apply State.issue_kept | apply kept_ite | apply kept_fst_ite | simp only [kept_mk_iff]) | split | dsimp only

theorem qmacmAs_kept (want : Nat) (c : Nat) (e : Ecc) (s : State) (h : Kept q o w s) :
    Kept q o w (qmacmAs want c e s) := by
  unfold qmacmAs
  repeat' first | (with_reducible first | assumption | apply State.issue_kept | apply kept_ite | apply kept_fst_ite | simp only [kept_mk_iff]) | split | dsimp only

theorem execAlMac_kept (c : Fin 64) (e : Ecc) (s : State) (h : Kept q o w s) :
    KeptRes q o w (execAlMac c e s) := by
  unfold execAlMac
  repeat' first | (with_reducible first | assumption | apply macAs_kept | apply kept_next | apply kept_res_ite | apply kept_ite | apply kept_fst_ite | simp only [kept_mk_iff]) | dsimp only

theorem execAlMsu_kept (c : Fin 64) (e : Ecc) (s : State) (h : Kept q o w s) :
    KeptRes q o w (execAlMsu c e s) := by
  unfold execAlMsu
  repeat' first | (with_reducible first | assumption | apply macAs_kept | apply kept_next | apply kept_res_ite | apply kept_ite | apply kept_fst_ite | simp only [kept_mk_iff]) | dsimp only

theorem execAlMpy_kept (c : Fin 64) (e : Ecc) (s : State) (h : Kept q o w s) :
    KeptRes q o w (execAlMpy c e s) := by
  unfold execAlMpy
  repeat' first | (with_reducible first | assumption | apply macAs_kept | apply kept_next | apply kept_res_ite | apply kept_ite | apply kept_fst_ite | simp only [kept_mk_iff]) | dsimp only

theorem execAlMpyn_kept (c : Fin 64) (e : Ecc) (s : State) (h : Kept q o w s) :
    KeptRes q o w (execAlMpyn c e s) := by
  unfold execAlMpyn
  repeat' first | (with_reducible first | assumption | apply macAs_kept | apply kept_next | apply kept_res_ite | apply kept_ite | apply kept_fst_ite | simp only [kept_mk_iff]) | dsimp only

theorem execAlQmac_kept (c : Fin 64) (e : Ecc) (s : State) (h : Kept q o w s) :
    KeptRes q o w (execAlQmac c e s) := by
  unfold execAlQmac
  repeat' first | (with_reducible first | assumption | apply qmacAs_kept | apply kept_next | apply kept_res_ite | apply kept_ite | apply kept_fst_ite | simp only [kept_mk_iff]) | dsimp only

theorem execAlQmsu_kept (c : Fin 64) (e : Ecc) (s : State) (h : Kept q o w s) :
    KeptRes q o w (execAlQmsu c e s) := by
  unfold execAlQmsu
  repeat' first | (with_reducible first | assumption | apply qmacAs_kept | apply kept_next | apply kept_res_ite | apply kept_ite | apply kept_fst_ite | simp only [kept_mk_iff]) | dsimp only

theorem execAlQmpy_kept (c : Fin 64) (e : Ecc) (s : State) (h : Kept q o w s) :
    KeptRes q o w (execAlQmpy c e s) := by
  unfold execAlQmpy
  repeat' first | (with_reducible first | assumption | apply qmacAs_kept | apply kept_next | apply kept_res_ite | apply kept_ite | apply kept_fst_ite | simp only [kept_mk_iff]) | dsimp only

theorem execAlQmpyn_kept (c : Fin 64) (e : Ecc) (s : State) (h : Kept q o w s) :
    KeptRes q o w (execAlQmpyn c e s) := by
  unfold execAlQmpyn
  repeat' first | (with_reducible first | assumption | apply qmacAs_kept | apply kept_next | apply kept_res_ite | apply kept_ite | apply kept_fst_ite | simp only [kept_mk_iff]) | dsimp only

theorem execAlQmacm_kept (c : Fin 64) (e : Ecc) (s : State) (h : Kept q o w s) :
    KeptRes q o w (execAlQmacm c e s) := by
  unfold execAlQmacm
  repeat' first | (with_reducible first | assumption | apply qmacmAs_kept | apply kept_next | apply kept_res_ite | apply kept_ite | apply kept_fst_ite | simp only [kept_mk_iff]) | dsimp only

theorem execAlQmsum_kept (c : Fin 64) (e : Ecc) (s : State) (h : Kept q o w s) :
    KeptRes q o w (execAlQmsum c e s) := by
  unfold execAlQmsum
  repeat' first | (with_reducible first | assumption | apply qmacmAs_kept | apply kept_next | apply kept_res_ite | apply kept_ite | apply kept_fst_ite | simp only [kept_mk_iff]) | dsimp only

theorem execAlQmpym_kept (c : Fin 64) (e : Ecc) (s : State) (h : Kept q o w s) :
    KeptRes q o w (execAlQmpym c e s) := by
  unfold execAlQmpym
  repeat' first | (with_reducible first | assumption | apply qmacmAs_kept | apply kept_next | apply kept_res_ite | apply kept_ite | apply kept_fst_ite | simp only [kept_mk_iff]) | dsimp only

theorem execAlQmpynm_kept (c : Fin 64) (e : Ecc) (s : State) (h : Kept q o w s) :
    KeptRes q o w (execAlQmpynm c e s) := by
  unfold execAlQmpynm
  repeat' first | (with_reducible first | assumption | apply qmacmAs_kept | apply kept_next | apply kept_res_ite | apply kept_ite | apply kept_fst_ite | simp only [kept_mk_iff]) | dsimp only

theorem execAlMacdl_kept (c : Fin 64) (e : Ecc) (s : State) (h : Kept q o w s) :
    KeptRes q o w (execAlMacdl c e s) := by
  unfold execAlMacdl
  repeat' first | (with_reducible first | assumption | apply State.issue_kept | apply kept_next | apply kept_res_ite | apply kept_ite | apply kept_fst_ite | simp only [kept_mk_iff]) | split | dsimp only

theorem execAlQexts_kept (c : Fin 64) (e : Ecc) (s : State) (h : Kept q o w s) :
    KeptRes q o w (execAlQexts c e s) := by
  unfold execAlQexts
  dsimp only
  repeat' first | (with_reducible first | assumption | apply State.issue_kept | apply kept_next | apply kept_res_ite | apply kept_ite | apply kept_fst_ite | simp only [kept_mk_iff]) | split

theorem execAlLds_kept (c : Fin 64) (e : Ecc) (s : State) (h : Kept q o w s) :
    KeptRes q o w (execAlLds c e s) := by
  unfold execAlLds
  repeat' first | (with_reducible first | assumption | apply State.issue_kept | apply kept_next | apply kept_res_ite | apply kept_ite | apply kept_fst_ite | simp only [kept_mk_iff]) | split | dsimp only

theorem execAlSts_kept (c : Fin 64) (e : Ecc) (s : State) (h : Kept q o w s) :
    KeptRes q o w (execAlSts c e s) := by
  unfold execAlSts
  repeat' first | (with_reducible first | assumption | apply State.issue_kept | apply kept_next | apply kept_res_ite | apply kept_ite | apply kept_fst_ite | simp only [kept_mk_iff]) | split | dsimp only

theorem execAlLd_kept (c : Fin 64) (e : Ecc) (s : State) (h : Kept q o w s) :
    KeptRes q o w (execAlLd c e s) := by
  unfold execAlLd
  repeat' first | (with_reducible first | assumption | apply State.issue_kept | apply kept_next | apply kept_res_ite | apply kept_ite | apply kept_fst_ite | simp only [kept_mk_iff]) | split | dsimp only

theorem execAlSt_kept (c : Fin 64) (e : Ecc) (s : State) (h : Kept q o w s) :
    KeptRes q o w (execAlSt c e s) := by
  unfold execAlSt
  repeat' first | (with_reducible first | assumption | apply State.issue_kept | apply kept_next | apply kept_res_ite | apply kept_ite | apply kept_fst_ite | simp only [kept_mk_iff]) | split | dsimp only

theorem execAlLdq_kept (c : Fin 64) (e : Ecc) (s : State) (h : Kept q o w s) :
    KeptRes q o w (execAlLdq c e s) := by
  unfold execAlLdq
  dsimp only
  repeat' first | (with_reducible first | assumption | apply State.issue_kept | apply kept_next | apply kept_res_ite | apply kept_ite | apply kept_fst_ite | apply kept_foldl | apply kept_fst_foldl | simp only [kept_mk_iff]) | split | intro _ _ _ | intro _ _

theorem execAlStq_kept (c : Fin 64) (e : Ecc) (s : State) (h : Kept q o w s) :
    KeptRes q o w (execAlStq c e s) := by
  unfold execAlStq
  repeat' first | (with_reducible first | assumption | apply State.issue_kept | apply kept_next | apply kept_res_ite | apply kept_ite | apply kept_fst_ite | simp only [kept_mk_iff]) | split | dsimp only

theorem execAlDls_kept (c : Fin 64) (e : Ecc) (s : State) (h : Kept q o w s) :
    KeptRes q o w (execAlDls c e s) := by
  unfold execAlDls
  repeat' first | (with_reducible first | assumption | apply State.issue_kept | apply kept_next | apply kept_res_ite | apply kept_ite | apply kept_fst_ite | simp only [kept_mk_iff]) | split | dsimp only

theorem execCoreApllUnlock_kept (a : Fin 2) (s : State) (h : Kept q o w s) :
    KeptRes q o w (execCoreApllUnlock a s) := by
  unfold execCoreApllUnlock
  dsimp only
  repeat' first | (with_reducible first | assumption | apply State.setBitAt_kept | apply State.setFld_kept | apply State.setBit_kept | apply State.raise_kept | apply State.flag_kept | apply kept_next | apply kept_res_ite | apply kept_ite | apply kept_fst_ite | simp only [kept_mk_iff]) | split

theorem execNetApllUnlock_kept (requested : List (Fin 4 × Fin 8 × BitVec 16)) (raw : Int) (s : State) (h : Kept q o w s) :
    KeptRes q o w (execNetApllUnlock requested raw s) := by
  unfold execNetApllUnlock
  dsimp only
  repeat' first | (with_reducible first | assumption | apply State.setBit_kept | apply State.raise_kept | apply State.flag_kept | apply State.linkDown_kept | apply State.linkLost_kept | apply State.tickToXin_kept | apply kept_next | apply kept_res_ite | apply kept_ite | apply kept_fst_ite | apply kept_snd_ite | apply kept_foldl | apply kept_fst_foldl | simp only [kept_mk_iff]) | split | intro _ _ _ | intro _ _

theorem execNetApllRelock_kept (s : State) (h : Kept q o w s) :
    KeptRes q o w (execNetApllRelock s) := by
  unfold execNetApllRelock
  repeat' first | (with_reducible first | assumption | apply State.setBit_kept | apply kept_next | apply kept_res_ite | apply kept_ite | apply kept_fst_ite | simp only [kept_mk_iff]) | dsimp only

theorem execTcxoLoss_kept (s : State) (h : Kept q o w s) :
    KeptRes q o w (execTcxoLoss s) := by
  unfold execTcxoLoss
  dsimp only
  repeat' first | (with_reducible first | assumption | apply State.linesSync_kept | apply State.raise_kept | apply State.flag_kept | apply kept_next | apply kept_res_ite | apply kept_ite | apply kept_fst_ite | simp only [kept_mk_iff]) | split

theorem execTcxoReturn_kept (lost : Nat) (s : State) (h : Kept q o w s) :
    KeptRes q o w (execTcxoReturn lost s) := by
  unfold execTcxoReturn
  dsimp only
  repeat' first | (with_reducible first | assumption | apply State.setOfs_kept | apply State.linesSync_kept | apply kept_next | apply kept_res_ite | apply kept_ite | apply kept_fst_ite | simp only [kept_mk_iff]) | split

theorem execXinLoss_kept (s : State) (h : Kept q o w s) :
    KeptRes q o w (execXinLoss s) := by
  unfold execXinLoss
  dsimp only
  repeat' first | (with_reducible first | assumption | apply State.chipReset_kept | apply kept_next | apply kept_res_ite | apply kept_ite | apply kept_fst_ite | simp only [kept_mk_iff]) | split

theorem execXinReturn_kept (s : State) (h : Kept q o w s) :
    KeptRes q o w (execXinReturn s) := by
  unfold execXinReturn
  dsimp only
  repeat' first | (with_reducible first | assumption | apply kept_next | apply kept_res_ite | apply kept_ite | apply kept_fst_ite | simp only [kept_mk_iff])

theorem State.noteDestCrc_kept (s : State) (h : Kept q o w s) :
    Kept q o w (State.noteDestCrc s) := by
  unfold State.noteDestCrc
  dsimp only
  repeat' first | (with_reducible first | assumption | apply kept_ite | apply kept_fst_ite | simp only [kept_mk_iff]) | split

theorem State.releaseEnd_kept (s : State) (h : Kept q o w s) :
    Kept q o w (State.releaseEnd s) := by
  unfold State.releaseEnd
  dsimp only
  repeat' first | (with_reducible first | assumption | apply State.chipReset_kept | apply State.setSys_kept | apply State.twinRecopy_kept | apply State.linesSync_kept | apply kept_ite | apply kept_fst_ite | simp only [kept_mk_iff]) | split

theorem State.fadeEnd_kept (s : State) (h : Kept q o w s) :
    Kept q o w (State.fadeEnd s) := by
  unfold State.fadeEnd
  dsimp only
  repeat' first | (with_reducible first | assumption | apply State.fallbackNow_kept | apply kept_ite | apply kept_fst_ite | apply kept_snd_ite | simp only [kept_mk_iff]) | split

theorem State.dataPlane_kept (s : State) (n : Nat) (found : List QWord) (bad : List (Nat × Nat)) (clips : List (LocalPort × Nat)) (h : Kept q o w s) :
    Kept q o w (State.dataPlane s n found bad clips) := by
  unfold State.dataPlane
  dsimp only
  repeat' first | (with_reducible first | assumption | apply State.linesSync_kept | apply State.playersStep_kept | apply State.portsRx_kept | apply State.rxAll_kept | apply State.fabricStep_kept | apply State.retireOverlay_kept | apply State.txAll_kept | apply State.portsTx_kept | apply State.setPort_kept | apply State.linesStep_kept | apply kept_ite | apply kept_fst_ite | apply kept_snd_ite | apply kept_foldl | apply kept_fst_foldl | simp only [kept_mk_iff]) | split | intro _ _ _ | intro _ _

theorem State.edgeEnd_kept (s : State) (h : Kept q o w s) :
    Kept q o w (State.edgeEnd s) := by
  unfold State.edgeEnd
  dsimp only
  repeat' first | (with_reducible first | assumption | apply State.bellEdge_kept | apply State.fadeEnd_kept | apply State.releaseEnd_kept | apply kept_ite | apply kept_fst_ite | simp only [kept_mk_iff]) | split

theorem execMediaClockEdge_kept (found : List QWord) (bad : List (Fin 64 × Sys2Proof.Word)) (clips : List (LocalPort × Nat)) (s : State) (h : Kept q o w s) :
    KeptRes q o w (execMediaClockEdge found bad clips s) := by
  unfold execMediaClockEdge
  dsimp only
  repeat' first | (with_reducible first | assumption | apply State.dataPlane_kept | apply State.edgeEnd_kept | apply kept_next | apply kept_res_ite | apply kept_ite | apply kept_fst_ite | apply kept_snd_ite | simp only [kept_mk_iff]) | split

theorem execMscStart_kept (s : State) (h : Kept q o w s) :
    KeptRes q o w (execMscStart s) := by
  unfold execMscStart
  dsimp only
  repeat' first | (with_reducible first | assumption | apply kept_next | apply kept_res_ite | apply kept_ite | apply kept_fst_ite | simp only [kept_mk_iff]) | split

theorem State.sadcCodes_kept (s : State) (codes : List Nat) (h : Kept q o w s) :
    Kept q o w (State.sadcCodes s codes) := by
  unfold State.sadcCodes
  repeat' first | (with_reducible first | assumption | apply State.wrN_kept | apply kept_ite | apply kept_fst_ite | apply kept_foldl | apply kept_fst_foldl | simp only [kept_mk_iff]) | intro _ _ _ | intro _ _ | dsimp only

theorem State.deltaBlockStart_kept (s : State) (h : Kept q o w s) :
    Kept q o w (State.deltaBlockStart s) := by
  unfold State.deltaBlockStart
  dsimp only
  repeat' first | (with_reducible first | assumption | apply State.wrN_kept | apply State.serveHeld_kept | apply kept_ite | apply kept_fst_ite | simp only [kept_mk_iff])

theorem State.blockStart_kept (s : State) (codes : List Nat) (back : List (Nat × Bool)) (late : List (Nat × Option Nat)) (h : Kept q o w s) :
    Kept q o w (State.blockStart s codes back late) := by
  unfold State.blockStart
  dsimp only
  repeat' first | (with_reducible first | assumption | apply State.wrN_kept | apply State.noteDestCrc_kept | apply State.deltaBlockStart_kept | apply State.sadcCodes_kept | apply State.gensBlockStart_kept | apply State.attrsBlockStart_kept | apply State.loadsBlockStart_kept | apply State.armSew_kept | apply State.portsBlockStart_kept | apply State.metersBlockStart_kept | apply State.tapsBlockStart_kept | apply State.linesBlockStart_kept | apply kept_ite | apply kept_fst_ite | simp only [kept_mk_iff]) | split

theorem execBlockStart_kept (codes : List (BitVec 12)) (back : List (Fin 16 × Bool)) (late : List (Fin 4096 × Option Sys2Proof.Word)) (s : State) (h : Kept q o w s) :
    KeptRes q o w (execBlockStart codes back late s) := by
  unfold execBlockStart
  repeat' first | (with_reducible first | assumption | apply State.blockStart_kept | apply kept_next | apply kept_res_ite | apply kept_ite | apply kept_fst_ite | apply kept_snd_ite | simp only [kept_mk_iff]) | split | dsimp only

theorem State.anchorTake_kept (s : State) (h : Kept q o w s) :
    Kept q o w (State.anchorTake s) := by
  unfold State.anchorTake
  dsimp only
  repeat' first | (with_reducible first | assumption | apply State.raise_kept | apply State.flag_kept | apply State.wrN_kept | apply State.setFld_kept | apply State.anchorOfs_kept | apply kept_ite | apply kept_fst_ite | simp only [kept_mk_iff]) | split

theorem execAnchorTake_kept (s : State) (h : Kept q o w s) :
    KeptRes q o w (execAnchorTake s) := by
  unfold execAnchorTake
  repeat' first | (with_reducible first | assumption | apply State.anchorTake_kept | apply kept_next | apply kept_res_ite | apply kept_ite | apply kept_fst_ite | simp only [kept_mk_iff]) | split | dsimp only

theorem execBgcfgTakeEffect_kept (s : State) (h : Kept q o w s) :
    KeptRes q o w (execBgcfgTakeEffect s) := by
  unfold execBgcfgTakeEffect
  dsimp only
  repeat' first | (with_reducible first | assumption | apply State.setBit_kept | apply kept_next | apply kept_res_ite | apply kept_ite | apply kept_fst_ite | simp only [kept_mk_iff]) | split

end Sys2Proof.Machine
end

