-- ==== Sys2Proof/Laws/KeptBoot.lean ====
section
/-! SUPPORT. What every function of boot, the pins and the copy engine keeps: the queue, the fuses (`Otp.Same`) and the canonical memory (`Kept`), one lemma a function. -/

set_option maxRecDepth 4000
set_option linter.unusedSimpArgs false

namespace Sys2Proof.Machine

variable {q : List Sys2Proof.Instr} {o : Otp} {w : Bool}

theorem State.configCommit_kept (s : State) (folds : Option (List (Nat × Nat))) (h : Kept q o w s) :
    Kept q o w (State.configCommit s folds).1 := by
  unfold State.configCommit
  dsimp only
  repeat' first | (with_reducible first | assumption | apply kept_ite | apply kept_fst_ite | apply kept_snd_ite | apply kept_nvsPut | simp only [kept_mk_iff]) | split

theorem State.tryApply_kept (s : State) (a : Nat) (f : Fld) (act : State → State)
    (hf : ∀ s, Kept q o w s → Kept q o w (act s)) (h : Kept q o w s) : Kept q o w (State.tryApply s a f act).1 := by
  unfold State.tryApply
  exact State.setBit_kept _ _ _ _ (hf _ (State.setBit_kept _ _ _ _ h))

theorem State.applyGroups_kept {α : Type} (s : State) (es : List (Nat × Nat)) (groups : List (List Nat × α)) (a : Nat) (f : Fld)
    (act : α → State → State) (hf : ∀ x s, Kept q o w s → Kept q o w (act x s)) (h : Kept q o w s) :
    Kept q o w (State.applyGroups s es groups a f act).1 := by
  unfold State.applyGroups
  refine kept_fst_foldl (p := (s, true)) (fun p x hp => ?_) h
  exact kept_fst_ite (State.tryApply_kept _ _ _ _ (hf x.2) hp) hp

theorem State.restoreGroups_kept (s : State) (es : List (Nat × Nat)) (h : Kept q o w s) :
    Kept q o w (State.restoreGroups s es).1 := by
  unfold State.restoreGroups
  dsimp only
  repeat' first | (with_reducible first | assumption | apply State.applyGroups_kept | apply State.dlyApply_kept | apply State.divUpdate_kept | apply State.refLimitApply_kept | apply State.netApply_kept | apply State.portApply_kept | apply State.lineApply_kept | apply kept_ite | apply kept_fst_ite | apply kept_snd_ite | apply kept_foldl | apply kept_fst_foldl | apply kept_nvsPut | simp only [kept_mk_iff]) | split | intro _ _ _ | intro _ _

theorem State.restoreEntries_kept (s : State) (r : CfgRec) (h : Kept q o w s) :
    Kept q o w (State.restoreEntries s r) := by
  unfold State.restoreEntries
  dsimp only
  repeat' first | (with_reducible first | assumption | apply State.busWrite_kept | apply kept_ite | apply kept_fst_ite | apply kept_snd_ite | apply kept_foldl | apply kept_fst_foldl | simp only [kept_mk_iff]) | split | intro _ _ _ | intro _ _

theorem State.restoreConfig_kept (s : State) (h : Kept q o w s) :
    Kept q o w (State.restoreConfig s) := by
  unfold State.restoreConfig
  dsimp only
  repeat' first | (with_reducible first | assumption | apply State.setBit_kept | apply State.restoreEntries_kept | apply State.restoreGroups_kept | apply State.setFld_kept | apply State.ccuConfigChange_kept | apply State.enableFold_kept | apply kept_ite | apply kept_fst_ite | apply kept_snd_ite | apply kept_foldl | apply kept_fst_foldl | simp only [kept_mk_iff]) | split | intro _ _ _ | intro _ _

theorem State.runImage_kept (s : State) (x : FwImage) (slot : Nat) (h : Kept q o w s) :
    Kept q o w (State.runImage s x slot) := by
  have key (b : Boot) : Kept q o w { s with
      mem := { s.mem with shep := (x.body.foldl (fun (r : Sparse Byte × Nat) b => (Sparse.set zeroByte r.1 r.2 b, r.2 + 1))
        (s.mem.shep, 0)).1 }, boot := b } := by
    refine kept_mem h id fun g => ?_
    rw [Mem.wf_iff] at g ⊢
    exact ⟨g.1, g.2.1, Sparse.wf_run zeroByte x.body (s.mem.shep, 0) g.2.2.1, g.2.2.2⟩
  unfold State.runImage
  have h2 := State.setFld_kept _ R.SYS_BOOT F.SYS_BOOT_SECVER (x.secver % 64)
    (State.setFld_kept _ R.SYS_BOOT F.SYS_BOOT_SLOT_RUN slot (key { s.boot with fwver := x.fwver, fwRuns := true, noImage := false }))
  exact kept_ite (State.raise_kept _ _ _ _ h2) h2

theorem State.leaveBoot_kept (s : State) (h : Kept q o w s) :
    Kept q o w (State.leaveBoot s) := by
  unfold State.leaveBoot
  dsimp only
  repeat' first | (with_reducible first | assumption | apply State.setSys_kept | apply State.bootAlarm_kept | apply State.pinReleased_kept | apply State.pinSync_kept | apply State.linesSync_kept | apply kept_ite | apply kept_fst_ite | simp only [kept_mk_iff]) | split

theorem State.leaveNoImage_kept (s : State) (h : Kept q o w s) :
    Kept q o w (State.leaveNoImage s) := by
  unfold State.leaveNoImage
  dsimp only
  repeat' first | (with_reducible first | assumption | apply State.bootFallback_kept | apply kept_ite | apply kept_fst_ite | simp only [kept_mk_iff]) | split

theorem State.firmwareBoot_kept (s : State) (trained : Bool) (h : Kept q o w s) :
    Kept q o w (State.firmwareBoot s trained) := by
  unfold State.firmwareBoot
  dsimp only
  repeat' first | (with_reducible first | assumption | apply State.setFld_kept | apply State.setBit_kept | apply State.noteSlots_kept | apply State.cachePatterns_kept | apply State.restoreConfig_kept | apply State.leaveBoot_kept | apply kept_ite | apply kept_fst_ite | simp only [kept_mk_iff]) | split

theorem State.romStart_kept (s : State) (h : Kept q o w s) : Kept q o w (State.romStart s) := by
  unfold State.romStart
  refine State.setFld_kept _ _ _ _ (State.setBit_kept _ _ _ _ (State.wrN_kept _ _ _ (kept_mem h ?_ ?_)))
  · intro g
    dsimp only
    split
    · exact { g with wiped := fun _ => rfl }
    · exact g
  · intro g
    split
    · exact Mem.wf_wipeNvs _ g
    · exact g

theorem execResetEnd_kept (flash : List Sys2Proof.Byte × List Sys2Proof.Byte) (sig : Bool × Bool) (trained : Bool) (s : State) (h : Kept q o w s) :
    KeptRes q o w (execResetEnd flash sig trained s) := by
  unfold execResetEnd
  dsimp only
  repeat' first | (with_reducible first | assumption | apply State.romStart_kept | apply State.firmwareBoot_kept | apply State.runImage_kept | apply State.leaveNoImage_kept | apply kept_next | apply kept_res_ite | apply kept_ite | apply kept_fst_ite | apply kept_snd_ite | simp only [kept_mk_iff]) | split

theorem execBootGo_kept (image : Option (List Sys2Proof.Byte)) (sig : Bool) (trained : Bool) (s : State) (h : Kept q o w s) :
    KeptRes q o w (execBootGo image sig trained s) := by
  unfold execBootGo
  repeat' first | (with_reducible first | assumption | apply State.firmwareBoot_kept | apply State.runImage_kept | apply State.setBit_kept | apply kept_next | apply kept_res_ite | apply kept_ite | apply kept_fst_ite | simp only [kept_mk_iff]) | split | dsimp only

theorem execRoleBWaitEnd_kept (samples : Nat) (s : State) (h : Kept q o w s) :
    KeptRes q o w (execRoleBWaitEnd samples s) := by
  unfold execRoleBWaitEnd
  repeat' first | (with_reducible first | assumption | apply State.chipReset_kept | apply State.bootFallback_kept | apply State.leaveBoot_kept | apply kept_next | apply kept_res_ite | apply kept_ite | apply kept_fst_ite | apply kept_snd_ite | simp only [kept_mk_iff]) | split | dsimp only

theorem execPowerOnReset_kept (bootsel : Fin 8) (roleB : Bool) (v33 : BitVec 6) (s : State) (h : Kept q o w s) :
    KeptRes q o w (execPowerOnReset bootsel roleB v33 s) := by
  unfold execPowerOnReset
  dsimp only
  repeat' first | (with_reducible first | assumption | apply State.powerOnReset_kept | apply kept_next | apply kept_res_ite | apply kept_ite | apply kept_fst_ite | simp only [kept_mk_iff])

theorem execBrownOut_kept (s : State) (h : Kept q o w s) :
    KeptRes q o w (execBrownOut s) := by
  unfold execBrownOut
  dsimp only
  repeat' first | (with_reducible first | assumption | apply State.powerOnReset_kept | apply kept_next | apply kept_res_ite | apply kept_ite | apply kept_fst_ite | simp only [kept_mk_iff])

theorem execResetNPin_kept (low : Bool) (s : State) (h : Kept q o w s) :
    KeptRes q o w (execResetNPin low s) := by
  unfold execResetNPin
  dsimp only
  repeat' first | (with_reducible first | assumption | apply State.chipReset_kept | apply kept_next | apply kept_res_ite | apply kept_ite | apply kept_fst_ite | simp only [kept_mk_iff]) | split

theorem State.disablePcie_kept (s : State) (h : Kept q o w s) :
    Kept q o w (State.disablePcie s) := by
  unfold State.disablePcie
  repeat' first | (with_reducible first | assumption | apply State.ccuConfigChange_kept | apply State.disableFold_kept | apply kept_ite | apply kept_fst_ite | apply kept_foldl | apply kept_fst_foldl | simp only [kept_mk_iff]) | split | intro _ _ _ | intro _ _ | dsimp only

theorem execPerst_kept (s : State) (h : Kept q o w s) :
    KeptRes q o w (execPerst s) := by
  unfold execPerst
  dsimp only
  repeat' first | (with_reducible first | assumption | apply State.disablePcie_kept | apply kept_next | apply kept_res_ite | apply kept_ite | apply kept_fst_ite | simp only [kept_mk_iff])

theorem execPcieLinkUp_kept (s : State) (h : Kept q o w s) :
    KeptRes q o w (execPcieLinkUp s) := by
  unfold execPcieLinkUp
  dsimp only
  repeat' first | (with_reducible first | assumption | apply State.ccuConfigChange_kept | apply State.enableFold_kept | apply kept_next | apply kept_res_ite | apply kept_ite | apply kept_fst_ite | apply kept_snd_ite | apply kept_foldl | apply kept_fst_foldl | simp only [kept_mk_iff]) | split | intro _ _ _ | intro _ _

theorem State.jtag_kept (s : State) (ir : Nat) (h : Kept q o w s) :
    Kept q o w (State.jtag s ir) := by
  unfold State.jtag
  dsimp only
  repeat' first | (with_reducible first | assumption | apply kept_ite | apply kept_fst_ite | simp only [kept_mk_iff])

theorem execJtagExtest_kept (s : State) (h : Kept q o w s) :
    KeptRes q o w (execJtagExtest s) := by
  unfold execJtagExtest
  repeat' first | (with_reducible first | assumption | apply State.jtag_kept | apply kept_next | apply kept_res_ite | apply kept_ite | apply kept_fst_ite | simp only [kept_mk_iff]) | dsimp only

theorem execJtagSamplePreload_kept (s : State) (h : Kept q o w s) :
    KeptRes q o w (execJtagSamplePreload s) := by
  unfold execJtagSamplePreload
  repeat' first | (with_reducible first | assumption | apply State.jtag_kept | apply kept_next | apply kept_res_ite | apply kept_ite | apply kept_fst_ite | simp only [kept_mk_iff]) | dsimp only

theorem execJtagIdcode_kept (s : State) (h : Kept q o w s) :
    KeptRes q o w (execJtagIdcode s) := by
  unfold execJtagIdcode
  repeat' first | (with_reducible first | assumption | apply State.jtag_kept | apply kept_next | apply kept_res_ite | apply kept_ite | apply kept_fst_ite | simp only [kept_mk_iff]) | dsimp only

theorem execJtagHighz_kept (s : State) (h : Kept q o w s) :
    KeptRes q o w (execJtagHighz s) := by
  unfold execJtagHighz
  repeat' first | (with_reducible first | assumption | apply State.jtag_kept | apply kept_next | apply kept_res_ite | apply kept_ite | apply kept_fst_ite | simp only [kept_mk_iff]) | dsimp only

theorem execJtagClamp_kept (s : State) (h : Kept q o w s) :
    KeptRes q o w (execJtagClamp s) := by
  unfold execJtagClamp
  repeat' first | (with_reducible first | assumption | apply State.jtag_kept | apply kept_next | apply kept_res_ite | apply kept_ite | apply kept_fst_ite | simp only [kept_mk_iff]) | dsimp only

theorem execJtagChipRst_kept (s : State) (h : Kept q o w s) :
    KeptRes q o w (execJtagChipRst s) := by
  unfold execJtagChipRst
  repeat' first | (with_reducible first | assumption | apply State.chipReset_kept | apply State.jtag_kept | apply kept_next | apply kept_res_ite | apply kept_ite | apply kept_fst_ite | simp only [kept_mk_iff]) | dsimp only

theorem execJtagBypass_kept (s : State) (h : Kept q o w s) :
    KeptRes q o w (execJtagBypass s) := by
  unfold execJtagBypass
  repeat' first | (with_reducible first | assumption | apply State.jtag_kept | apply kept_next | apply kept_res_ite | apply kept_ite | apply kept_fst_ite | simp only [kept_mk_iff]) | dsimp only

theorem execJtagTapReset_kept (s : State) (h : Kept q o w s) :
    KeptRes q o w (execJtagTapReset s) := by
  unfold execJtagTapReset
  dsimp only
  repeat' first | (with_reducible first | assumption | apply State.jtag_kept | apply State.chipReset_kept | apply kept_next | apply kept_res_ite | apply kept_ite | apply kept_fst_ite | simp only [kept_mk_iff]) | split

theorem State.asSolo_kept (s : State) (act : State → State) (hf : ∀ s, Kept q o w s → Kept q o w (act s)) (h : Kept q o w s) :
    Kept q o w (State.asSolo s act) := by
  unfold State.asSolo
  exact kept_ite (State.setTstate_kept _ _ (hf _ (State.setTstate_kept _ _ h))) (hf _ (State.setTstate_kept _ _ h))

theorem State.takeEvent_kept (s : State) (e : Event) (h : Kept q o w s) :
    Kept q o w (State.takeEvent s e) := by
  unfold State.takeEvent
  dsimp only
  repeat' first | (with_reducible first | assumption | apply State.pendObj_kept | apply State.wr64_kept | apply State.setBit_kept | apply State.setBstate_kept | apply kept_ite | apply kept_fst_ite | apply kept_foldl | apply kept_fst_foldl | simp only [kept_mk_iff]) | split | intro _ _ _ | intro _ _

theorem State.atMsc_kept (s : State) (n : Nat) (act : State → State) (hf : ∀ s, Kept q o w s → Kept q o w (act s))
    (h : Kept q o w s) : Kept q o w (State.atMsc s n act) := hf { s with msc := n } h

theorem State.takeReg_kept (s : State) (a : Nat) (v : Sys2Proof.Word) (h : Kept q o w s) :
    Kept q o w (State.takeReg s a v) := by
  unfold State.takeReg
  dsimp only
  repeat' first | (with_reducible first | assumption | apply State.ccuConfigChange_kept | apply State.setShadow_kept | apply State.wr_kept | apply State.putRx_kept | apply State.putTx_kept | apply State.putPort_kept | apply kept_ite | apply kept_fst_ite | simp only [kept_mk_iff]) | split

theorem State.takeItem_kept (s : State) (i : CopyItem) (h : Kept q o w s) :
    Kept q o w (State.takeItem s i) := by
  unfold State.takeItem
  dsimp only
  repeat' first | (with_reducible first | assumption | apply State.asSolo_kept | apply State.busWrite_kept | apply State.takeReg_kept | apply State.startObj_kept | apply State.ccuChange_kept | apply State.setCore_kept | apply State.takeEvent_kept | apply State.cancelEvent_kept | apply State.wr_kept | apply State.atMsc_kept | apply State.alarmActivate_kept | apply State.alarmRelease_kept | apply State.noteSlots_kept | apply State.patternLoad_kept | apply State.loadsBlockStart_kept | apply State.configCommit_kept | apply kept_ite | apply kept_fst_ite | apply kept_snd_ite | apply kept_foldl | apply kept_fst_foldl | apply kept_nvsPut | simp only [kept_mk_iff]) | split | intro _ _ _ | intro _ _

theorem State.liveCopied_kept (s : State) (old : Bank) (h : Kept q o w s) :
    Kept q o w (State.liveCopied s old) := by
  unfold State.liveCopied
  repeat' first | (with_reducible first | assumption | apply State.resolo_kept | apply State.swapBuses_kept | apply kept_ite | apply kept_fst_ite | simp only [kept_mk_iff]) | split | dsimp only

theorem State.compareCrc_kept (s : State) (k : Nat) (crc : Nat) (h : Kept q o w s) :
    Kept q o w (State.compareCrc s k crc) := by
  unfold State.compareCrc
  dsimp only
  repeat' first | (with_reducible first | assumption | apply State.count_kept | apply State.raise_kept | apply State.flag_kept | apply State.setTstate_kept | apply State.leavePaired_kept | apply kept_ite | apply kept_fst_ite | apply kept_snd_ite | simp only [kept_mk_iff]) | split

theorem execPerBlockCopyApply_kept (items : List CopyItem) (crc : Option (Nat × Sys2Proof.Word)) (s : State) (h : Kept q o w s) :
    KeptRes q o w (execPerBlockCopyApply items crc s) := by
  unfold execPerBlockCopyApply
  dsimp only
  repeat' first | (with_reducible first | assumption | apply State.takeItem_kept | apply State.compareCrc_kept | apply State.liveCopied_kept | apply kept_next | apply kept_res_ite | apply kept_ite | apply kept_fst_ite | apply kept_snd_ite | apply kept_foldl | apply kept_fst_foldl | simp only [kept_mk_iff]) | split | intro _ _ _ | intro _ _

end Sys2Proof.Machine
end

