-- ==== Sys2Proof/Laws/KeptDweul.lean ====
section
/-! SUPPORT. What every function of the host commands, first part keeps: the queue, the fuses (`Otp.Same`) and the canonical memory (`Kept`), one lemma a function. -/

set_option maxRecDepth 4000
set_option linter.unusedSimpArgs false

namespace Sys2Proof.Machine

variable {q : List Sys2Proof.Instr} {o : Otp} {w : Bool}

theorem State.takeIn_kept (s : State) (f : Nat) (h' : Hdr) (h : Kept q o w s) :
    Kept q o w (State.takeIn s f h') := by
  unfold State.takeIn
  dsimp only
  repeat' first | (with_reducible first | assumption | apply State.doorbellFold_kept | apply State.readRing_kept | apply kept_ite | apply kept_fst_ite | simp only [kept_mk_iff]) | split

theorem State.finish_kept (s t : State) (f : Nat) (e : Taken) (a : Option Ans) (h : Kept q o w s) (ht : Kept q o w t) :
    Kept q o w (State.finish s t f e a).1 := by
  unfold State.finish
  refine kept_fst_ite (State.raise_kept _ _ _ _ (State.flag_kept _ _ _ h)) ?_
  split
  · exact kept_fst_ite (State.answer_kept _ _ _ _ ht) ht
  · exact ht

theorem State.dropStream_kept (s : State) (f : Nat) (h : Kept q o w s) :
    Kept q o w (State.dropStream s f) := by
  unfold State.dropStream
  dsimp only
  repeat' first | (with_reducible first | assumption | apply State.syncFold_kept | apply State.setFold_kept | apply kept_ite | apply kept_fst_ite | simp only [kept_mk_iff]) | split

theorem State.dweul_kept (s : State) (op : Op) (f : Nat) (hd : Hdr) (params : List Sys2Proof.Byte) (len : Nat)
    (body : State → Cmd → State × Option Ans) (hf : ∀ s c, Kept q o w s → Kept q o w (body s c).1) (h : Kept q o w s) :
    Kept q o w (State.dweul s op f hd params len body).1 := by
  unfold State.dweul
  refine kept_fst_ite h ?_
  have h2 := State.takeIn_kept s f { hd with opcode := op.code } h
  dsimp only
  split
  · exact h2
  · have h3 := State.dropStream_kept _ f h2
    split
    · exact State.finish_kept _ _ _ _ _ h3 h3
    · exact State.finish_kept _ _ _ _ _ h3 (hf _ _ h3)

theorem State.bulkFetched_kept (s : State) (op : Op) (e : Taken) (c : Cmd) (params block : List Sys2Proof.Byte) (fixed : Nat)
    (body : State → Cmd → List Sys2Proof.Byte → State × Option Ans) (hf : ∀ s c b, Kept q o w s → Kept q o w (body s c b).1)
    (h : Kept q o w s) : Kept q o w (State.bulkFetched s op e c params block fixed body).1 := by
  unfold State.bulkFetched
  dsimp only
  split
  · exact State.finish_kept _ _ _ _ _ h h
  · exact kept_fst_ite (State.finish_kept _ _ _ _ _ h h) (kept_fst_ite h (kept_fst_ite (State.finish_kept _ _ _ _ _ h h)
      (kept_fst_ite h (State.finish_kept _ _ _ _ _ h (hf _ _ _ h)))))

theorem State.bulkSegment_kept (s : State) (op : Op) (e : Taken) (c : Cmd) (params : List Sys2Proof.Byte) (fixed : Nat)
    (body : State → Cmd → List Sys2Proof.Byte → State × Option Ans) (hf : ∀ s c b, Kept q o w s → Kept q o w (body s c b).1)
    (h : Kept q o w s) : Kept q o w (State.bulkSegment s op e c params fixed body).1 := by
  unfold State.bulkSegment
  have h2 := State.dropStream_kept s c.fold h
  have h3 := State.finish_kept _ _ c.fold e (some badLength) h2 h2
  refine kept_fst_ite (State.finish_kept _ _ _ _ _ h2 h2) ?_
  split
  · exact State.finish_kept _ _ _ _ _ h2 h2
  · refine kept_fst_ite (State.finish_kept _ _ _ _ _ h2 h2) (kept_fst_ite (State.finish_kept _ _ _ _ _ h2 h2) (kept_fst_ite
      (State.finish_kept _ _ _ _ _ h2 (hf _ _ _ h2)) ?_))
    have h4 := fun y => State.syncFold_kept _ c.fold (State.setFold_kept s c.fold y h)
    exact State.finish_kept _ _ _ _ _ (h4 _) (h4 _)

theorem State.dweulBulk_kept (s : State) (op : Op) (f : Nat) (hd : Hdr) (params block : List Sys2Proof.Byte) (fixed : Nat)
    (body : State → Cmd → List Sys2Proof.Byte → State × Option Ans) (hf : ∀ s c b, Kept q o w s → Kept q o w (body s c b).1)
    (h : Kept q o w s) : Kept q o w (State.dweulBulk s op f hd params block fixed body).1 := by
  unfold State.dweulBulk
  refine kept_fst_ite h ?_
  have h2 := State.takeIn_kept s f { hd with opcode := op.code } h
  dsimp only
  split
  · exact h2
  · exact kept_fst_ite (State.bulkSegment_kept _ _ _ _ _ _ _ hf h2) (State.bulkFetched_kept _ _ _ _ _ _ _ _ hf h2)

theorem State.shepWrite_kept (s : State) (a : Nat) (v : Nat) (h : Kept q o w s) :
    Kept q o w (State.shepWrite s a v) := by
  unfold State.shepWrite
  repeat' first | (with_reducible first | assumption | apply State.busWrite_kept | apply kept_ite | apply kept_fst_ite | simp only [kept_mk_iff]) | dsimp only

theorem State.shepWrites_kept (s : State) (l : List (Nat × Nat)) (h : Kept q o w s) :
    Kept q o w (State.shepWrites s l) := by
  unfold State.shepWrites
  repeat' first | (with_reducible first | assumption | apply State.shepWrite_kept | apply kept_ite | apply kept_fst_ite | apply kept_snd_ite | apply kept_foldl | apply kept_fst_foldl | simp only [kept_mk_iff]) | intro _ _ _ | intro _ _ | dsimp only

theorem State.enterEvent_kept (s : State) (c : Cmd) (act : Action) (target : Nat) (members : List Obj) (h : Kept q o w s) :
    Kept q o w (State.enterEvent s c act target members).1 := by
  unfold State.enterEvent
  dsimp only
  repeat' first | (with_reducible first | assumption | apply State.arrive_kept | apply kept_ite | apply kept_fst_ite | apply kept_snd_ite | simp only [kept_mk_iff])

theorem State.shepTrap_kept (s : State) (h : Kept q o w s) :
    Kept q o w (State.shepTrap s) := by
  unfold State.shepTrap
  dsimp only
  repeat' first | (with_reducible first | assumption | apply State.raise_kept | apply kept_ite | apply kept_fst_ite | simp only [kept_mk_iff])

theorem State.readEach_kept (s : State) (n : Nat) (read : State → Nat → State × List Sys2Proof.Byte × Bool)
    (hf : ∀ s i, Kept q o w s → Kept q o w (read s i).1) (h : Kept q o w s) : Kept q o w (State.readEach s n read).1 := by
  unfold State.readEach
  have h2 := kept_fst_foldl (q := q) (o := o) (w := w)
    (f := fun (a : State × List (List Byte) × Bool) i =>
      if a.2.2 then a
      else
        let w := read a.1 i
        (w.1, w.2.1 :: a.2.1, w.2.2)) (fun p x hp => kept_fst_ite hp (hf p.1 x hp)) (l := List.range n) (p := (s, [], false)) h
  exact kept_fst_ite (State.shepTrap_kept _ h2) h2

theorem State.quiltReads_kept (s : State) (l : List QWord) (h : Kept q o w s) :
    Kept q o w (State.quiltReads s l).1 := by
  unfold State.quiltReads
  dsimp only
  repeat' first | (with_reducible first | assumption | apply State.quiltWord_kept | apply kept_ite | apply kept_fst_ite | apply kept_snd_ite | apply kept_foldl | apply kept_fst_foldl | simp only [kept_mk_iff]) | intro _ _ _ | intro _ _

theorem execDwNop_kept (f : Fin 128) (h' : Hdr) (params : List Sys2Proof.Byte) (s : State) (h : Kept q o w s) :
    KeptRes q o w (execDwNop f h' params s) := by
  unfold execDwNop
  repeat' first | (with_reducible first | assumption | apply State.dweul_kept | apply kept_next | apply kept_res_ite | apply kept_ite | apply kept_fst_ite | apply kept_snd_ite | apply kept_foldl | apply kept_fst_foldl | apply kept_nvsPut | simp only [kept_mk_iff]) | split | intro _ _ _ | intro _ _ | dsimp only

theorem State.dwInfo_kept (s : State) (x2 : Cmd) (h : Kept q o w s) :
    Kept q o w (State.dwInfo s x2).1 := by
  unfold State.dwInfo
  dsimp only
  repeat' first | (with_reducible first | assumption | apply kept_ite | apply kept_fst_ite | simp only [kept_mk_iff])

theorem execDwGetInfo_kept (f : Fin 128) (h' : Hdr) (params : List Sys2Proof.Byte) (s : State) (h : Kept q o w s) :
    KeptRes q o w (execDwGetInfo f h' params s) := by
  unfold execDwGetInfo
  repeat' first | (with_reducible first | assumption | apply State.dweul_kept | apply State.dwInfo_kept | apply kept_next | apply kept_res_ite | apply kept_ite | apply kept_fst_ite | simp only [kept_mk_iff]) | dsimp only

theorem State.dwSetMode_kept (s : State) (c : Cmd) (h : Kept q o w s) :
    Kept q o w (State.dwSetMode s c).1 := by
  unfold State.dwSetMode
  dsimp only
  repeat' first | (with_reducible first | assumption | apply State.enterEvent_kept | apply kept_ite | apply kept_fst_ite | apply kept_snd_ite | simp only [kept_mk_iff]) | split

theorem execDwSetMode_kept (f : Fin 128) (h' : Hdr) (params : List Sys2Proof.Byte) (s : State) (h : Kept q o w s) :
    KeptRes q o w (execDwSetMode f h' params s) := by
  unfold execDwSetMode
  repeat' first | (with_reducible first | assumption | apply State.dweul_kept | apply State.dwSetMode_kept | apply kept_next | apply kept_res_ite | apply kept_ite | apply kept_fst_ite | simp only [kept_mk_iff]) | dsimp only

theorem State.dwCancel_kept (s : State) (c : Cmd) (h : Kept q o w s) :
    Kept q o w (State.dwCancel s c).1 := by
  unfold State.dwCancel
  repeat' first | (with_reducible first | assumption | apply State.cancelEvent_kept | apply kept_ite | apply kept_fst_ite | simp only [kept_mk_iff]) | split | dsimp only

theorem execDwEventCancel_kept (f : Fin 128) (h' : Hdr) (params : List Sys2Proof.Byte) (s : State) (h : Kept q o w s) :
    KeptRes q o w (execDwEventCancel f h' params s) := by
  unfold execDwEventCancel
  repeat' first | (with_reducible first | assumption | apply State.dweul_kept | apply State.dwCancel_kept | apply kept_next | apply kept_res_ite | apply kept_ite | apply kept_fst_ite | simp only [kept_mk_iff]) | dsimp only

theorem State.regReads_kept (s : State) (a n i : Nat) (l : List Nat) (h : Kept q o w s) :
    Kept q o w (State.regReads s a n i l).1 := by
  induction n generalizing s i l with
  | zero => exact h
  | succ n ih =>
    unfold State.regReads
    have h2 := State.busRead_kept s Master.shepherd ((a + 4 * i) % 2 ^ 32) h
    exact kept_fst_ite h2 (kept_fst_ite h2 (ih _ _ _ h2))

theorem State.dwRegRead_kept (s : State) (c : Cmd) (h : Kept q o w s) : Kept q o w (State.dwRegRead s c).1 := by
  unfold State.dwRegRead
  refine kept_fst_ite h ?_
  have h2 := State.regReads_kept s (c.u32 0) (c.u16 4) 0 [] h
  split <;> rename_i g <;> rw [g] at h2
  · exact h2
  · exact State.shepTrap_kept _ h2
  · exact h2

theorem execDwRegRead_kept (f : Fin 128) (h' : Hdr) (params : List Sys2Proof.Byte) (s : State) (h : Kept q o w s) :
    KeptRes q o w (execDwRegRead f h' params s) := by
  unfold execDwRegRead
  repeat' first | (with_reducible first | assumption | apply State.dweul_kept | apply State.dwRegRead_kept | apply kept_next | apply kept_res_ite | apply kept_ite | apply kept_fst_ite | simp only [kept_mk_iff]) | dsimp only

theorem State.regWrites_kept (s : State) (a : Nat) (l : List Nat) (i : Nat) (h : Kept q o w s) :
    Kept q o w (State.regWrites s a l i).1 := by
  induction l generalizing s i with
  | nil => exact h
  | cons v l ih =>
    unfold State.regWrites
    have h2 := State.shepWrite_kept s ((a + 4 * i) % 2 ^ 32) v h
    exact kept_fst_ite h2 (ih _ _ h2)

theorem State.dwRegWrite_kept (s : State) (c : Cmd) (h : Kept q o w s) : Kept q o w (State.dwRegWrite s c).1 := by
  unfold State.dwRegWrite
  refine kept_fst_ite h ?_
  have h2 := State.regWrites_kept s (c.u32 0) (List.map (fun i => c.u32 (8 + 4 * i)) (List.range (c.u16 4))) 0 h
  dsimp only
  split <;> rename_i g <;> rw [g] at h2 <;> exact h2

theorem execDwRegWrite_kept (f : Fin 128) (h' : Hdr) (params : List Sys2Proof.Byte) (s : State) (h : Kept q o w s) :
    KeptRes q o w (execDwRegWrite f h' params s) := by
  unfold execDwRegWrite
  repeat' first | (with_reducible first | assumption | apply State.dweul_kept | apply State.dwRegWrite_kept | apply kept_next | apply kept_res_ite | apply kept_ite | apply kept_fst_ite | simp only [kept_mk_iff]) | dsimp only

theorem State.dwFoldInfo_kept (s : State) (c : Cmd) (h : Kept q o w s) :
    Kept q o w (State.dwFoldInfo s c).1 := by
  unfold State.dwFoldInfo
  dsimp only
  repeat' first | (with_reducible first | assumption | apply kept_ite | apply kept_fst_ite | simp only [kept_mk_iff])

theorem execDwFoldInfo_kept (f : Fin 128) (h' : Hdr) (params : List Sys2Proof.Byte) (s : State) (h : Kept q o w s) :
    KeptRes q o w (execDwFoldInfo f h' params s) := by
  unfold execDwFoldInfo
  repeat' first | (with_reducible first | assumption | apply State.dweul_kept | apply State.dwFoldInfo_kept | apply kept_next | apply kept_res_ite | apply kept_ite | apply kept_fst_ite | simp only [kept_mk_iff]) | dsimp only

theorem State.dwGroupCancel_kept (s : State) (c : Cmd) (h : Kept q o w s) :
    Kept q o w (State.dwGroupCancel s c).1 := by
  unfold State.dwGroupCancel
  dsimp only
  repeat' first | (with_reducible first | assumption | apply State.cancelEvent_kept | apply kept_ite | apply kept_fst_ite | apply kept_foldl | apply kept_fst_foldl | simp only [kept_mk_iff]) | split | intro _ _ _ | intro _ _

theorem execDwGroupCancel_kept (f : Fin 128) (h' : Hdr) (params : List Sys2Proof.Byte) (s : State) (h : Kept q o w s) :
    KeptRes q o w (execDwGroupCancel f h' params s) := by
  unfold execDwGroupCancel
  repeat' first | (with_reducible first | assumption | apply State.dweul_kept | apply State.dwGroupCancel_kept | apply kept_next | apply kept_res_ite | apply kept_ite | apply kept_fst_ite | simp only [kept_mk_iff]) | dsimp only

theorem State.shepSlot_kept (s : State) (key : Nat) (v : Nat) (h : Kept q o w s) :
    Kept q o w (State.shepSlot s key v) := by
  unfold State.shepSlot
  dsimp only
  repeat' first | (with_reducible first | assumption | apply State.shepWrites_kept | apply kept_ite | apply kept_fst_ite | simp only [kept_mk_iff])

theorem State.dwStitchRead_kept (s : State) (c : Cmd) (h : Kept q o w s) :
    Kept q o w (State.dwStitchRead s c).1 := by
  unfold State.dwStitchRead
  dsimp only
  repeat' first | (with_reducible first | assumption | apply State.readEach_kept | apply State.quiltReads_kept | apply kept_ite | apply kept_fst_ite | apply kept_snd_ite | apply kept_foldl | apply kept_fst_foldl | apply kept_nvsPut | simp only [kept_mk_iff]) | split | intro _ _ _ | intro _ _

theorem execDwStitchRead_kept (f : Fin 128) (h' : Hdr) (params : List Sys2Proof.Byte) (s : State) (h : Kept q o w s) :
    KeptRes q o w (execDwStitchRead f h' params s) := by
  unfold execDwStitchRead
  repeat' first | (with_reducible first | assumption | apply State.dweul_kept | apply State.dwStitchRead_kept | apply kept_next | apply kept_res_ite | apply kept_ite | apply kept_fst_ite | simp only [kept_mk_iff]) | dsimp only

theorem State.dwStitchBaste_kept (s : State) (c : Cmd) (h : Kept q o w s) :
    Kept q o w (State.dwStitchBaste s c).1 := by
  unfold State.dwStitchBaste
  dsimp only
  repeat' first | (with_reducible first | assumption | apply State.seamBusy_kept | apply State.shepSlot_kept | apply kept_ite | apply kept_fst_ite | apply kept_foldl | apply kept_fst_foldl | simp only [kept_mk_iff]) | split | intro _ _ _ | intro _ _

theorem execDwStitchBaste_kept (f : Fin 128) (h' : Hdr) (params : List Sys2Proof.Byte) (s : State) (h : Kept q o w s) :
    KeptRes q o w (execDwStitchBaste f h' params s) := by
  unfold execDwStitchBaste
  repeat' first | (with_reducible first | assumption | apply State.dweul_kept | apply State.dwStitchBaste_kept | apply kept_next | apply kept_res_ite | apply kept_ite | apply kept_fst_ite | simp only [kept_mk_iff]) | dsimp only

theorem State.dwStitchDirect_kept (s : State) (c : Cmd) (h : Kept q o w s) :
    Kept q o w (State.dwStitchDirect s c).1 := by
  unfold State.dwStitchDirect
  dsimp only
  repeat' first | (with_reducible first | assumption | apply State.dwrRecord_kept | apply kept_ite | apply kept_fst_ite | apply kept_snd_ite | simp only [kept_mk_iff]) | split

theorem execDwStitchDirect_kept (f : Fin 128) (h' : Hdr) (params : List Sys2Proof.Byte) (s : State) (h : Kept q o w s) :
    KeptRes q o w (execDwStitchDirect f h' params s) := by
  unfold execDwStitchDirect
  repeat' first | (with_reducible first | assumption | apply State.dweul_kept | apply State.dwStitchDirect_kept | apply kept_next | apply kept_res_ite | apply kept_ite | apply kept_fst_ite | simp only [kept_mk_iff]) | dsimp only

theorem State.dwDescRead_kept (s : State) (c : Cmd) (h : Kept q o w s) :
    Kept q o w (State.dwDescRead s c).1 := by
  unfold State.dwDescRead
  dsimp only
  repeat' first | (with_reducible first | assumption | apply State.readEach_kept | apply State.quiltReads_kept | apply kept_ite | apply kept_fst_ite | apply kept_snd_ite | apply kept_foldl | apply kept_fst_foldl | apply kept_nvsPut | simp only [kept_mk_iff]) | split | intro _ _ _ | intro _ _

theorem execDwDescRead_kept (f : Fin 128) (h' : Hdr) (params : List Sys2Proof.Byte) (s : State) (h : Kept q o w s) :
    KeptRes q o w (execDwDescRead f h' params s) := by
  unfold execDwDescRead
  repeat' first | (with_reducible first | assumption | apply State.dweul_kept | apply State.dwDescRead_kept | apply kept_next | apply kept_res_ite | apply kept_ite | apply kept_fst_ite | simp only [kept_mk_iff]) | dsimp only

theorem State.dwDescBaste_kept (s : State) (c : Cmd) (h : Kept q o w s) :
    Kept q o w (State.dwDescBaste s c).1 := by
  unfold State.dwDescBaste
  dsimp only
  repeat' first | (with_reducible first | assumption | apply State.seamBusy_kept | apply State.shepWrites_kept | apply kept_ite | apply kept_fst_ite | simp only [kept_mk_iff]) | split

theorem execDwDescBaste_kept (f : Fin 128) (h' : Hdr) (params : List Sys2Proof.Byte) (s : State) (h : Kept q o w s) :
    KeptRes q o w (execDwDescBaste f h' params s) := by
  unfold execDwDescBaste
  repeat' first | (with_reducible first | assumption | apply State.dweul_kept | apply State.dwDescBaste_kept | apply kept_next | apply kept_res_ite | apply kept_ite | apply kept_fst_ite | simp only [kept_mk_iff]) | dsimp only

theorem State.dwDmapBaste_kept (s : State) (c : Cmd) (h : Kept q o w s) :
    Kept q o w (State.dwDmapBaste s c).1 := by
  unfold State.dwDmapBaste
  dsimp only
  repeat' first | (with_reducible first | assumption | apply State.seamBusy_kept | apply State.shepWrites_kept | apply kept_ite | apply kept_fst_ite | simp only [kept_mk_iff]) | split

theorem execDwDmapBaste_kept (f : Fin 128) (h' : Hdr) (params : List Sys2Proof.Byte) (s : State) (h : Kept q o w s) :
    KeptRes q o w (execDwDmapBaste f h' params s) := by
  unfold execDwDmapBaste
  repeat' first | (with_reducible first | assumption | apply State.dweul_kept | apply State.dwDmapBaste_kept | apply kept_next | apply kept_res_ite | apply kept_ite | apply kept_fst_ite | simp only [kept_mk_iff]) | dsimp only

theorem State.dwSrcAttr_kept (s : State) (c : Cmd) (h : Kept q o w s) :
    Kept q o w (State.dwSrcAttr s c).1 := by
  unfold State.dwSrcAttr
  dsimp only
  repeat' first | (with_reducible first | assumption | apply State.shepWrites_kept | apply kept_ite | apply kept_fst_ite | simp only [kept_mk_iff]) | split

theorem execDwSrcAttrSet_kept (f : Fin 128) (h' : Hdr) (params : List Sys2Proof.Byte) (s : State) (h : Kept q o w s) :
    KeptRes q o w (execDwSrcAttrSet f h' params s) := by
  unfold execDwSrcAttrSet
  repeat' first | (with_reducible first | assumption | apply State.dweul_kept | apply State.dwSrcAttr_kept | apply kept_next | apply kept_res_ite | apply kept_ite | apply kept_fst_ite | simp only [kept_mk_iff]) | dsimp only

theorem State.dwMeterRead_kept (s : State) (c : Cmd) (h : Kept q o w s) :
    Kept q o w (State.dwMeterRead s c).1 := by
  unfold State.dwMeterRead
  dsimp only
  repeat' first | (with_reducible first | assumption | apply State.readEach_kept | apply State.meterPeak_kept | apply kept_ite | apply kept_fst_ite | apply kept_snd_ite | apply kept_foldl | apply kept_fst_foldl | apply kept_nvsPut | simp only [kept_mk_iff]) | split | intro _ _ _ | intro _ _

theorem execDwMeterRead_kept (f : Fin 128) (h' : Hdr) (params : List Sys2Proof.Byte) (s : State) (h : Kept q o w s) :
    KeptRes q o w (execDwMeterRead f h' params s) := by
  unfold execDwMeterRead
  repeat' first | (with_reducible first | assumption | apply State.dweul_kept | apply State.dwMeterRead_kept | apply kept_next | apply kept_res_ite | apply kept_ite | apply kept_fst_ite | simp only [kept_mk_iff]) | dsimp only

theorem State.dwBasteImage_kept (s : State) (x2 : Cmd) (bs : List Sys2Proof.Byte) (h : Kept q o w s) :
    Kept q o w (State.dwBasteImage s x2 bs).1 := by
  unfold State.dwBasteImage
  dsimp only
  repeat' first | (with_reducible first | assumption | apply State.seamBusy_kept | apply State.setBaste_kept | apply kept_ite | apply kept_fst_ite | simp only [kept_mk_iff]) | split

theorem execDwBasteImage_kept (f : Fin 128) (h' : Hdr) (params : List Sys2Proof.Byte) (block : List Sys2Proof.Byte) (s : State) (h : Kept q o w s) :
    KeptRes q o w (execDwBasteImage f h' params block s) := by
  unfold execDwBasteImage
  repeat' first | (with_reducible first | assumption | apply State.dweulBulk_kept | apply State.dwBasteImage_kept | apply kept_next | apply kept_res_ite | apply kept_ite | apply kept_fst_ite | simp only [kept_mk_iff]) | dsimp only

theorem State.dwCheck_kept (s : State) (c : Cmd) (h : Kept q o w s) :
    Kept q o w (State.dwCheck s c).1 := by
  unfold State.dwCheck
  repeat' first | (with_reducible first | assumption | apply State.startCheck_kept | apply State.seamBusy_kept | apply kept_ite | apply kept_fst_ite | simp only [kept_mk_iff]) | split | dsimp only

theorem execDwCheck_kept (f : Fin 128) (h' : Hdr) (params : List Sys2Proof.Byte) (s : State) (h : Kept q o w s) :
    KeptRes q o w (execDwCheck f h' params s) := by
  unfold execDwCheck
  repeat' first | (with_reducible first | assumption | apply State.dweul_kept | apply State.dwCheck_kept | apply kept_next | apply kept_res_ite | apply kept_ite | apply kept_fst_ite | simp only [kept_mk_iff]) | dsimp only

theorem State.sewCommand_kept (s : State) (c : Cmd) (crc : Option Nat) (h : Kept q o w s) :
    Kept q o w (State.sewCommand s c crc).1 := by
  unfold State.sewCommand
  dsimp only
  repeat' first | (with_reducible first | assumption | apply State.startCheck_kept | apply State.enterSew_kept | apply State.seamBusy_kept | apply kept_ite | apply kept_fst_ite | apply kept_snd_ite | simp only [kept_mk_iff]) | split

theorem execDwSew_kept (f : Fin 128) (h' : Hdr) (params : List Sys2Proof.Byte) (s : State) (h : Kept q o w s) :
    KeptRes q o w (execDwSew f h' params s) := by
  unfold execDwSew
  repeat' first | (with_reducible first | assumption | apply State.dweul_kept | apply State.sewCommand_kept | apply kept_next | apply kept_res_ite | apply kept_ite | apply kept_fst_ite | apply kept_snd_ite | apply kept_foldl | apply kept_fst_foldl | apply kept_nvsPut | simp only [kept_mk_iff]) | split | intro _ _ _ | intro _ _ | dsimp only

theorem State.dwDiscard_kept (s : State) (c : Cmd) (h : Kept q o w s) :
    Kept q o w (State.dwDiscard s c).1 := by
  unfold State.dwDiscard
  dsimp only
  repeat' first | (with_reducible first | assumption | apply State.discard_kept | apply kept_ite | apply kept_fst_ite | apply kept_snd_ite | simp only [kept_mk_iff]) | split

theorem execDwDiscard_kept (f : Fin 128) (h' : Hdr) (params : List Sys2Proof.Byte) (s : State) (h : Kept q o w s) :
    KeptRes q o w (execDwDiscard f h' params s) := by
  unfold execDwDiscard
  repeat' first | (with_reducible first | assumption | apply State.dweul_kept | apply State.dwDiscard_kept | apply kept_next | apply kept_res_ite | apply kept_ite | apply kept_fst_ite | simp only [kept_mk_iff]) | dsimp only

theorem State.dwGroupSew_kept (s : State) (c : Cmd) (h : Kept q o w s) :
    Kept q o w (State.dwGroupSew s c).1 := by
  unfold State.dwGroupSew
  repeat' first | (with_reducible first | assumption | apply State.sewCommand_kept | apply kept_ite | apply kept_fst_ite | simp only [kept_mk_iff]) | split | dsimp only

theorem execDwGroupSew_kept (f : Fin 128) (h' : Hdr) (params : List Sys2Proof.Byte) (s : State) (h : Kept q o w s) :
    KeptRes q o w (execDwGroupSew f h' params s) := by
  unfold execDwGroupSew
  repeat' first | (with_reducible first | assumption | apply State.dweul_kept | apply State.dwGroupSew_kept | apply kept_next | apply kept_res_ite | apply kept_ite | apply kept_fst_ite | simp only [kept_mk_iff]) | dsimp only

theorem State.dwPatternState_kept (s : State) (x2 : Cmd) (h : Kept q o w s) :
    Kept q o w (State.dwPatternState s x2).1 := by
  unfold State.dwPatternState
  dsimp only
  repeat' first | (with_reducible first | assumption | apply kept_ite | apply kept_fst_ite | simp only [kept_mk_iff])

theorem execDwPatternState_kept (f : Fin 128) (h' : Hdr) (params : List Sys2Proof.Byte) (s : State) (h : Kept q o w s) :
    KeptRes q o w (execDwPatternState f h' params s) := by
  unfold execDwPatternState
  repeat' first | (with_reducible first | assumption | apply State.dweul_kept | apply State.dwPatternState_kept | apply kept_next | apply kept_res_ite | apply kept_ite | apply kept_fst_ite | simp only [kept_mk_iff]) | dsimp only

theorem State.dwNeedleLoad_kept (s : State) (c : Cmd) (block : List Sys2Proof.Byte) (h : Kept q o w s) :
    Kept q o w (State.dwNeedleLoad s c block).1 := by
  unfold State.dwNeedleLoad
  dsimp only
  repeat' first | (with_reducible first | assumption | apply State.needleWrite_kept | apply kept_ite | apply kept_fst_ite | apply kept_foldl | apply kept_fst_foldl | simp only [kept_mk_iff]) | split | intro _ _ _ | intro _ _

theorem execDwNeedleLoad_kept (f : Fin 128) (h' : Hdr) (params : List Sys2Proof.Byte) (block : List Sys2Proof.Byte) (s : State) (h : Kept q o w s) :
    KeptRes q o w (execDwNeedleLoad f h' params block s) := by
  unfold execDwNeedleLoad
  repeat' first | (with_reducible first | assumption | apply State.dweulBulk_kept | apply State.dwNeedleLoad_kept | apply kept_next | apply kept_res_ite | apply kept_ite | apply kept_fst_ite | simp only [kept_mk_iff]) | dsimp only

theorem State.dwNeedleRead_kept (s : State) (c : Cmd) (h : Kept q o w s) :
    Kept q o w (State.dwNeedleRead s c).1 := by
  unfold State.dwNeedleRead
  dsimp only
  repeat' first | (with_reducible first | assumption | apply State.readEach_kept | apply State.needleRead_kept | apply kept_ite | apply kept_fst_ite | apply kept_snd_ite | apply kept_foldl | apply kept_fst_foldl | apply kept_nvsPut | simp only [kept_mk_iff]) | split | intro _ _ _ | intro _ _

theorem execDwNeedleRead_kept (f : Fin 128) (h' : Hdr) (params : List Sys2Proof.Byte) (s : State) (h : Kept q o w s) :
    KeptRes q o w (execDwNeedleRead f h' params s) := by
  unfold execDwNeedleRead
  repeat' first | (with_reducible first | assumption | apply State.dweul_kept | apply State.dwNeedleRead_kept | apply kept_next | apply kept_res_ite | apply kept_ite | apply kept_fst_ite | simp only [kept_mk_iff]) | dsimp only

theorem State.dwNeedleCtrl_kept (s : State) (c : Cmd) (h : Kept q o w s) :
    Kept q o w (State.dwNeedleCtrl s c).1 := by
  unfold State.dwNeedleCtrl
  dsimp only
  repeat' first | (with_reducible first | assumption | apply State.shepWrites_kept | apply kept_ite | apply kept_fst_ite | simp only [kept_mk_iff]) | split

theorem execDwNeedleCtrl_kept (f : Fin 128) (h' : Hdr) (params : List Sys2Proof.Byte) (s : State) (h : Kept q o w s) :
    KeptRes q o w (execDwNeedleCtrl f h' params s) := by
  unfold execDwNeedleCtrl
  repeat' first | (with_reducible first | assumption | apply State.dweul_kept | apply State.dwNeedleCtrl_kept | apply kept_next | apply kept_res_ite | apply kept_ite | apply kept_fst_ite | simp only [kept_mk_iff]) | dsimp only

theorem State.dwNeedleDoorbell_kept (s : State) (c : Cmd) (h : Kept q o w s) :
    Kept q o w (State.dwNeedleDoorbell s c).1 := by
  unfold State.dwNeedleDoorbell
  repeat' first | (with_reducible first | assumption | apply State.shepWrite_kept | apply kept_ite | apply kept_fst_ite | simp only [kept_mk_iff]) | split | dsimp only

theorem execDwNeedleDoorbell_kept (f : Fin 128) (h' : Hdr) (params : List Sys2Proof.Byte) (s : State) (h : Kept q o w s) :
    KeptRes q o w (execDwNeedleDoorbell f h' params s) := by
  unfold execDwNeedleDoorbell
  repeat' first | (with_reducible first | assumption | apply State.dweul_kept | apply State.dwNeedleDoorbell_kept | apply kept_next | apply kept_res_ite | apply kept_ite | apply kept_fst_ite | simp only [kept_mk_iff]) | dsimp only

theorem State.dwNeedleStatus_kept (s : State) (c : Cmd) (h : Kept q o w s) :
    Kept q o w (State.dwNeedleStatus s c).1 := by
  unfold State.dwNeedleStatus
  dsimp only
  repeat' first | (with_reducible first | assumption | apply State.busRead_kept | apply kept_ite | apply kept_fst_ite | simp only [kept_mk_iff]) | split

theorem execDwNeedleStatus_kept (f : Fin 128) (h' : Hdr) (params : List Sys2Proof.Byte) (s : State) (h : Kept q o w s) :
    KeptRes q o w (execDwNeedleStatus f h' params s) := by
  unfold execDwNeedleStatus
  repeat' first | (with_reducible first | assumption | apply State.dweul_kept | apply State.dwNeedleStatus_kept | apply kept_next | apply kept_res_ite | apply kept_ite | apply kept_fst_ite | simp only [kept_mk_iff]) | dsimp only

theorem State.dwBellRead_kept (s : State) (x2 : Cmd) (h : Kept q o w s) :
    Kept q o w (State.dwBellRead s x2).1 := by
  unfold State.dwBellRead
  dsimp only
  repeat' first | (with_reducible first | assumption | apply kept_ite | apply kept_fst_ite | simp only [kept_mk_iff])

theorem execDwBellRead_kept (f : Fin 128) (h' : Hdr) (params : List Sys2Proof.Byte) (s : State) (h : Kept q o w s) :
    KeptRes q o w (execDwBellRead f h' params s) := by
  unfold execDwBellRead
  repeat' first | (with_reducible first | assumption | apply State.dweul_kept | apply State.dwBellRead_kept | apply kept_next | apply kept_res_ite | apply kept_ite | apply kept_fst_ite | simp only [kept_mk_iff]) | dsimp only

theorem State.dwRefSet_kept (s : State) (c : Cmd) (h : Kept q o w s) :
    Kept q o w (State.dwRefSet s c).1 := by
  unfold State.dwRefSet
  dsimp only
  repeat' first | (with_reducible first | assumption | apply State.tryApply_kept | apply State.shepWrites_kept | apply kept_ite | apply kept_fst_ite | apply kept_snd_ite | apply kept_foldl | apply kept_fst_foldl | apply kept_nvsPut | simp only [kept_mk_iff]) | split | intro _ _ _ | intro _ _

theorem execDwRefSet_kept (f : Fin 128) (h' : Hdr) (params : List Sys2Proof.Byte) (s : State) (h : Kept q o w s) :
    KeptRes q o w (execDwRefSet f h' params s) := by
  unfold execDwRefSet
  repeat' first | (with_reducible first | assumption | apply State.dweul_kept | apply State.dwRefSet_kept | apply kept_next | apply kept_res_ite | apply kept_ite | apply kept_fst_ite | simp only [kept_mk_iff]) | dsimp only

theorem State.dwRefSelect_kept (s : State) (c : Cmd) (h : Kept q o w s) :
    Kept q o w (State.dwRefSelect s c).1 := by
  unfold State.dwRefSelect
  repeat' first | (with_reducible first | assumption | apply State.busWrite_kept | apply kept_ite | apply kept_fst_ite | simp only [kept_mk_iff]) | split | dsimp only

theorem execDwRefSelect_kept (f : Fin 128) (h' : Hdr) (params : List Sys2Proof.Byte) (s : State) (h : Kept q o w s) :
    KeptRes q o w (execDwRefSelect f h' params s) := by
  unfold execDwRefSelect
  repeat' first | (with_reducible first | assumption | apply State.dweul_kept | apply State.dwRefSelect_kept | apply kept_next | apply kept_res_ite | apply kept_ite | apply kept_fst_ite | simp only [kept_mk_iff]) | dsimp only

theorem State.dwLoopSet_kept (s : State) (c : Cmd) (h : Kept q o w s) :
    Kept q o w (State.dwLoopSet s c).1 := by
  unfold State.dwLoopSet
  dsimp only
  repeat' first | (with_reducible first | assumption | apply State.shepWrites_kept | apply kept_ite | apply kept_fst_ite | simp only [kept_mk_iff])

theorem execDwLoopSet_kept (f : Fin 128) (h' : Hdr) (params : List Sys2Proof.Byte) (s : State) (h : Kept q o w s) :
    KeptRes q o w (execDwLoopSet f h' params s) := by
  unfold execDwLoopSet
  repeat' first | (with_reducible first | assumption | apply State.dweul_kept | apply State.dwLoopSet_kept | apply kept_next | apply kept_res_ite | apply kept_ite | apply kept_fst_ite | simp only [kept_mk_iff]) | dsimp only

theorem State.dwDivSet_kept (s : State) (c : Cmd) (h : Kept q o w s) :
    Kept q o w (State.dwDivSet s c).1 := by
  unfold State.dwDivSet
  dsimp only
  repeat' first | (with_reducible first | assumption | apply State.tryApply_kept | apply State.shepWrites_kept | apply kept_ite | apply kept_fst_ite | apply kept_snd_ite | apply kept_foldl | apply kept_fst_foldl | apply kept_nvsPut | simp only [kept_mk_iff]) | split | intro _ _ _ | intro _ _

theorem execDwDivSet_kept (f : Fin 128) (h' : Hdr) (params : List Sys2Proof.Byte) (s : State) (h : Kept q o w s) :
    KeptRes q o w (execDwDivSet f h' params s) := by
  unfold execDwDivSet
  repeat' first | (with_reducible first | assumption | apply State.dweul_kept | apply State.dwDivSet_kept | apply kept_next | apply kept_res_ite | apply kept_ite | apply kept_fst_ite | simp only [kept_mk_iff]) | dsimp only

theorem State.dwServoSet_kept (s : State) (c : Cmd) (h : Kept q o w s) :
    Kept q o w (State.dwServoSet s c).1 := by
  unfold State.dwServoSet
  dsimp only
  repeat' first | (with_reducible first | assumption | apply kept_ite | apply kept_fst_ite | simp only [kept_mk_iff]) | split

theorem execDwServoSet_kept (f : Fin 128) (h' : Hdr) (params : List Sys2Proof.Byte) (s : State) (h : Kept q o w s) :
    KeptRes q o w (execDwServoSet f h' params s) := by
  unfold execDwServoSet
  repeat' first | (with_reducible first | assumption | apply State.dweul_kept | apply State.dwServoSet_kept | apply kept_next | apply kept_res_ite | apply kept_ite | apply kept_fst_ite | simp only [kept_mk_iff]) | dsimp only

end Sys2Proof.Machine
end

