-- ==== Sys2Proof/Laws/KeptDweul2.lean ====
section
/-! SUPPORT. What every function of the host commands, second part keeps: the queue, the fuses (`Otp.Same`) and the canonical memory (`Kept`), one lemma a function. -/

set_option maxRecDepth 4000
set_option linter.unusedSimpArgs false

namespace Sys2Proof.Machine

variable {q : List Sys2Proof.Instr} {o : Otp} {w : Bool}

theorem State.dwPtpRead_kept (s : State) (c : Cmd) (h : Kept q o w s) :
    Kept q o w (State.dwPtpRead s c).1 := by
  unfold State.dwPtpRead
  dsimp only
  repeat' first | (with_reducible first | assumption | apply State.bump_kept | apply kept_ite | apply kept_fst_ite | simp only [kept_mk_iff]) | split

theorem execDwPtpRead_kept (f : Fin 128) (h' : Hdr) (params : List Sys2Proof.Byte) (s : State) (h : Kept q o w s) :
    KeptRes q o w (execDwPtpRead f h' params s) := by
  unfold execDwPtpRead
  repeat' first | (with_reducible first | assumption | apply State.dweul_kept | apply State.dwPtpRead_kept | apply kept_next | apply kept_res_ite | apply kept_ite | apply kept_fst_ite | simp only [kept_mk_iff]) | dsimp only

theorem State.dwPtpSet_kept (s : State) (c : Cmd) (h : Kept q o w s) :
    Kept q o w (State.dwPtpSet s c).1 := by
  unfold State.dwPtpSet
  dsimp only
  repeat' first | (with_reducible first | assumption | apply kept_ite | apply kept_fst_ite | apply kept_snd_ite | simp only [kept_mk_iff]) | split

theorem execDwPtpSet_kept (f : Fin 128) (h' : Hdr) (params : List Sys2Proof.Byte) (s : State) (h : Kept q o w s) :
    KeptRes q o w (execDwPtpSet f h' params s) := by
  unfold execDwPtpSet
  repeat' first | (with_reducible first | assumption | apply State.dweul_kept | apply State.dwPtpSet_kept | apply kept_next | apply kept_res_ite | apply kept_ite | apply kept_fst_ite | simp only [kept_mk_iff]) | dsimp only

theorem State.dwNetPortSet_kept (s : State) (c : Cmd) (h : Kept q o w s) :
    Kept q o w (State.dwNetPortSet s c).1 := by
  unfold State.dwNetPortSet
  dsimp only
  repeat' first | (with_reducible first | assumption | apply State.shepWrites_kept | apply kept_ite | apply kept_fst_ite | simp only [kept_mk_iff]) | split

theorem execDwNetPortSet_kept (f : Fin 128) (h' : Hdr) (params : List Sys2Proof.Byte) (s : State) (h : Kept q o w s) :
    KeptRes q o w (execDwNetPortSet f h' params s) := by
  unfold execDwNetPortSet
  repeat' first | (with_reducible first | assumption | apply State.dweul_kept | apply State.dwNetPortSet_kept | apply kept_next | apply kept_res_ite | apply kept_ite | apply kept_fst_ite | simp only [kept_mk_iff]) | dsimp only

theorem State.dwApply_kept (s : State) (c : Cmd) (off : Nat) (group : List Nat) (apply : Nat × Nat) (flags : Nat) (err : Fld) (result : Nat) (code : Fld) (h : Kept q o w s) :
    Kept q o w (State.dwApply s c off group apply flags err result code).1 := by
  unfold State.dwApply
  dsimp only
  repeat' first | (with_reducible first | assumption | apply State.tryApply_kept | apply State.shepWrites_kept | apply kept_ite | apply kept_fst_ite | apply kept_snd_ite | apply kept_foldl | apply kept_fst_foldl | apply kept_nvsPut | simp only [kept_mk_iff]) | split | intro _ _ _ | intro _ _

theorem State.dwFlowSet_kept (s : State) (c : Cmd) (h : Kept q o w s) :
    Kept q o w (State.dwFlowSet s c).1 := by
  unfold State.dwFlowSet
  dsimp only
  repeat' first | (with_reducible first | assumption | apply State.dwApply_kept | apply kept_ite | apply kept_fst_ite | simp only [kept_mk_iff]) | split

theorem execDwFlowSet_kept (f : Fin 128) (h' : Hdr) (params : List Sys2Proof.Byte) (s : State) (h : Kept q o w s) :
    KeptRes q o w (execDwFlowSet f h' params s) := by
  unfold execDwFlowSet
  repeat' first | (with_reducible first | assumption | apply State.dweul_kept | apply State.dwFlowSet_kept | apply kept_next | apply kept_res_ite | apply kept_ite | apply kept_fst_ite | simp only [kept_mk_iff]) | dsimp only

theorem State.startOne_kept (s : State) (c : Cmd) (o' : Obj) (target : Nat) (h : Kept q o w s) :
    Kept q o w (State.startOne s c o' target).1 := by
  unfold State.startOne
  dsimp only
  repeat' first | (with_reducible first | assumption | apply State.enterEvent_kept | apply kept_ite | apply kept_fst_ite | apply kept_snd_ite | simp only [kept_mk_iff]) | split

theorem State.stopEvent_kept (s : State) (c : Cmd) (o' : Obj) (target : Nat) (h : Kept q o w s) :
    Kept q o w (State.stopEvent s c o' target).1 := by
  unfold State.stopEvent
  dsimp only
  repeat' first | (with_reducible first | assumption | apply State.enterEvent_kept | apply kept_ite | apply kept_fst_ite | apply kept_snd_ite | simp only [kept_mk_iff])

theorem State.dwFlowStart_kept (s : State) (c : Cmd) (h : Kept q o w s) :
    Kept q o w (State.dwFlowStart s c).1 := by
  unfold State.dwFlowStart
  repeat' first | (with_reducible first | assumption | apply State.startOne_kept | apply kept_ite | apply kept_fst_ite | simp only [kept_mk_iff]) | split | dsimp only

theorem execDwFlowStart_kept (f : Fin 128) (h' : Hdr) (params : List Sys2Proof.Byte) (s : State) (h : Kept q o w s) :
    KeptRes q o w (execDwFlowStart f h' params s) := by
  unfold execDwFlowStart
  repeat' first | (with_reducible first | assumption | apply State.dweul_kept | apply State.dwFlowStart_kept | apply kept_next | apply kept_res_ite | apply kept_ite | apply kept_fst_ite | simp only [kept_mk_iff]) | dsimp only

theorem State.dwFlowStop_kept (s : State) (c : Cmd) (h : Kept q o w s) :
    Kept q o w (State.dwFlowStop s c).1 := by
  unfold State.dwFlowStop
  repeat' first | (with_reducible first | assumption | apply State.stopEvent_kept | apply kept_ite | apply kept_fst_ite | simp only [kept_mk_iff]) | split | dsimp only

theorem execDwFlowStop_kept (f : Fin 128) (h' : Hdr) (params : List Sys2Proof.Byte) (s : State) (h : Kept q o w s) :
    KeptRes q o w (execDwFlowStop f h' params s) := by
  unfold execDwFlowStop
  repeat' first | (with_reducible first | assumption | apply State.dweul_kept | apply State.dwFlowStop_kept | apply kept_next | apply kept_res_ite | apply kept_ite | apply kept_fst_ite | simp only [kept_mk_iff]) | dsimp only

theorem State.dwFlockStart_kept (s : State) (c : Cmd) (h : Kept q o w s) :
    Kept q o w (State.dwFlockStart s c).1 := by
  unfold State.dwFlockStart
  dsimp only
  repeat' first | (with_reducible first | assumption | apply State.enterEvent_kept | apply State.wr64_kept | apply State.setFld_kept | apply kept_ite | apply kept_fst_ite | apply kept_snd_ite | simp only [kept_mk_iff]) | split

theorem execDwFlockStart_kept (f : Fin 128) (h' : Hdr) (params : List Sys2Proof.Byte) (s : State) (h : Kept q o w s) :
    KeptRes q o w (execDwFlockStart f h' params s) := by
  unfold execDwFlockStart
  repeat' first | (with_reducible first | assumption | apply State.dweul_kept | apply State.dwFlockStart_kept | apply kept_next | apply kept_res_ite | apply kept_ite | apply kept_fst_ite | simp only [kept_mk_iff]) | dsimp only

theorem State.dwFlockStop_kept (s : State) (c : Cmd) (h : Kept q o w s) :
    Kept q o w (State.dwFlockStop s c).1 := by
  unfold State.dwFlockStop
  repeat' first | (with_reducible first | assumption | apply State.stopEvent_kept | apply kept_ite | apply kept_fst_ite | simp only [kept_mk_iff]) | split | dsimp only

theorem execDwFlockStop_kept (f : Fin 128) (h' : Hdr) (params : List Sys2Proof.Byte) (s : State) (h : Kept q o w s) :
    KeptRes q o w (execDwFlockStop f h' params s) := by
  unfold execDwFlockStop
  repeat' first | (with_reducible first | assumption | apply State.dweul_kept | apply State.dwFlockStop_kept | apply kept_next | apply kept_res_ite | apply kept_ite | apply kept_fst_ite | simp only [kept_mk_iff]) | dsimp only

theorem State.dwFlowRead_kept (s : State) (c : Cmd) (h : Kept q o w s) :
    Kept q o w (State.dwFlowRead s c).1 := by
  unfold State.dwFlowRead
  repeat' first | (with_reducible first | assumption | apply kept_ite | apply kept_fst_ite | simp only [kept_mk_iff]) | split | dsimp only

theorem execDwFlowRead_kept (f : Fin 128) (h' : Hdr) (params : List Sys2Proof.Byte) (s : State) (h : Kept q o w s) :
    KeptRes q o w (execDwFlowRead f h' params s) := by
  unfold execDwFlowRead
  repeat' first | (with_reducible first | assumption | apply State.dweul_kept | apply State.dwFlowRead_kept | apply kept_next | apply kept_res_ite | apply kept_ite | apply kept_fst_ite | simp only [kept_mk_iff]) | dsimp only

theorem State.dwPortSet_kept (s : State) (c : Cmd) (h : Kept q o w s) :
    Kept q o w (State.dwPortSet s c).1 := by
  unfold State.dwPortSet
  repeat' first | (with_reducible first | assumption | apply State.dwApply_kept | apply kept_ite | apply kept_fst_ite | simp only [kept_mk_iff]) | split | dsimp only

theorem execDwPortSet_kept (f : Fin 128) (h' : Hdr) (params : List Sys2Proof.Byte) (s : State) (h : Kept q o w s) :
    KeptRes q o w (execDwPortSet f h' params s) := by
  unfold execDwPortSet
  repeat' first | (with_reducible first | assumption | apply State.dweul_kept | apply State.dwPortSet_kept | apply kept_next | apply kept_res_ite | apply kept_ite | apply kept_fst_ite | simp only [kept_mk_iff]) | dsimp only

theorem State.dwPortStart_kept (s : State) (c : Cmd) (h : Kept q o w s) :
    Kept q o w (State.dwPortStart s c).1 := by
  unfold State.dwPortStart
  repeat' first | (with_reducible first | assumption | apply State.startOne_kept | apply kept_ite | apply kept_fst_ite | simp only [kept_mk_iff]) | split | dsimp only

theorem execDwPortStart_kept (f : Fin 128) (h' : Hdr) (params : List Sys2Proof.Byte) (s : State) (h : Kept q o w s) :
    KeptRes q o w (execDwPortStart f h' params s) := by
  unfold execDwPortStart
  repeat' first | (with_reducible first | assumption | apply State.dweul_kept | apply State.dwPortStart_kept | apply kept_next | apply kept_res_ite | apply kept_ite | apply kept_fst_ite | simp only [kept_mk_iff]) | dsimp only

theorem State.dwPortStop_kept (s : State) (c : Cmd) (h : Kept q o w s) :
    Kept q o w (State.dwPortStop s c).1 := by
  unfold State.dwPortStop
  repeat' first | (with_reducible first | assumption | apply State.stopEvent_kept | apply kept_ite | apply kept_fst_ite | simp only [kept_mk_iff]) | split | dsimp only

theorem execDwPortStop_kept (f : Fin 128) (h' : Hdr) (params : List Sys2Proof.Byte) (s : State) (h : Kept q o w s) :
    KeptRes q o w (execDwPortStop f h' params s) := by
  unfold execDwPortStop
  repeat' first | (with_reducible first | assumption | apply State.dweul_kept | apply State.dwPortStop_kept | apply kept_next | apply kept_res_ite | apply kept_ite | apply kept_fst_ite | simp only [kept_mk_iff]) | dsimp only

theorem State.dwPortRead_kept (s : State) (c : Cmd) (h : Kept q o w s) :
    Kept q o w (State.dwPortRead s c).1 := by
  unfold State.dwPortRead
  repeat' first | (with_reducible first | assumption | apply kept_ite | apply kept_fst_ite | simp only [kept_mk_iff]) | split | dsimp only

theorem execDwPortRead_kept (f : Fin 128) (h' : Hdr) (params : List Sys2Proof.Byte) (s : State) (h : Kept q o w s) :
    KeptRes q o w (execDwPortRead f h' params s) := by
  unfold execDwPortRead
  repeat' first | (with_reducible first | assumption | apply State.dweul_kept | apply State.dwPortRead_kept | apply kept_next | apply kept_res_ite | apply kept_ite | apply kept_fst_ite | simp only [kept_mk_iff]) | dsimp only

theorem State.dwLineSet_kept (s : State) (c : Cmd) (h : Kept q o w s) :
    Kept q o w (State.dwLineSet s c).1 := by
  unfold State.dwLineSet
  repeat' first | (with_reducible first | assumption | apply State.dwApply_kept | apply kept_ite | apply kept_fst_ite | simp only [kept_mk_iff]) | split | dsimp only

theorem execDwLineSet_kept (f : Fin 128) (h' : Hdr) (params : List Sys2Proof.Byte) (s : State) (h : Kept q o w s) :
    KeptRes q o w (execDwLineSet f h' params s) := by
  unfold execDwLineSet
  repeat' first | (with_reducible first | assumption | apply State.dweul_kept | apply State.dwLineSet_kept | apply kept_next | apply kept_res_ite | apply kept_ite | apply kept_fst_ite | simp only [kept_mk_iff]) | dsimp only

theorem State.dwLineEnable_kept (s : State) (c : Cmd) (h : Kept q o w s) :
    Kept q o w (State.dwLineEnable s c).1 := by
  unfold State.dwLineEnable
  dsimp only
  repeat' first | (with_reducible first | assumption | apply State.enterEvent_kept | apply kept_ite | apply kept_fst_ite | apply kept_snd_ite | simp only [kept_mk_iff]) | split

theorem execDwLineEnable_kept (f : Fin 128) (h' : Hdr) (params : List Sys2Proof.Byte) (s : State) (h : Kept q o w s) :
    KeptRes q o w (execDwLineEnable f h' params s) := by
  unfold execDwLineEnable
  repeat' first | (with_reducible first | assumption | apply State.dweul_kept | apply State.dwLineEnable_kept | apply kept_next | apply kept_res_ite | apply kept_ite | apply kept_fst_ite | simp only [kept_mk_iff]) | dsimp only

theorem State.dwLineDisable_kept (s : State) (c : Cmd) (h : Kept q o w s) :
    Kept q o w (State.dwLineDisable s c).1 := by
  unfold State.dwLineDisable
  repeat' first | (with_reducible first | assumption | apply State.stopEvent_kept | apply kept_ite | apply kept_fst_ite | simp only [kept_mk_iff]) | split | dsimp only

theorem execDwLineDisable_kept (f : Fin 128) (h' : Hdr) (params : List Sys2Proof.Byte) (s : State) (h : Kept q o w s) :
    KeptRes q o w (execDwLineDisable f h' params s) := by
  unfold execDwLineDisable
  repeat' first | (with_reducible first | assumption | apply State.dweul_kept | apply State.dwLineDisable_kept | apply kept_next | apply kept_res_ite | apply kept_ite | apply kept_fst_ite | simp only [kept_mk_iff]) | dsimp only

theorem State.dwLineClear_kept (s : State) (c : Cmd) (h : Kept q o w s) :
    Kept q o w (State.dwLineClear s c).1 := by
  unfold State.dwLineClear
  repeat' first | (with_reducible first | assumption | apply State.shepWrites_kept | apply kept_ite | apply kept_fst_ite | simp only [kept_mk_iff]) | split | dsimp only

theorem execDwLineClear_kept (f : Fin 128) (h' : Hdr) (params : List Sys2Proof.Byte) (s : State) (h : Kept q o w s) :
    KeptRes q o w (execDwLineClear f h' params s) := by
  unfold execDwLineClear
  repeat' first | (with_reducible first | assumption | apply State.dweul_kept | apply State.dwLineClear_kept | apply kept_next | apply kept_res_ite | apply kept_ite | apply kept_fst_ite | simp only [kept_mk_iff]) | dsimp only

theorem State.dwLineCtrlSet_kept (s : State) (c : Cmd) (h : Kept q o w s) :
    Kept q o w (State.dwLineCtrlSet s c).1 := by
  unfold State.dwLineCtrlSet
  dsimp only
  repeat' first | (with_reducible first | assumption | apply State.tryApply_kept | apply State.shepWrite_kept | apply kept_ite | apply kept_fst_ite | apply kept_snd_ite | apply kept_foldl | apply kept_fst_foldl | apply kept_nvsPut | simp only [kept_mk_iff]) | split | intro _ _ _ | intro _ _

theorem execDwLineCtrlSet_kept (f : Fin 128) (h' : Hdr) (params : List Sys2Proof.Byte) (s : State) (h : Kept q o w s) :
    KeptRes q o w (execDwLineCtrlSet f h' params s) := by
  unfold execDwLineCtrlSet
  repeat' first | (with_reducible first | assumption | apply State.dweul_kept | apply State.dwLineCtrlSet_kept | apply kept_next | apply kept_res_ite | apply kept_ite | apply kept_fst_ite | simp only [kept_mk_iff]) | dsimp only

theorem State.dwLineRead_kept (s : State) (c : Cmd) (h : Kept q o w s) :
    Kept q o w (State.dwLineRead s c).1 := by
  unfold State.dwLineRead
  repeat' first | (with_reducible first | assumption | apply kept_ite | apply kept_fst_ite | simp only [kept_mk_iff]) | split | dsimp only

theorem execDwLineRead_kept (f : Fin 128) (h' : Hdr) (params : List Sys2Proof.Byte) (s : State) (h : Kept q o w s) :
    KeptRes q o w (execDwLineRead f h' params s) := by
  unfold execDwLineRead
  repeat' first | (with_reducible first | assumption | apply State.dweul_kept | apply State.dwLineRead_kept | apply kept_next | apply kept_res_ite | apply kept_ite | apply kept_fst_ite | simp only [kept_mk_iff]) | dsimp only

theorem State.nvsStore_kept (s : State) (a : Nat) (bs : List Sys2Proof.Byte) (h : Kept q o w s) :
    Kept q o w (State.nvsStore s a bs) := by
  unfold State.nvsStore
  repeat' first | (with_reducible first | assumption | apply State.unpoison_kept | apply kept_ite | apply kept_fst_ite | apply kept_nvsPut | simp only [kept_mk_iff]) | dsimp only

theorem State.dwAlarmActivate_kept (s : State) (c : Cmd) (h : Kept q o w s) :
    Kept q o w (State.dwAlarmActivate s c).1 := by
  unfold State.dwAlarmActivate
  dsimp only
  repeat' first | (with_reducible first | assumption | apply State.alarmActivate_kept | apply kept_ite | apply kept_fst_ite | apply kept_snd_ite | simp only [kept_mk_iff]) | split

theorem execDwAlarmActivate_kept (f : Fin 128) (h' : Hdr) (params : List Sys2Proof.Byte) (s : State) (h : Kept q o w s) :
    KeptRes q o w (execDwAlarmActivate f h' params s) := by
  unfold execDwAlarmActivate
  repeat' first | (with_reducible first | assumption | apply State.dweul_kept | apply State.dwAlarmActivate_kept | apply kept_next | apply kept_res_ite | apply kept_ite | apply kept_fst_ite | simp only [kept_mk_iff]) | dsimp only

theorem State.dwAlarmRelease_kept (s : State) (x2 : Cmd) (h : Kept q o w s) :
    Kept q o w (State.dwAlarmRelease s x2).1 := by
  unfold State.dwAlarmRelease
  dsimp only
  repeat' first | (with_reducible first | assumption | apply State.alarmRelease_kept | apply kept_ite | apply kept_fst_ite | apply kept_snd_ite | simp only [kept_mk_iff]) | split

theorem execDwAlarmRelease_kept (f : Fin 128) (h' : Hdr) (params : List Sys2Proof.Byte) (s : State) (h : Kept q o w s) :
    KeptRes q o w (execDwAlarmRelease f h' params s) := by
  unfold execDwAlarmRelease
  repeat' first | (with_reducible first | assumption | apply State.dweul_kept | apply State.dwAlarmRelease_kept | apply kept_next | apply kept_res_ite | apply kept_ite | apply kept_fst_ite | simp only [kept_mk_iff]) | dsimp only

theorem State.dwPatternLoad_kept (s : State) (c : Cmd) (block : List Sys2Proof.Byte) (h : Kept q o w s) :
    Kept q o w (State.dwPatternLoad s c block).1 := by
  unfold State.dwPatternLoad
  dsimp only
  repeat' first | (with_reducible first | assumption | apply State.unpoison_kept | apply State.patternLoad_kept | apply kept_ite | apply kept_fst_ite | simp only [kept_mk_iff]) | split

theorem execDwPatternLoad_kept (f : Fin 128) (h' : Hdr) (params : List Sys2Proof.Byte) (block : List Sys2Proof.Byte) (s : State) (h : Kept q o w s) :
    KeptRes q o w (execDwPatternLoad f h' params block s) := by
  unfold execDwPatternLoad
  repeat' first | (with_reducible first | assumption | apply State.dweulBulk_kept | apply State.dwPatternLoad_kept | apply kept_next | apply kept_res_ite | apply kept_ite | apply kept_fst_ite | simp only [kept_mk_iff]) | dsimp only

theorem State.dwMessageWrite_kept (s : State) (c : Cmd) (block : List Sys2Proof.Byte) (h : Kept q o w s) :
    Kept q o w (State.dwMessageWrite s c block).1 := by
  unfold State.dwMessageWrite
  dsimp only
  repeat' first | (with_reducible first | assumption | apply State.messageWrite_kept | apply State.unpoison_kept | apply kept_ite | apply kept_fst_ite | simp only [kept_mk_iff]) | split

theorem execDwMessageWrite_kept (f : Fin 128) (h' : Hdr) (params : List Sys2Proof.Byte) (block : List Sys2Proof.Byte) (s : State) (h : Kept q o w s) :
    KeptRes q o w (execDwMessageWrite f h' params block s) := by
  unfold execDwMessageWrite
  repeat' first | (with_reducible first | assumption | apply State.dweulBulk_kept | apply State.dwMessageWrite_kept | apply kept_next | apply kept_res_ite | apply kept_ite | apply kept_fst_ite | simp only [kept_mk_iff]) | dsimp only

theorem State.dwMessageStart_kept (s : State) (c : Cmd) (h : Kept q o w s) :
    Kept q o w (State.dwMessageStart s c).1 := by
  unfold State.dwMessageStart
  dsimp only
  repeat' first | (with_reducible first | assumption | apply State.enterEvent_kept | apply kept_ite | apply kept_fst_ite | apply kept_snd_ite | simp only [kept_mk_iff]) | split

theorem execDwMessageStart_kept (f : Fin 128) (h' : Hdr) (params : List Sys2Proof.Byte) (s : State) (h : Kept q o w s) :
    KeptRes q o w (execDwMessageStart f h' params s) := by
  unfold execDwMessageStart
  repeat' first | (with_reducible first | assumption | apply State.dweul_kept | apply State.dwMessageStart_kept | apply kept_next | apply kept_res_ite | apply kept_ite | apply kept_fst_ite | simp only [kept_mk_iff]) | dsimp only

theorem State.dwMessageStop_kept (s : State) (c : Cmd) (h : Kept q o w s) :
    Kept q o w (State.dwMessageStop s c).1 := by
  unfold State.dwMessageStop
  dsimp only
  repeat' first | (with_reducible first | assumption | apply State.enterEvent_kept | apply kept_ite | apply kept_fst_ite | apply kept_snd_ite | simp only [kept_mk_iff]) | split

theorem execDwMessageStop_kept (f : Fin 128) (h' : Hdr) (params : List Sys2Proof.Byte) (s : State) (h : Kept q o w s) :
    KeptRes q o w (execDwMessageStop f h' params s) := by
  unfold execDwMessageStop
  repeat' first | (with_reducible first | assumption | apply State.dweul_kept | apply State.dwMessageStop_kept | apply kept_next | apply kept_res_ite | apply kept_ite | apply kept_fst_ite | simp only [kept_mk_iff]) | dsimp only

theorem State.dwFallbackLoad_kept (s : State) (x2 : Cmd) (block : List Sys2Proof.Byte) (h : Kept q o w s) :
    Kept q o w (State.dwFallbackLoad s x2 block).1 := by
  unfold State.dwFallbackLoad
  dsimp only
  repeat' first | (with_reducible first | assumption | apply State.nvsStore_kept | apply kept_ite | apply kept_fst_ite | simp only [kept_mk_iff]) | split

theorem execDwFallbackLoad_kept (f : Fin 128) (h' : Hdr) (params : List Sys2Proof.Byte) (block : List Sys2Proof.Byte) (s : State) (h : Kept q o w s) :
    KeptRes q o w (execDwFallbackLoad f h' params block s) := by
  unfold execDwFallbackLoad
  repeat' first | (with_reducible first | assumption | apply State.dweulBulk_kept | apply State.dwFallbackLoad_kept | apply kept_next | apply kept_res_ite | apply kept_ite | apply kept_fst_ite | simp only [kept_mk_iff]) | dsimp only

theorem State.dwAlarmRead_kept (s : State) (x2 : Cmd) (h : Kept q o w s) :
    Kept q o w (State.dwAlarmRead s x2).1 := by
  unfold State.dwAlarmRead
  dsimp only
  repeat' first | (with_reducible first | assumption | apply kept_ite | apply kept_fst_ite | simp only [kept_mk_iff])

theorem execDwAlarmRead_kept (f : Fin 128) (h' : Hdr) (params : List Sys2Proof.Byte) (s : State) (h : Kept q o w s) :
    KeptRes q o w (execDwAlarmRead f h' params s) := by
  unfold execDwAlarmRead
  repeat' first | (with_reducible first | assumption | apply State.dweul_kept | apply State.dwAlarmRead_kept | apply kept_next | apply kept_res_ite | apply kept_ite | apply kept_fst_ite | simp only [kept_mk_iff]) | dsimp only

theorem State.dwTwinRead_kept (s : State) (x2 : Cmd) (h : Kept q o w s) :
    Kept q o w (State.dwTwinRead s x2).1 := by
  unfold State.dwTwinRead
  dsimp only
  repeat' first | (with_reducible first | assumption | apply kept_ite | apply kept_fst_ite | simp only [kept_mk_iff])

theorem execDwTwinRead_kept (f : Fin 128) (h' : Hdr) (params : List Sys2Proof.Byte) (s : State) (h : Kept q o w s) :
    KeptRes q o w (execDwTwinRead f h' params s) := by
  unfold execDwTwinRead
  repeat' first | (with_reducible first | assumption | apply State.dweul_kept | apply State.dwTwinRead_kept | apply kept_next | apply kept_res_ite | apply kept_ite | apply kept_fst_ite | simp only [kept_mk_iff]) | dsimp only

theorem State.dwHandover_kept (s : State) (c : Cmd) (h : Kept q o w s) :
    Kept q o w (State.dwHandover s c).1 := by
  unfold State.dwHandover
  dsimp only
  repeat' first | (with_reducible first | assumption | apply State.enterEvent_kept | apply kept_ite | apply kept_fst_ite | apply kept_snd_ite | simp only [kept_mk_iff]) | split

theorem execDwHandover_kept (f : Fin 128) (h' : Hdr) (params : List Sys2Proof.Byte) (s : State) (h : Kept q o w s) :
    KeptRes q o w (execDwHandover f h' params s) := by
  unfold execDwHandover
  repeat' first | (with_reducible first | assumption | apply State.dweul_kept | apply State.dwHandover_kept | apply kept_next | apply kept_res_ite | apply kept_ite | apply kept_fst_ite | simp only [kept_mk_iff]) | dsimp only

theorem State.dwTwinCmd_kept (s : State) (c : Cmd) (h : Kept q o w s) :
    Kept q o w (State.dwTwinCmd s c).1 := by
  unfold State.dwTwinCmd
  dsimp only
  repeat' first | (with_reducible first | assumption | apply State.tryApply_kept | apply State.shepWrite_kept | apply kept_ite | apply kept_fst_ite | apply kept_snd_ite | apply kept_foldl | apply kept_fst_foldl | apply kept_nvsPut | simp only [kept_mk_iff]) | split | intro _ _ _ | intro _ _

theorem execDwTwinCmd_kept (f : Fin 128) (h' : Hdr) (params : List Sys2Proof.Byte) (s : State) (h : Kept q o w s) :
    KeptRes q o w (execDwTwinCmd f h' params s) := by
  unfold execDwTwinCmd
  repeat' first | (with_reducible first | assumption | apply State.dweul_kept | apply State.dwTwinCmd_kept | apply kept_next | apply kept_res_ite | apply kept_ite | apply kept_fst_ite | simp only [kept_mk_iff]) | dsimp only

theorem State.dwTwinCfgSet_kept (s : State) (c : Cmd) (h : Kept q o w s) :
    Kept q o w (State.dwTwinCfgSet s c).1 := by
  unfold State.dwTwinCfgSet
  dsimp only
  repeat' first | (with_reducible first | assumption | apply State.shepWrite_kept | apply kept_ite | apply kept_fst_ite | simp only [kept_mk_iff])

theorem execDwTwinCfgSet_kept (f : Fin 128) (h' : Hdr) (params : List Sys2Proof.Byte) (s : State) (h : Kept q o w s) :
    KeptRes q o w (execDwTwinCfgSet f h' params s) := by
  unfold execDwTwinCfgSet
  repeat' first | (with_reducible first | assumption | apply State.dweul_kept | apply State.dwTwinCfgSet_kept | apply kept_next | apply kept_res_ite | apply kept_ite | apply kept_fst_ite | simp only [kept_mk_iff]) | dsimp only

theorem State.dwFaultRead_kept (s : State) (x2 : Cmd) (h : Kept q o w s) :
    Kept q o w (State.dwFaultRead s x2).1 := by
  unfold State.dwFaultRead
  dsimp only
  repeat' first | (with_reducible first | assumption | apply kept_ite | apply kept_fst_ite | simp only [kept_mk_iff])

theorem execDwFaultRead_kept (f : Fin 128) (h' : Hdr) (params : List Sys2Proof.Byte) (s : State) (h : Kept q o w s) :
    KeptRes q o w (execDwFaultRead f h' params s) := by
  unfold execDwFaultRead
  repeat' first | (with_reducible first | assumption | apply State.dweul_kept | apply State.dwFaultRead_kept | apply kept_next | apply kept_res_ite | apply kept_ite | apply kept_fst_ite | simp only [kept_mk_iff]) | dsimp only

theorem execDwFaultAck_kept (f : Fin 128) (h' : Hdr) (params : List Sys2Proof.Byte) (s : State) (h : Kept q o w s) :
    KeptRes q o w (execDwFaultAck f h' params s) := by
  unfold execDwFaultAck
  repeat' first | (with_reducible first | assumption | apply State.dweul_kept | apply State.recAck_kept | apply kept_next | apply kept_res_ite | apply kept_ite | apply kept_fst_ite | apply kept_snd_ite | apply kept_foldl | apply kept_fst_foldl | apply kept_nvsPut | simp only [kept_mk_iff]) | split | intro _ _ _ | intro _ _ | dsimp only

theorem State.dwFaultSrcSet_kept (s : State) (c : Cmd) (h : Kept q o w s) :
    Kept q o w (State.dwFaultSrcSet s c).1 := by
  unfold State.dwFaultSrcSet
  dsimp only
  repeat' first | (with_reducible first | assumption | apply State.shepWrites_kept | apply kept_ite | apply kept_fst_ite | simp only [kept_mk_iff]) | split

theorem execDwFaultSrcSet_kept (f : Fin 128) (h' : Hdr) (params : List Sys2Proof.Byte) (s : State) (h : Kept q o w s) :
    KeptRes q o w (execDwFaultSrcSet f h' params s) := by
  unfold execDwFaultSrcSet
  repeat' first | (with_reducible first | assumption | apply State.dweul_kept | apply State.dwFaultSrcSet_kept | apply kept_next | apply kept_res_ite | apply kept_ite | apply kept_fst_ite | simp only [kept_mk_iff]) | dsimp only

theorem State.dwFaultSrcRead_kept (s : State) (c : Cmd) (h : Kept q o w s) :
    Kept q o w (State.dwFaultSrcRead s c).1 := by
  unfold State.dwFaultSrcRead
  dsimp only
  repeat' first | (with_reducible first | assumption | apply kept_ite | apply kept_fst_ite | simp only [kept_mk_iff]) | split

theorem execDwFaultSrcRead_kept (f : Fin 128) (h' : Hdr) (params : List Sys2Proof.Byte) (s : State) (h : Kept q o w s) :
    KeptRes q o w (execDwFaultSrcRead f h' params s) := by
  unfold execDwFaultSrcRead
  repeat' first | (with_reducible first | assumption | apply State.dweul_kept | apply State.dwFaultSrcRead_kept | apply kept_next | apply kept_res_ite | apply kept_ite | apply kept_fst_ite | simp only [kept_mk_iff]) | dsimp only

theorem State.telemPush_kept (s : State) (f : Nat) (sel : Nat) (set : Nat × List Sys2Proof.Word) (h : Kept q o w s) :
    Kept q o w (State.telemPush s f sel set) := by
  unfold State.telemPush
  dsimp only
  repeat' first | (with_reducible first | assumption | apply State.setFold_kept | apply State.noticeWith_kept | apply kept_ite | apply kept_fst_ite | apply kept_snd_ite | simp only [kept_mk_iff]) | split

theorem State.telemRefresh_kept (s : State) (sel : Nat) (h : Kept q o w s) :
    Kept q o w (State.telemRefresh s sel) := by
  unfold State.telemRefresh
  dsimp only
  repeat' first | (with_reducible first | assumption | apply State.telemPush_kept | apply kept_ite | apply kept_fst_ite | apply kept_foldl | apply kept_fst_foldl | simp only [kept_mk_iff]) | split | intro _ _ _ | intro _ _

theorem execTelemetryRefresh_kept (sel : BitVec 16) (s : State) (h : Kept q o w s) :
    KeptRes q o w (execTelemetryRefresh sel s) := by
  unfold execTelemetryRefresh
  repeat' first | (with_reducible first | assumption | apply State.telemRefresh_kept | apply kept_next | apply kept_res_ite | apply kept_ite | apply kept_fst_ite | simp only [kept_mk_iff]) | split | dsimp only

theorem State.freeSet_kept (s : State) (n : Nat) (h : Kept q o w s) :
    Kept q o w (State.freeSet s n).1 := by
  unfold State.freeSet
  dsimp only
  repeat' first | (with_reducible first | assumption | apply kept_ite | apply kept_fst_ite | simp only [kept_mk_iff])

theorem State.dwTelemSnapshot_kept (s : State) (c : Cmd) (h : Kept q o w s) :
    Kept q o w (State.dwTelemSnapshot s c).1 := by
  unfold State.dwTelemSnapshot
  dsimp only
  repeat' first | (with_reducible first | assumption | apply State.freeSet_kept | apply kept_ite | apply kept_fst_ite | apply kept_snd_ite | simp only [kept_mk_iff]) | split

theorem execDwTelemSnapshot_kept (f : Fin 128) (h' : Hdr) (params : List Sys2Proof.Byte) (s : State) (h : Kept q o w s) :
    KeptRes q o w (execDwTelemSnapshot f h' params s) := by
  unfold execDwTelemSnapshot
  repeat' first | (with_reducible first | assumption | apply State.dweul_kept | apply State.dwTelemSnapshot_kept | apply kept_next | apply kept_res_ite | apply kept_ite | apply kept_fst_ite | simp only [kept_mk_iff]) | dsimp only

theorem State.dwTelemSubscribe_kept (s : State) (c : Cmd) (h : Kept q o w s) :
    Kept q o w (State.dwTelemSubscribe s c).1 := by
  unfold State.dwTelemSubscribe
  dsimp only
  repeat' first | (with_reducible first | assumption | apply State.setFold_kept | apply kept_ite | apply kept_fst_ite | simp only [kept_mk_iff]) | split

theorem execDwTelemSubscribe_kept (f : Fin 128) (h' : Hdr) (params : List Sys2Proof.Byte) (s : State) (h : Kept q o w s) :
    KeptRes q o w (execDwTelemSubscribe f h' params s) := by
  unfold execDwTelemSubscribe
  repeat' first | (with_reducible first | assumption | apply State.dweul_kept | apply State.dwTelemSubscribe_kept | apply kept_next | apply kept_res_ite | apply kept_ite | apply kept_fst_ite | simp only [kept_mk_iff]) | dsimp only

theorem State.dwTelemUnsubscribe_kept (s : State) (c : Cmd) (h : Kept q o w s) :
    Kept q o w (State.dwTelemUnsubscribe s c).1 := by
  unfold State.dwTelemUnsubscribe
  dsimp only
  repeat' first | (with_reducible first | assumption | apply State.setFold_kept | apply kept_ite | apply kept_fst_ite | simp only [kept_mk_iff]) | split

theorem execDwTelemUnsubscribe_kept (f : Fin 128) (h' : Hdr) (params : List Sys2Proof.Byte) (s : State) (h : Kept q o w s) :
    KeptRes q o w (execDwTelemUnsubscribe f h' params s) := by
  unfold execDwTelemUnsubscribe
  repeat' first | (with_reducible first | assumption | apply State.dweul_kept | apply State.dwTelemUnsubscribe_kept | apply kept_next | apply kept_res_ite | apply kept_ite | apply kept_fst_ite | simp only [kept_mk_iff]) | dsimp only

theorem State.shepWdog_kept (s : State) (h : Kept q o w s) :
    Kept q o w (State.shepWdog s) := by
  unfold State.shepWdog
  dsimp only
  repeat' first | (with_reducible first | assumption | apply State.raise_kept | apply kept_ite | apply kept_fst_ite | simp only [kept_mk_iff]) | split

theorem execShepWdogExpiry_kept (ms : Nat) (s : State) (h : Kept q o w s) :
    KeptRes q o w (execShepWdogExpiry ms s) := by
  unfold execShepWdogExpiry
  repeat' first | (with_reducible first | assumption | apply State.shepWdog_kept | apply kept_next | apply kept_res_ite | apply kept_ite | apply kept_fst_ite | simp only [kept_mk_iff]) | split | dsimp only

theorem execShepTrap_kept (s : State) (h : Kept q o w s) :
    KeptRes q o w (execShepTrap s) := by
  unfold execShepTrap
  repeat' first | (with_reducible first | assumption | apply State.shepTrap_kept | apply kept_next | apply kept_res_ite | apply kept_ite | apply kept_fst_ite | simp only [kept_mk_iff]) | split | dsimp only

theorem State.abortFold_kept (s : State) (f : Nat) (h : Kept q o w s) :
    Kept q o w (State.abortFold s f) := by
  unfold State.abortFold
  repeat' first | (with_reducible first | assumption | apply State.answer_kept | apply kept_ite | apply kept_fst_ite | apply kept_foldl | apply kept_fst_foldl | simp only [kept_mk_iff]) | intro _ _ _ | intro _ _ | dsimp only

theorem State.abortCheck_kept (s : State) (h : Kept q o w s) :
    Kept q o w (State.abortCheck s) := by
  unfold State.abortCheck
  dsimp only
  repeat' first | (with_reducible first | assumption | apply State.setBstate_kept | apply kept_ite | apply kept_fst_ite | simp only [kept_mk_iff]) | split

theorem State.shepRestart_kept (s : State) (h : Kept q o w s) :
    Kept q o w (State.shepRestart s) := by
  unfold State.shepRestart
  dsimp only
  repeat' first | (with_reducible first | assumption | apply State.abortFold_kept | apply State.abortCheck_kept | apply kept_ite | apply kept_fst_ite | apply kept_foldl | apply kept_fst_foldl | simp only [kept_mk_iff]) | intro _ _ _ | intro _ _

theorem execShepRestart_kept (ok : Bool) (s : State) (h : Kept q o w s) :
    KeptRes q o w (execShepRestart ok s) := by
  unfold execShepRestart
  repeat' first | (with_reducible first | assumption | apply State.shepRestart_kept | apply State.raise_kept | apply kept_next | apply kept_res_ite | apply kept_ite | apply kept_fst_ite | simp only [kept_mk_iff]) | split | dsimp only

theorem State.dwNvsRead_kept (s : State) (c : Cmd) (h : Kept q o w s) :
    Kept q o w (State.dwNvsRead s c).1 := by
  unfold State.dwNvsRead
  dsimp only
  repeat' first | (with_reducible first | assumption | apply State.shepTrap_kept | apply State.memUe_kept | apply kept_ite | apply kept_fst_ite | simp only [kept_mk_iff]) | split

theorem execDwNvsRead_kept (f : Fin 128) (h' : Hdr) (params : List Sys2Proof.Byte) (s : State) (h : Kept q o w s) :
    KeptRes q o w (execDwNvsRead f h' params s) := by
  unfold execDwNvsRead
  repeat' first | (with_reducible first | assumption | apply State.dweul_kept | apply State.dwNvsRead_kept | apply kept_next | apply kept_res_ite | apply kept_ite | apply kept_fst_ite | simp only [kept_mk_iff]) | dsimp only

theorem State.dwNvsWrite_kept (s : State) (c : Cmd) (block : List Sys2Proof.Byte) (h : Kept q o w s) :
    Kept q o w (State.dwNvsWrite s c block).1 := by
  unfold State.dwNvsWrite
  dsimp only
  repeat' first | (with_reducible first | assumption | apply State.nvsStore_kept | apply kept_ite | apply kept_fst_ite | simp only [kept_mk_iff]) | split

theorem execDwNvsWrite_kept (f : Fin 128) (h' : Hdr) (params : List Sys2Proof.Byte) (block : List Sys2Proof.Byte) (s : State) (h : Kept q o w s) :
    KeptRes q o w (execDwNvsWrite f h' params block s) := by
  unfold execDwNvsWrite
  repeat' first | (with_reducible first | assumption | apply State.dweulBulk_kept | apply State.dwNvsWrite_kept | apply kept_next | apply kept_res_ite | apply kept_ite | apply kept_fst_ite | simp only [kept_mk_iff]) | dsimp only

theorem State.dwFwUpdate_kept (s : State) (x2 : Cmd) (block : List Sys2Proof.Byte) (h : Kept q o w s) :
    Kept q o w (State.dwFwUpdate s x2 block).1 := by
  unfold State.dwFwUpdate
  dsimp only
  repeat' first | (with_reducible first | assumption | apply State.nvsStore_kept | apply kept_ite | apply kept_fst_ite | simp only [kept_mk_iff]) | split

theorem execDwFwUpdate_kept (f : Fin 128) (h' : Hdr) (params : List Sys2Proof.Byte) (block : List Sys2Proof.Byte) (s : State) (h : Kept q o w s) :
    KeptRes q o w (execDwFwUpdate f h' params block s) := by
  unfold execDwFwUpdate
  repeat' first | (with_reducible first | assumption | apply State.dweulBulk_kept | apply State.dwFwUpdate_kept | apply kept_next | apply kept_res_ite | apply kept_ite | apply kept_fst_ite | simp only [kept_mk_iff]) | dsimp only

theorem State.dwFwActivate_kept (s : State) (c : Cmd) (h : Kept q o w s) : Kept q o w (State.dwFwActivate s c).1 := by
  unfold State.dwFwActivate
  exact kept_fst_ite h (kept_mem h id id)

theorem execDwFwActivate_kept (f : Fin 128) (h' : Hdr) (params : List Sys2Proof.Byte) (s : State) (h : Kept q o w s) :
    KeptRes q o w (execDwFwActivate f h' params s) := by
  unfold execDwFwActivate
  repeat' first | (with_reducible first | assumption | apply State.dweul_kept | apply State.dwFwActivate_kept | apply kept_next | apply kept_res_ite | apply kept_ite | apply kept_fst_ite | simp only [kept_mk_iff]) | dsimp only

theorem State.dwCommit_kept (s : State) (folds : Option (List (Nat × Nat))) (h : Kept q o w s) :
    Kept q o w (State.dwCommit s folds).1 := by
  unfold State.dwCommit
  have h2 := State.configCommit_kept s folds h
  split <;> rename_i g <;> rw [g] at h2 <;> exact h2

theorem State.dwCommitSection_kept (s : State) (x2 : Cmd) (block : List Sys2Proof.Byte) (h : Kept q o w s) :
    Kept q o w (State.dwCommitSection s x2 block).1 := by
  unfold State.dwCommitSection
  repeat' first | (with_reducible first | assumption | apply State.dwCommit_kept | apply kept_ite | apply kept_fst_ite | simp only [kept_mk_iff]) | split | dsimp only

theorem execDwConfigCommit_kept (f : Fin 128) (h' : Hdr) (params : List Sys2Proof.Byte) (block : List Sys2Proof.Byte) (s : State) (h : Kept q o w s) :
    KeptRes q o w (execDwConfigCommit f h' params block s) := by
  unfold execDwConfigCommit
  dsimp only
  repeat' first | (with_reducible first | assumption | apply State.takeIn_kept | apply State.dweul_kept | apply State.dwCommit_kept | apply State.dweulBulk_kept | apply State.dwCommitSection_kept | apply kept_next | apply kept_res_ite | apply kept_ite | apply kept_fst_ite | apply kept_snd_ite | apply kept_foldl | apply kept_fst_foldl | apply kept_nvsPut | simp only [kept_mk_iff]) | split | intro _ _ _ | intro _ _

theorem State.dwLifecycle_kept (s : State) (c : Cmd) (h : Kept q o w s) :
    Kept q o w (State.dwLifecycle s c).1 := by
  unfold State.dwLifecycle
  dsimp only
  repeat' first | (with_reducible first | assumption | apply kept_ite | apply kept_fst_ite | simp only [kept_mk_iff]) | split

/-- An answer of status 0 is the body's. -/
theorem State.dweul_zero {s : State} {op : Op} {f : Nat} {hd : Hdr} {params : List Sys2Proof.Byte} {len : Nat}
    {body : State → Cmd → State × Option Ans} (h : Kept q o w s) (hz : (s.dweul op f hd params len body).2 = some 0) :
    ∃ u c x, Kept q o w u ∧ c.params = params ∧ (body u c).2 = some x ∧ x.status = 0 := by
  have fin (s t : State) (e : Taken) (a : Option Ans) (hz : (State.finish s t f e a).2 = some 0) :
      ∃ x, a = some x ∧ x.status = 0 := by
    unfold State.finish at hz
    split at hz
    · cases hz
    · split at hz
      · split at hz
        · exact ⟨_, rfl, Option.some.inj hz⟩
        · cases hz
      · cases hz
  unfold State.dweul at hz
  split at hz
  · cases hz
  · dsimp only at hz
    split at hz
    · cases hz
    · split at hz
      · rename_i a ha
        obtain ⟨x, hx, h0⟩ := fin _ _ _ _ hz
        cases hx
        unfold State.refusal at ha
        split at ha
        · cases ha
          cases h0
        · dsimp only at ha
          split at ha
          · cases ha
          · cases ha
            cases h0
      · obtain ⟨x, hx, h0⟩ := fin _ _ _ _ hz
        exact ⟨_, _, x, State.dropStream_kept _ f (State.takeIn_kept s f { hd with opcode := op.code } h), rfl, hx, h0⟩

/-- LIFECYCLE: the life-cycle state grows, and the rest is kept. -/
theorem execDwLifecycle_grows (f : Fin 128) (hd : Hdr) (params : List Sys2Proof.Byte) (s : State) (h : Kept q o w s) :
    ∃ t, execDwLifecycle f hd params s = .next t ∧ t.pending = q ∧ Otp.Grows o t.mem.otp ∧ (w = true → t.mem.wf = true) := by
  have h2 := State.dweul_kept s ⟨0x0D06, false, 3, .engineerInCommission⟩ f hd params 8 State.dwLifecycle
    State.dwLifecycle_kept h
  unfold execDwLifecycle
  dsimp only
  split
  · rename_i hz
    refine ⟨_, rfl, ?_⟩
    obtain ⟨u, c, x, hu, hp, hx, h0⟩ := State.dweul_zero h hz
    have hs : u.mem.otp.succeeds (c.u8 0) = true := by
      unfold State.dwLifecycle at hx
      dsimp only at hx
      split at hx
      · cases hx; cases h0
      · split at hx
        · cases hx; cases h0
        · rename_i hn
          simpa using hn
    have hb : c.u8 0 = byteAt params 0 := by rw [Cmd.u8, hp]
    generalize (s.dweul ⟨0x0D06, false, 3, .engineerInCommission⟩ f hd params 8 State.dwLifecycle).1 = t at h2 ⊢
    have hl : o.lc ≤ byteAt params 0 := by
      have := hu.2.1.lcSame
      simp only [Otp.succeeds, hb, Bool.or_eq_true, Bool.and_eq_true, decide_eq_true_eq] at hs
      omega
    have key : Kept q { o with lc := byteAt params 0 } w { t with mem := { t.mem with otp := { t.mem.otp with lc := byteAt params 0 } } } :=
      ⟨h2.1, { h2.2.1 with lc := Nat.le_refl _, lcSame := rfl }, h2.2.2⟩
    have h3 := State.chipReset_kept _ 5 0 key
    refine ⟨h3.1, { h3.2.1 with lc := Nat.le_trans hl h3.2.1.lc }, h3.2.2⟩
  · exact ⟨_, rfl, h2.1, h2.2.1.toGrows, h2.2.2⟩

theorem execDwChipReset_kept (f : Fin 128) (h' : Hdr) (params : List Sys2Proof.Byte) (s : State) (h : Kept q o w s) :
    KeptRes q o w (execDwChipReset f h' params s) := by
  unfold execDwChipReset
  dsimp only
  repeat' first | (with_reducible first | assumption | apply State.dweul_kept | apply State.chipRstReaction_kept | apply kept_next | apply kept_res_ite | apply kept_ite | apply kept_fst_ite | apply kept_snd_ite | apply kept_foldl | apply kept_fst_foldl | apply kept_nvsPut | simp only [kept_mk_iff]) | split | intro _ _ _ | intro _ _

end Sys2Proof.Machine
end

