-- ==== Sys2Proof/Laws/Regs.lean ====
section
/-!
SUPPORT. What the operations on registers and fields do: a write is read back, every other register and every other field
stays, and nothing but the registers changes.
-/

namespace Sys2Proof.Machine

/-! ### Registers -/

@[simp] theorem State.reg_wr_self (s : State) (a : Nat) (v : Word) : (s.wr a v).reg a = v := by
  simp [State.reg, State.wr]

theorem State.reg_wr_ne (s : State) {a b : Nat} (v : Word) (h : b ≠ a) : (s.wr a v).reg b = s.reg b := by
  simp [State.reg, State.wr, Sparse.get_set_other _ _ _ _ _ h]

@[simp] theorem State.rd_wr_self (s : State) (a : Nat) (v : Word) : (s.wr a v).rd a = v.toNat := by simp [State.rd]

theorem State.rd_wr_ne (s : State) {a b : Nat} (v : Word) (h : b ≠ a) : (s.wr a v).rd b = s.rd b := by
  simp [State.rd, State.reg_wr_ne s v h]

theorem State.rd_lt (s : State) (a : Nat) : s.rd a < 2 ^ 32 := (s.reg a).isLt

@[simp] theorem State.rd_wrN_self (s : State) (a v : Nat) : (s.wrN a v).rd a = v % 2 ^ 32 := by simp [State.wrN]

theorem State.reg_wrN_ne (s : State) {a b : Nat} (v : Nat) (h : b ≠ a) : (s.wrN a v).reg b = s.reg b :=
  State.reg_wr_ne s _ h

theorem State.rd_wrN_ne (s : State) {a b : Nat} (v : Nat) (h : b ≠ a) : (s.wrN a v).rd b = s.rd b :=
  State.rd_wr_ne s _ h

theorem State.rd_congr {s t : State} {a : Nat} (h : t.reg a = s.reg a) : t.rd a = s.rd a := by simp [State.rd, h]

/-- Only the list of registers decides what a register reads as. -/
theorem State.reg_of_regs {s t : State} (h : t.regs = s.regs) (a : Nat) : t.reg a = s.reg a := by simp [State.reg, h]

/-! ### Fields -/

/-- A word is its part above a field, the field, and the part below. -/
theorem Fld.split (f : Fld) (w : Nat) :
    w - f.of w * 2 ^ f.lo = 2 ^ f.lo * (2 ^ f.width * (w / 2 ^ f.lo / 2 ^ f.width)) + w % 2 ^ f.lo := by
  have a := Nat.div_add_mod w (2 ^ f.lo)
  have b := Nat.div_add_mod (w / 2 ^ f.lo) (2 ^ f.width)
  have c : 2 ^ f.lo * (2 ^ f.width * (w / 2 ^ f.lo / 2 ^ f.width)) + f.of w * 2 ^ f.lo + w % 2 ^ f.lo = w := by
    rw [Nat.mul_comm (f.of w), ← Nat.mul_add]; unfold Fld.of; rw [b, a]
  omega

theorem Fld.put_eq (f : Fld) (w v : Nat) :
    f.put w v = 2 ^ f.lo * (2 ^ f.width * (w / 2 ^ f.lo / 2 ^ f.width) + v % 2 ^ f.width) + w % 2 ^ f.lo := by
  unfold Fld.put; rw [f.split w, Nat.mul_add, Nat.mul_comm (v % 2 ^ f.width)]; omega

theorem Fld.put_div (f : Fld) (w v : Nat) :
    f.put w v / 2 ^ f.lo = 2 ^ f.width * (w / 2 ^ f.lo / 2 ^ f.width) + v % 2 ^ f.width := by
  have := Nat.two_pow_pos f.lo
  rw [f.put_eq, Nat.mul_add_div this, Nat.div_eq_of_lt (Nat.mod_lt _ this)]; rfl

/-- The field of a word in which it has been replaced. -/
@[simp] theorem Fld.of_put (f : Fld) (w v : Nat) : f.of (f.put w v) = v % 2 ^ f.width := by
  unfold Fld.of; rw [f.put_div]; simp

theorem Fld.put_mod (f : Fld) (w v : Nat) : f.put w v % 2 ^ f.lo = w % 2 ^ f.lo := by
  rw [f.put_eq]; simp

theorem Fld.put_above (f : Fld) (w v : Nat) :
    f.put w v / 2 ^ (f.lo + f.width) = w / 2 ^ (f.lo + f.width) := by
  have := Nat.two_pow_pos f.width
  rw [Nat.pow_add, ← Nat.div_div_eq_div_mul, f.put_div, Nat.mul_add_div this,
    Nat.div_eq_of_lt (Nat.mod_lt _ this), ← Nat.div_div_eq_div_mul]; rfl

/-- A word that fits a register still does with a field of the register replaced. -/
theorem Fld.put_lt (f : Fld) {w : Nat} (v : Nat) (h : f.hi < 32) (hw : w < 2 ^ 32) : f.put w v < 2 ^ 32 := by
  by_cases hl : f.lo ≤ f.hi + 1
  · have e : f.lo + f.width = f.hi + 1 := by simp [Fld.width]; omega
    have a := f.put_above w v
    rw [e] at a
    have p : (2 : Nat) ^ (f.hi + 1) * 2 ^ (31 - f.hi) = 2 ^ 32 := by rw [← Nat.pow_add]; congr 1; omega
    have b : w / 2 ^ (f.hi + 1) < 2 ^ (31 - f.hi) := Nat.div_lt_of_lt_mul (by rw [p]; exact hw)
    rw [← a] at b
    have := (Nat.div_lt_iff_lt_mul (Nat.two_pow_pos (f.hi + 1))).1 b
    rw [Nat.mul_comm, p] at this; exact this
  · have : f.width = 0 := by simp [Fld.width]; omega
    unfold Fld.put Fld.of; rw [this]; simp [Nat.mod_one]; exact hw

/-- A field above or below the one replaced stays. -/
theorem Fld.of_put_ne (f g : Fld) (w v : Nat) (h : g.hi < f.lo ∨ f.hi < g.lo) (hf : f.lo ≤ f.hi) :
    g.of (f.put w v) = g.of w := by
  unfold Fld.of
  cases h with
  | inl h =>
    by_cases hl : g.lo ≤ g.hi + 1
    · have e : g.lo + g.width = g.hi + 1 := by simp [Fld.width]; omega
      have p : (2 : Nat) ^ f.lo = 2 ^ g.lo * 2 ^ g.width * 2 ^ (f.lo - (g.hi + 1)) := by
        rw [← Nat.pow_add, e, ← Nat.pow_add]; congr 1; omega
      have key : ∀ x : Nat, x / 2 ^ g.lo % 2 ^ g.width = x % 2 ^ f.lo / 2 ^ g.lo % 2 ^ g.width := by
        intro x
        have d := Nat.div_add_mod x (2 ^ f.lo)
        conv => lhs; rw [← d, p, Nat.mul_assoc, Nat.mul_assoc, Nat.mul_add_div (Nat.two_pow_pos g.lo),
          Nat.mul_assoc, Nat.mul_add_mod]
        rw [p, Nat.mul_assoc]
      rw [key, f.put_mod, ← key]
    · have : g.width = 0 := by simp [Fld.width]; omega
      rw [this]; simp [Nat.mod_one]
  | inr h =>
    have e : g.lo = (f.lo + f.width) + (g.lo - (f.hi + 1)) := by simp [Fld.width]; omega
    rw [e, Nat.pow_add, ← Nat.div_div_eq_div_mul, ← Nat.div_div_eq_div_mul, f.put_above]

theorem State.rd_setFld (s : State) (a : Nat) (f : Fld) (v : Nat) (h : f.hi < 32) :
    (s.setFld a f v).rd a = f.put (s.rd a) v := by
  unfold State.setFld; rw [State.rd_wrN_self, Nat.mod_eq_of_lt (Fld.put_lt f v h (s.rd_lt a))]

theorem State.reg_setFld_ne (s : State) {a b : Nat} (f : Fld) (v : Nat) (h : b ≠ a) : (s.setFld a f v).reg b = s.reg b :=
  State.reg_wrN_ne s _ h

theorem State.fld_setFld (s : State) (a : Nat) (f : Fld) (v : Nat) (h : f.hi < 32) :
    (s.setFld a f v).fld a f = v % 2 ^ f.width := by
  unfold State.fld; rw [State.rd_setFld s a f v h, Fld.of_put]

/-- A register write changes no field of the state but the registers. -/
theorem State.wr_rest (s : State) (a : Nat) (v : Word) : s.wr a v = { s with regs := (s.wr a v).regs } := rfl

end Sys2Proof.Machine
end

