-- ==== Sys2Proof/Laws/Only.lean ====
section
/-!
SUPPORT. Steps that change registers of a list and nothing else.
-/

namespace Sys2Proof.Machine

variable {A : List Nat} {s t u : State}

theorem OnlyRegs.refl (A : List Nat) (s : State) : OnlyRegs A s s := ⟨rfl, fun _ _ => rfl⟩

theorem OnlyRegs.trans (h : OnlyRegs A s t) (k : OnlyRegs A t u) : OnlyRegs A s u :=
  ⟨by rw [k.1, h.1], fun a ha => (k.2 a ha).trans (h.2 a ha)⟩

theorem OnlyRegs.wr (h : OnlyRegs A s t) (a : Nat) (v : Word) (ha : a ∈ A) : OnlyRegs A s (t.wr a v) :=
  h.trans ⟨rfl, fun _ hb => State.reg_wr_ne _ _ (fun e => hb (e ▸ ha))⟩

theorem OnlyRegs.wrN (h : OnlyRegs A s t) (a v : Nat) (ha : a ∈ A) : OnlyRegs A s (t.wrN a v) := h.wr a _ ha

theorem OnlyRegs.setFld (h : OnlyRegs A s t) (a : Nat) (f : Fld) (v : Nat) (ha : a ∈ A) : OnlyRegs A s (t.setFld a f v) :=
  h.wr a _ ha

theorem OnlyRegs.setBit (h : OnlyRegs A s t) (a : Nat) (f : Fld) (b : Bool) (ha : a ∈ A) : OnlyRegs A s (t.setBit a f b) :=
  h.wr a _ ha

theorem OnlyRegs.flag (h : OnlyRegs A s t) (a : Nat) (f : Fld) (ha : a ∈ A) : OnlyRegs A s (t.flag a f) := h.wr a _ ha

theorem OnlyRegs.setBitAt (h : OnlyRegs A s t) (a k : Nat) (b : Bool) (ha : a ∈ A) : OnlyRegs A s (t.setBitAt a k b) :=
  h.wr a _ ha

theorem OnlyRegs.countBy (h : OnlyRegs A s t) (a n : Nat) (ha : a ∈ A) : OnlyRegs A s (t.countBy a n) := h.wr a _ ha

theorem OnlyRegs.count (h : OnlyRegs A s t) (a : Nat) (ha : a ∈ A) : OnlyRegs A s (t.count a) := h.wr a _ ha

theorem OnlyRegs.countFld (h : OnlyRegs A s t) (a : Nat) (f : Fld) (ha : a ∈ A) : OnlyRegs A s (t.countFld a f) :=
  h.wr a _ ha

theorem OnlyRegs.wr64 (h : OnlyRegs A s t) (lo hi v : Nat) (hl : lo ∈ A) (hh : hi ∈ A) : OnlyRegs A s (t.wr64 lo hi v) :=
  (h.wr lo _ hl).wr hi _ hh

theorem OnlyRegs.ite {c : Prop} [Decidable c] (h : OnlyRegs A s t) (k : OnlyRegs A s u) : OnlyRegs A s (if c then t else u) := by
  split <;> assumption

end Sys2Proof.Machine
end

