-- ==== Sys2Proof/WellFormed.lean ====
section
/-!
DEFINITION. Well-formed commands: what an operand's type leaves open. Indices are bounded by their types; a packet's header
must carry its row's opcode and values that fit its fields (R486, R491), and a measurement must name units that exist. The
meanings do not rely on it: a command that is not well-formed still has an outcome.
-/

namespace Sys2Proof

open Sys2Proof.Machine

/-- Opcode, header and parameters of a Dweul command (R500); none for every other command. -/
def Instr.dweul : Instr → Option (Nat × Hdr × List Byte)
  | .dwNop _ h p => some (0x0100, h, p)
  | .dwGetInfo _ h p => some (0x0101, h, p)
  | .dwSetMode _ h p => some (0x0102, h, p)
  | .dwEventCancel _ h p => some (0x0103, h, p)
  | .dwRegRead _ h p => some (0x0104, h, p)
  | .dwRegWrite _ h p => some (0x0105, h, p)
  | .dwFoldInfo _ h p => some (0x0106, h, p)
  | .dwGroupCancel _ h p => some (0x0107, h, p)
  | .dwStitchRead _ h p => some (0x0201, h, p)
  | .dwStitchBaste _ h p => some (0x0202, h, p)
  | .dwStitchDirect _ h p => some (0x0203, h, p)
  | .dwDescRead _ h p => some (0x0204, h, p)
  | .dwDescBaste _ h p => some (0x0205, h, p)
  | .dwDmapBaste _ h p => some (0x0206, h, p)
  | .dwSrcAttrSet _ h p => some (0x0207, h, p)
  | .dwMeterRead _ h p => some (0x0208, h, p)
  | .dwBasteImage _ h p _ => some (0x0301, h, p)
  | .dwCheck _ h p => some (0x0302, h, p)
  | .dwSew _ h p => some (0x0303, h, p)
  | .dwDiscard _ h p => some (0x0304, h, p)
  | .dwGroupSew _ h p => some (0x0305, h, p)
  | .dwPatternState _ h p => some (0x0306, h, p)
  | .dwNeedleLoad _ h p _ => some (0x0401, h, p)
  | .dwNeedleRead _ h p => some (0x0402, h, p)
  | .dwNeedleCtrl _ h p => some (0x0403, h, p)
  | .dwNeedleDoorbell _ h p => some (0x0404, h, p)
  | .dwNeedleStatus _ h p => some (0x0405, h, p)
  | .dwBellRead _ h p => some (0x0501, h, p)
  | .dwRefSet _ h p => some (0x0502, h, p)
  | .dwRefSelect _ h p => some (0x0503, h, p)
  | .dwLoopSet _ h p => some (0x0504, h, p)
  | .dwDivSet _ h p => some (0x0505, h, p)
  | .dwServoSet _ h p => some (0x0506, h, p)
  | .dwPtpRead _ h p => some (0x0601, h, p)
  | .dwPtpSet _ h p => some (0x0602, h, p)
  | .dwNetPortSet _ h p => some (0x0603, h, p)
  | .dwFlowSet _ h p => some (0x0604, h, p)
  | .dwFlowStart _ h p => some (0x0605, h, p)
  | .dwFlowStop _ h p => some (0x0606, h, p)
  | .dwFlockStart _ h p => some (0x0607, h, p)
  | .dwFlockStop _ h p => some (0x0608, h, p)
  | .dwFlowRead _ h p => some (0x0609, h, p)
  | .dwPortSet _ h p => some (0x0701, h, p)
  | .dwPortStart _ h p => some (0x0702, h, p)
  | .dwPortStop _ h p => some (0x0703, h, p)
  | .dwPortRead _ h p => some (0x0704, h, p)
  | .dwLineSet _ h p => some (0x0801, h, p)
  | .dwLineEnable _ h p => some (0x0802, h, p)
  | .dwLineDisable _ h p => some (0x0803, h, p)
  | .dwLineClear _ h p => some (0x0804, h, p)
  | .dwLineCtrlSet _ h p => some (0x0805, h, p)
  | .dwLineRead _ h p => some (0x0806, h, p)
  | .dwAlarmActivate _ h p => some (0x0901, h, p)
  | .dwAlarmRelease _ h p => some (0x0902, h, p)
  | .dwPatternLoad _ h p _ => some (0x0903, h, p)
  | .dwMessageWrite _ h p _ => some (0x0904, h, p)
  | .dwMessageStart _ h p => some (0x0905, h, p)
  | .dwMessageStop _ h p => some (0x0906, h, p)
  | .dwFallbackLoad _ h p _ => some (0x0907, h, p)
  | .dwAlarmRead _ h p => some (0x0908, h, p)
  | .dwTwinRead _ h p => some (0x0A01, h, p)
  | .dwHandover _ h p => some (0x0A02, h, p)
  | .dwTwinCmd _ h p => some (0x0A03, h, p)
  | .dwTwinCfgSet _ h p => some (0x0A04, h, p)
  | .dwFaultRead _ h p => some (0x0B01, h, p)
  | .dwFaultAck _ h p => some (0x0B02, h, p)
  | .dwFaultSrcSet _ h p => some (0x0B03, h, p)
  | .dwFaultSrcRead _ h p => some (0x0B04, h, p)
  | .dwTelemSnapshot _ h p => some (0x0C01, h, p)
  | .dwTelemSubscribe _ h p => some (0x0C02, h, p)
  | .dwTelemUnsubscribe _ h p => some (0x0C03, h, p)
  | .dwNvsRead _ h p => some (0x0D01, h, p)
  | .dwNvsWrite _ h p _ => some (0x0D02, h, p)
  | .dwFwUpdate _ h p _ => some (0x0D03, h, p)
  | .dwFwActivate _ h p => some (0x0D04, h, p)
  | .dwConfigCommit _ h p _ => some (0x0D05, h, p)
  | .dwLifecycle _ h p => some (0x0D06, h, p)
  | .dwChipReset _ h p => some (0x0D07, h, p)
  | _ => none

/-- The values of a header fit its fields (R486). -/
def hdrFits (h : Hdr) : Bool :=
  h.version < 256 && h.fold < 256 && h.opcode < 65536 && h.seq < 2 ^ 32 && h.length < 65536 && h.flags < 65536 &&
    h.engine < 65536 && h.group < 65536

/-- A Dweul packet of an opcode: its header names the opcode and the length of its parameters. -/
def packetOk (op : Nat) (h : Hdr) (params : List Byte) : Bool :=
  hdrFits h && h.opcode = op && h.length = params.length

/-- A frame of a size that Ethernet carries, with addresses and ports that fit their fields (R297, R298). -/
def frameOk (f : Frame) : Bool :=
  14 ≤ f.size && f.tags ≤ 255 &&
    match f.udp with
    | some (src, dst, port, _) => src < 2 ^ 32 && dst < 2 ^ 32 && port < 65536
    | none => true

/-- The words of one frame of a local port: two subframes of an AES3 port, up to 32 slots of a TDM port. -/
def portWordsOk (q : LocalPort) (n : Nat) : Bool :=
  match q with
  | .arx _ => n = 2
  | .atx _ => false
  | .tdm _ => n ≤ 32

/-- The well-formed commands. -/
def Instr.wf (i : Instr) : Bool :=
  match i.dweul with
  | some (op, h, p) => packetOk op h p
  | none =>
    match i with
    | .blockStart codes _ _ => codes.length = 24
    | .selectionEval phases => phases.length = 16
    | .frameReceive _ frame _ _ => frameOk frame
    | .localFrameReceive q _ ws => portWordsOk q ws.length
    | .foldDoorbell _ _ ps => ps.all hdrFits
    | .foldRheadWrite _ _ ps => ps.all hdrFits
    | .scrubLine found _ => found.length ≤ 32
    | .dweulDatagram _ _ _ bytes => 32 ≤ bytes.length && bytes.length ≤ 9000
    | _ => true

end Sys2Proof
end

section
/-!
PROOF. A core of the Needle array: reading and replacing it, an instruction that issues into an empty pipeline (R182, R184),
WAIT (R191) and the stores to NX_DONE (R173, R174).
-/

namespace Sys2Proof.Machine

/-! ### Replacing a core -/

theorem Sparse.erase_erase {α : Type} (m : Sparse α) (k : Nat) :
    Sparse.erase (Sparse.erase m k) k = Sparse.erase m k := by
  induction m with
  | nil => rfl
  | cons e m ih => by_cases h : e.1 = k <;> simp [Sparse.erase, h, ih]

theorem Sparse.erase_insert {α : Type} (m : Sparse α) (k : Nat) (v : α) :
    Sparse.erase (Sparse.insert m k v) k = Sparse.erase m k := by
  induction m with
  | nil => simp [Sparse.insert, Sparse.erase]
  | cons e m ih =>
    by_cases hl : k < e.1
    · simp [Sparse.insert, Sparse.erase, hl]
    · simp [Sparse.insert, Sparse.erase, hl, ih]

/-- The later of two writes at one key counts. -/
@[simp] theorem Sparse.set_set {α : Type} [DecidableEq α] (d : Nat → α) (m : Sparse α) (k : Nat) (v w : α) :
    Sparse.set d (Sparse.set d m k v) k w = Sparse.set d m k w := by
  have erased : Sparse.erase (Sparse.set d m k v) k = Sparse.erase m k := by
    unfold Sparse.set
    split <;> simp [Sparse.erase_insert, Sparse.erase_erase]
  rw [Sparse.set, erased, Sparse.set]

@[simp] theorem State.core_setCore (s : State) (c : Nat) (k : Core) : (s.setCore c k).core c = k := by
  simp [State.core, State.setCore]

@[simp] theorem State.setCore_setCore (s : State) (c : Nat) (k l : Core) :
    (s.setCore c k).setCore c l = s.setCore c l := by
  simp [State.setCore]

/-- Only the state of the array decides what a core is. -/
theorem State.core_of_needle {s t : State} (h : t.needle = s.needle) (c : Nat) : t.core c = s.core c := by
  simp [State.core, h]

/-! ### An instruction that issues into an empty pipeline -/

/-- A cycle in which no result is on its way: the counters advance, and no store takes effect. -/
theorem Core.cycle_of_pend_nil {k : Core} (h : k.pend = []) : k.cycle =
    ({ k with cyc := k.cyc + 1, blockAge := if k.irqPend % 2 = 1 then k.blockAge + 1 else k.blockAge }, []) := by
  obtain ⟨⟩ := k
  subst h
  rfl

theorem State.cycles_one_of_pend_nil (s : State) (c : Nat) {k : Core} (h : k.pend = []) :
    (s.setCore c k).cycles c 1 = s.setCore c { k with
      cyc := k.cyc + 1, blockAge := if k.irqPend % 2 = 1 then k.blockAge + 1 else k.blockAge } := by
  simp [State.cycles, Core.cycle_of_pend_nil h]

/-- Outside REP and delay slots the PC moves to the next instruction (R208). -/
theorem Core.advance_straight {old : Core} (k : Core) (w : Nat) (hrep : old.rep = 0) (hslots : old.slots = 0) :
    Core.advance old k w false = { k with rep := 0, pc := (old.pc + w) % 16384 } := by
  simp [Core.advance, hrep, hslots]

theorem Issues.running {s : State} {c : Nat} {k : Core} {i : NI} (h : Issues s c k i) : k.st = .running := by
  obtain ⟨-, hissues, -⟩ := h
  simp only [Core.issues, Bool.and_eq_true, decide_eq_true_eq] at hissues
  exact hissues.1.1

/-- The instruction that the core issues executes to `k'`, and the core passes it in one cycle, when it is not REP, posts no
result, and does not stall at its own address. -/
theorem Issues.issue_ok {s : State} {c : Nat} {k k' : Core} {i : NI} {f : NI → Core → Option NRes} (h : Issues s c k i)
    (himm : ∀ n, i ≠ .repImm n) (hreg : ∀ n, i ≠ .repReg n) (hf : f i k = some (.ok k')) (hpend : k'.pend = [])
    (hstay : k'.st = .waiting → k'.wait = .wait) : s.issue c .clean f = s.setCore c { k' with
      rep := 0, pc := (k.pc + nWidth (k.fetch k.pc)) % 16384, cyc := k'.cyc + 1,
      blockAge := if k'.irqPend % 2 = 1 then k'.blockAge + 1 else k'.blockAge } := by
  obtain ⟨rfl, hissues, -, hslots, hrep, hpoison, hdecode⟩ := h
  have hnotStay : ¬ (k'.st = .waiting ∧ k'.wait ≠ .wait) := fun hs => hs.2 (hstay hs.1)
  have hcycle := State.cycles_one_of_pend_nil s c
    (k := { k' with rep := 0, pc := ((s.core c).pc + nWidth ((s.core c).fetch (s.core c).pc)) % 16384 }) hpend
  simp [State.issue, hissues, hpoison, hdecode, hf, hslots, hrep, hnotStay, Core.advance_straight, hcycle]

/-! ### WAIT (R191) -/

/-- A WAIT that issues passes when an enabled source is pending, and otherwise stalls the core behind it. -/
theorem exec_alWait_of_issues {s : State} {c : Fin 64} {k : Core} (h : Issues s c k .wait) :
    exec (.alWait c .clean) s = .next (s.setCore c
      (if k.irqNext = none then { k.passed with st := .waiting, wait := .wait } else k.passed)) := by
  show execAlWait c .clean s = _
  have ⟨_, _, hpend, _, hrep, _⟩ := h
  cases hnext : k.irqNext with
  | none =>
    rw [execAlWait, h.issue_ok (by simp) (by simp) (k' := { k with st := .waiting, wait := .wait }) (by simp [hnext])
      hpend (fun _ => rfl)]
    simp [Core.passed, hrep]
  | some src =>
    rw [execAlWait, h.issue_ok (by simp) (by simp) (k' := k) (by simp [hnext]) hpend (by simp [h.running])]
    simp [Core.passed, hrep]

/-- A core that stalls is at a clean point (R188): whether it takes an interrupt turns on SR.IE and the sources. -/
theorem Core.takesIrq_of_waiting {k : Core} (h : k.st = .waiting) :
    k.takesIrq = (!k.halting && srIe k.sr && k.irqNext.isSome) := by
  simp [Core.takesIrq, Core.clean, h]

theorem exec_interruptEntry_of_not_takesIrq {s : State} {c : Fin 64} (stall : Nat) (h : (s.core c).takesIrq = false) :
    exec (.interruptEntry c stall) s = .next s := by
  show execInterruptEntry c stall s = _
  simp [execInterruptEntry, h]

/-- A source other than BLOCK takes the core out of its stall: the cycles of the stall pass, then the entry (R189). -/
theorem exec_interruptEntry_of_waiting {s : State} {c : Fin 64} {src : Nat} (stall : Nat) (hst : (s.core c).st = .waiting)
    (htakes : (s.core c).takesIrq = true) (hnext : (s.core c).irqNext = some src) (hsrc : src ≠ 0) :
    exec (.interruptEntry c stall) s = .next (((s.stall c stall).setCore c { (s.stall c stall).core c with
      ipc := BitVec.ofNat 14 ((s.stall c stall).core c).pc, istat := ((s.stall c stall).core c).sr,
      sr := ((s.stall c stall).core c).sr &&& ~~~ 0x100#32,
      irqPend := ((s.stall c stall).core c).irqPend &&& (15 - 2 ^ src), pc := irqVector src,
      st := .running, wait := .none }).stall c 6) := by
  show execInterruptEntry c stall s = _
  simp [execInterruptEntry, htakes, hnext, hst, hsrc]

theorem exec_waitEnd_of_irqNext_none {s : State} {c : Fin 64} (stall : Nat) (h : (s.core c).irqNext = none) :
    exec (.waitEnd c stall) s = .next s := by
  show execWaitEnd c stall s = _
  simp [execWaitEnd, h]

theorem exec_waitEnd_of_irqNext {s : State} {c : Fin 64} (stall : Nat) (hst : (s.core c).st = .waiting)
    (hwait : (s.core c).wait = .wait) (hnext : (s.core c).irqNext ≠ none) (hie : srIe (s.core c).sr = false) :
    exec (.waitEnd c stall) s = .next ((s.setCore c { s.core c with st := .running, wait := .none }).stall c stall) := by
  show execWaitEnd c stall s = _
  simp [execWaitEnd, hst, hwait, Option.isSome_iff_ne_none.2 hnext, hie]

/-! ### Stores to NX_DONE (R173, R174) -/

theorem exec_nxDoneStore_of_active {s : State} {c : Fin 64} (v : Word) (h : (s.core c).active = true) :
    exec (.nxDoneStore c v) s = .next (s.nxDone c v.toNat (s.core c).cyc) := by
  show execNxDoneStore c v s = _
  simp [execNxDoneStore, State.nxStore, h]

theorem State.nxDone_of_tag_ne {s : State} {v : Nat} (c cyc : Nat) (h : v % 65536 ≠ s.needle.tag) :
    s.nxDone c v cyc = s.count (R.NEEDLE_LATE_CNT c) := by
  simp [State.nxDone, h]

/-- A frame that is ready already stays as it is. -/
theorem State.nxDone_of_ready {s : State} {c v : Nat} (cyc : Nat) (h : v % 65536 = s.needle.tag)
    (hready : (s.core c).ready = true) : s.nxDone c v cyc = s := by
  simp [State.nxDone, h, hready]

/-- The first store of the window's tag makes the frame ready and changes nothing else of the cores or of the window. -/
theorem State.needle_nxDone_of_tag {s : State} {c v : Nat} (cyc : Nat) (h : v % 65536 = s.needle.tag)
    (hready : (s.core c).ready = false) :
    (s.nxDone c v cyc).needle = (s.setCore c { s.core c with ready := true, readyOnce := true }).needle := by
  simp only [State.nxDone, h, ne_eq, not_true_eq_false, if_false, hready, Bool.false_eq_true]
  split <;> rfl

/-- Behind a store of the window's tag the frame is ready, the core as active as before, and the tag the same. -/
theorem State.nxDone_of_tag {s : State} {c v : Nat} (cyc : Nat) (h : v % 65536 = s.needle.tag) :
    ((s.nxDone c v cyc).core c).ready = true ∧ ((s.nxDone c v cyc).core c).active = (s.core c).active ∧
      (s.nxDone c v cyc).needle.tag = s.needle.tag := by
  cases hready : (s.core c).ready with
  | true => simp [State.nxDone_of_ready cyc h hready, hready]
  | false =>
    have hneedle := State.needle_nxDone_of_tag cyc h hready
    have hcore := (State.core_of_needle hneedle c).trans (State.core_setCore s c _)
    exact ⟨by rw [hcore], by rw [hcore]; rfl, by rw [hneedle]; rfl⟩

@[simp] theorem State.rd_count (s : State) (a : Nat) : (s.count a).rd a = min 0xFFFFFFFF (s.rd a + 1) := by
  unfold State.count State.countBy
  rw [State.rd_wrN_self]
  omega

/-- Settles O41: the second store finds the frame ready under the tag that the first has left. -/
theorem doneTags : Obligations.DoneTags := by
  unfold Obligations.DoneTags
  intro c v s hactive
  rw [exec_nxDoneStore_of_active v hactive]
  constructor
  · intro hne
    rw [State.nxDone_of_tag_ne c _ hne]
    exact ⟨_, rfl, (OnlyRegs.refl _ s).count _ (List.mem_singleton_self _), State.rd_count s _⟩
  · intro heq
    obtain ⟨hready, hact, htag⟩ := State.nxDone_of_tag (c := c) (s.core c).cyc heq
    refine ⟨_, rfl, hready, fun w hw => ?_⟩
    rw [exec_nxDoneStore_of_active w (hact.trans hactive), State.nxDone_of_ready _ (hw.trans htag.symm) hready]

/-- Settles O39: the WAIT that issues, the stall that goes on, and its two ends. -/
theorem waitInstruction : Obligations.WaitInstruction := by
  unfold Obligations.WaitInstruction
  intro c s k stall
  refine ⟨?stalls, ?staysStalled, ?passes, ?interrupted, ?goesOn⟩
  case stalls =>
    intro h hnone
    rw [exec_alWait_of_issues h, if_pos hnone]
  case staysStalled =>
    rintro rfl hst hnone
    have hnot : (s.core c).takesIrq = false := by simp [Core.takesIrq, hnone]
    exact ⟨exec_waitEnd_of_irqNext_none stall hnone, exec_interruptEntry_of_not_takesIrq stall hnot⟩
  case passes =>
    intro h hsome
    rw [exec_alWait_of_issues h, if_neg hsome]
  case interrupted =>
    rintro src u k' t rfl hst hhalt hie hnext hsrc rfl rfl rfl
    have htakes : (s.core c).takesIrq = true := by simp [Core.takesIrq_of_waiting hst, hhalt, hie, hnext]
    exact exec_interruptEntry_of_waiting stall hst htakes hnext hsrc
  case goesOn =>
    rintro rfl hst hwait hnext hie
    exact exec_waitEnd_of_irqNext stall hst hwait hnext hie

/-! ### Concrete cores on which the two statements speak -/

/-- A core at a WAIT in word 0 of its program, with every source enabled. -/
def waitCore (sr : Word) (irqPend : Nat) : Core :=
  { st := .running, sr := sr, pmem := [(0, 0x00100000#32)], irqEn := 15, irqPend := irqPend }

/-- The core stalled behind that WAIT. -/
def stalledCore (sr : Word) (irqPend : Nat) : Core :=
  { waitCore sr irqPend with st := .waiting, wait := .wait, pc := 1, cyc := 1 }

theorem issues_waitCore (irqPend : Nat) (s : State) :
    Issues (s.setCore 0 (waitCore 0x20#32 irqPend)) 0 (waitCore 0x20#32 irqPend) .wait :=
  ⟨(State.core_setCore s 0 _).symm, by simp [Core.issues, Core.takesIrq, waitCore, srIe], rfl, rfl, rfl, rfl, by
    show decodeNeedle 0x00100000#32 0#32 = some .wait
    decide⟩

/-- No source is pending: the core stalls. -/
theorem waitInstruction_stalls_witness : exec (.alWait 0 .clean) (State.reset.setCore 0 (waitCore 0x20#32 0)) =
    .next (State.reset.setCore 0 (stalledCore 0x20#32 0)) := by
  obtain ⟨hstalls, -⟩ := waitInstruction 0 _ _ 0
  exact hstalls (issues_waitCore 0 State.reset) rfl

/-- Source 1 is pending with SR.IE = 0: the WAIT passes. -/
theorem waitInstruction_passes_witness : exec (.alWait 0 .clean) (State.reset.setCore 0 (waitCore 0x20#32 2)) =
    .next (State.reset.setCore 0 { waitCore 0x20#32 2 with pc := 1, cyc := 1 }) := by
  obtain ⟨-, -, hpasses, -⟩ := waitInstruction 0 _ _ 0
  exact hpasses (issues_waitCore 2 State.reset) (by decide)

/-- Source 1 is pending with SR.IE = 1: the core enters the handler, and RTI will return behind the WAIT. -/
theorem waitInstruction_interrupted_witness :
    Gives (.interruptEntry 0 4) (State.reset.setCore 0 (stalledCore 0x120#32 2)) fun t =>
      (t.core 0).ipc = 1#14 ∧ (t.core 0).pc = 8 ∧ (t.core 0).st = .running ∧ (t.core 0).irqPend = 0 := by
  obtain ⟨-, -, -, hinterrupted, -⟩ := waitInstruction 0 (State.reset.setCore 0 (stalledCore 0x120#32 2)) _ 4
  exact ⟨_, hinterrupted 1 _ _ _ rfl rfl rfl rfl rfl (by decide) rfl rfl rfl, by decide⟩

/-- Source 1 is pending with SR.IE = 0 behind the WAIT: the core goes on, and the source stays pending. -/
theorem waitInstruction_goesOn_witness :
    Gives (.waitEnd 0 4) (State.reset.setCore 0 (stalledCore 0x20#32 2)) fun t =>
      (t.core 0).pc = 1 ∧ (t.core 0).st = .running ∧ (t.core 0).irqPend = 2 := by
  obtain ⟨-, -, -, -, hgoesOn⟩ := waitInstruction 0 (State.reset.setCore 0 (stalledCore 0x20#32 2)) _ 4
  exact ⟨_, hgoesOn rfl rfl rfl (by decide) rfl, by decide⟩

/-- A tag that is not the window's counts once. -/
theorem doneTags_late_witness :
    Gives (.nxDoneStore 0 7#32) (State.reset.setCore 0 { st := .running }) fun t => t.rd (R.NEEDLE_LATE_CNT 0) = 1 := by
  obtain ⟨hlate, -⟩ := doneTags 0 7#32 (State.reset.setCore 0 { st := .running }) rfl
  obtain ⟨t, ht, -, hcount⟩ := hlate (by decide)
  exact ⟨t, ht, hcount.trans (by decide)⟩

/-- The window's tag, 0 at reset, makes the frame ready, whatever stands above its 16 bits. -/
theorem doneTags_ready_witness :
    Gives (.nxDoneStore 0 0x50000#32) (State.reset.setCore 0 { st := .running }) fun t =>
      (t.core 0).ready = true ∧ exec (.nxDoneStore 0 0#32) t = .next t := by
  obtain ⟨-, hmatch⟩ := doneTags 0 0x50000#32 (State.reset.setCore 0 { st := .running }) rfl
  obtain ⟨t, ht, hready, hsecond⟩ := hmatch (by decide)
  exact ⟨t, ht, hready, hsecond 0#32 (by decide)⟩

end Sys2Proof.Machine
end

section
/-!
PROOF. ONCE registers (R519): the register tables hold two of them, SYS_ENGINE_ID and ALARM_MSG_DRAM, whose write also starts
the message copies (R414). A write of which no enabled byte reaches the register counts as its first write, where the spec is
silent.
-/

namespace Sys2Proof.Machine

/-! ### The rows of the register tables -/

theorem mem_windowRegs_of_regSpec? {a : Nat} {r : RegSpec} (h : regSpec? a = some r) : r ∈ windowRegs a := by
  unfold regSpec? at h
  split at h
  · cases h
  · exact List.mem_of_find?_eq_some h

/-- No row stores bits that a register does not have. -/
theorem windowRegs_wmask_lt (a : Nat) : ∀ r ∈ windowRegs a, r.wmask < 2 ^ 32 := by
  unfold windowRegs
  split <;> decide

theorem regSpec?_wmask_lt {a : Nat} {r : RegSpec} (h : regSpec? a = some r) : r.wmask < 2 ^ 32 :=
  windowRegs_wmask_lt a r (mem_windowRegs_of_regSpec? h)

theorem wmask_of_regSpec?_msgDram {r : RegSpec} (h : regSpec? R.ALARM_MSG_DRAM = some r) : r.wmask = 2 ^ 22 - 1 := by
  have row : (regSpec? R.ALARM_MSG_DRAM).map RegSpec.wmask = some (2 ^ 22 - 1) := by decide
  rw [h] at row
  exact Option.some.inj row

/-! ### Merged words -/

/-- A masked write into a word of 32 bits leaves a word of 32 bits. -/
theorem mergeBits_lt {old msk : Nat} (v : Nat) (hold : old < 2 ^ 32) (hmsk : msk < 2 ^ 32) :
    mergeBits old v msk < 2 ^ 32 :=
  Nat.or_lt_two_pow (Nat.and_lt_two_pow v hmsk) (Nat.lt_of_le_of_lt Nat.and_le_left hold)

theorem State.mergeBits_rd_lt (s : State) {a : Nat} {r : RegSpec} (v msk : Nat) (h : regSpec? a = some r) :
    mergeBits (s.rd a) v (msk &&& r.wmask) < 2 ^ 32 :=
  mergeBits_lt v (s.rd_lt a) (Nat.and_lt_two_pow msk (regSpec?_wmask_lt h))

/-! ### The write of a ONCE register -/

/-- The state in which the ONCE register at `a` has taken its write, before the write acts. -/
def State.spendOnce (s : State) (a : Nat) : State :=
  { s with boot := { s.boot with onceUsed := a :: s.boot.onceUsed } }

@[simp] theorem State.reg_spendOnce (s : State) (a b : Nat) : (s.spendOnce a).reg b = s.reg b := rfl

@[simp] theorem State.rd_spendOnce (s : State) (a b : Nat) : (s.spendOnce a).rd b = s.rd b := rfl

@[simp] theorem State.onceUsed_spendOnce (s : State) (a : Nat) :
    (s.spendOnce a).boot.onceUsed = a :: s.boot.onceUsed := rfl

@[simp] theorem State.boot_wrN (s : State) (a v : Nat) : (s.wrN a v).boot = s.boot := rfl

@[simp] theorem State.boot_msgDramStart (s : State) (v : Word) : (s.msgDramStart v).boot = s.boot := rfl

theorem State.rd_msgDramStart (s : State) (v : Word) : (s.msgDramStart v).rd R.ALARM_MSG_DRAM = v.toNat % 2 ^ 22 := by
  have stored : (s.msgDramStart v).rd R.ALARM_MSG_DRAM = v.toNat % 2 ^ 22 % 2 ^ 32 := s.rd_wrN_self R.ALARM_MSG_DRAM _
  omega

/-- The start of the copies writes no register but ALARM_MSG_DRAM. -/
theorem State.regsBut_msgDramStart (s : State) (v : Word) : RegsBut [R.ALARM_MSG_DRAM] s (s.msgDramStart v) :=
  fun _ hb => s.reg_wrN_ne _ (List.ne_of_not_mem_cons hb)

theorem State.regsBut_wrN (s : State) (a v : Nat) : RegsBut [a] s (s.wrN a v) :=
  fun _ hb => s.reg_wrN_ne v (List.ne_of_not_mem_cons hb)

section

variable {s : State} {a : Nat} {r : RegSpec} {v msk : Nat} {m : Master} {addr hw : Nat}
  (hr : regSpec? a = some r) (honce : r.acc = .once)

include hr honce

theorem State.writeReg_once_spent (hused : s.boot.onceUsed.contains a = true) :
    s.writeReg a v msk m addr hw = s.violate addr m 1 := by
  simp only [State.writeReg, hr, honce, hused, if_true]

theorem State.writeReg_once_fresh (hfree : s.boot.onceUsed.contains a = false) :
    s.writeReg a v msk m addr hw =
      if a = R.ALARM_MSG_DRAM then (s.spendOnce a).msgDramStart (BitVec.ofNat 32 (mergeBits (s.rd a) v (msk &&& r.wmask)))
      else (s.spendOnce a).wrN a (mergeBits (s.rd a) v (msk &&& r.wmask)) := by
  simp only [State.writeReg, hr, honce, hfree, Bool.false_eq_true, if_false]
  rfl

/-- What the first write leaves: the merged bits in the register, every other register, and the record of the write. -/
theorem State.writeReg_once_takes (hfree : s.boot.onceUsed.contains a = false) :
    (s.writeReg a v msk m addr hw).rd a &&& r.wmask = mergeBits (s.rd a) v (msk &&& r.wmask) &&& r.wmask ∧
      RegsBut [a] s (s.writeReg a v msk m addr hw) ∧
      (s.writeReg a v msk m addr hw).boot.onceUsed = a :: s.boot.onceUsed := by
  have hlt := s.mergeBits_rd_lt v msk hr
  rw [State.writeReg_once_fresh hr honce hfree]
  by_cases hdram : a = R.ALARM_MSG_DRAM
  · subst hdram
    rw [if_pos rfl]
    refine ⟨?_, (s.spendOnce _).regsBut_msgDramStart _, rfl⟩
    generalize mergeBits (s.rd R.ALARM_MSG_DRAM) v (msk &&& r.wmask) = new at hlt ⊢
    rw [State.rd_msgDramStart, BitVec.toNat_ofNat, Nat.mod_eq_of_lt hlt, wmask_of_regSpec?_msgDram hr]
    simp only [Nat.and_two_pow_sub_one_eq_mod, Nat.mod_mod]
  · rw [if_neg hdram]
    refine ⟨?_, (s.spendOnce a).regsBut_wrN a _, rfl⟩
    rw [State.rd_wrN_self, Nat.mod_eq_of_lt hlt]

end

theorem State.onceUsed_chipReset (s : State) (cause src : Nat) : (s.chipReset cause src).boot.onceUsed = [] := rfl

/-- Settles O12: the first write is taken whether or not it starts the message copies, and a chip reset forgets it. -/
theorem onceRegisters : Obligations.OnceRegisters := by
  unfold Obligations.OnceRegisters
  refine ⟨fun s a r v msk m addr hw hr honce => ⟨fun hfree => ?takes, fun hused => ?refuses⟩, State.onceUsed_chipReset⟩
  case takes => exact ⟨_, rfl, State.writeReg_once_takes hr honce hfree⟩
  case refuses => exact State.writeReg_once_spent hr honce hused

/-! ### Concrete writes on which the statement speaks -/

/-- The rows of the two ONCE registers. -/
def engineIdRow : RegSpec := ⟨R.SYS_ENGINE_ID, 4, 1, 4, 1, .once, 0xFFF, 0, 0, false, false⟩

def msgDramRow : RegSpec := ⟨R.ALARM_MSG_DRAM, 4, 1, 4, 1, .once, 0x3FFFFF, 0, 0, true, false⟩

theorem regSpec?_engineId : regSpec? R.SYS_ENGINE_ID = some engineIdRow := by decide

theorem regSpec?_msgDram : regSpec? R.ALARM_MSG_DRAM = some msgDramRow := by decide

/-- A write of SYS_ENGINE_ID with every byte enabled. -/
def State.writeEngineId (s : State) (v : Nat) : State :=
  s.writeReg R.SYS_ENGINE_ID v 0xFFFFFFFF .jtag R.SYS_ENGINE_ID 0

/-- Of the word written the register takes its 12 bits, and the next write is a violation. -/
theorem onceRegisters_engineId_witness (v : Nat) :
    (State.reset.writeEngineId 0xFABC).rd R.SYS_ENGINE_ID &&& 0xFFF = 0xABC ∧
      (State.reset.writeEngineId 0xFABC).writeEngineId v =
        (State.reset.writeEngineId 0xFABC).violate R.SYS_ENGINE_ID .jtag 1 := by
  obtain ⟨hwrite, -⟩ := onceRegisters
  obtain ⟨hfirst, -⟩ := hwrite State.reset R.SYS_ENGINE_ID engineIdRow 0xFABC 0xFFFFFFFF .jtag R.SYS_ENGINE_ID 0
    regSpec?_engineId rfl
  obtain ⟨t, rfl, hvalue, -, hspent⟩ := hfirst rfl
  obtain ⟨-, hlater⟩ := hwrite (State.reset.writeEngineId 0xFABC) R.SYS_ENGINE_ID engineIdRow v 0xFFFFFFFF .jtag
    R.SYS_ENGINE_ID 0 regSpec?_engineId rfl
  exact ⟨hvalue.trans (by decide), hlater (by rw [State.writeEngineId, hspent]; rfl)⟩

/-- The base of the message copies takes one enabled byte; the write uses the register up, and a chip reset frees it. -/
theorem onceRegisters_msgDram_witness :
    ∃ t, State.reset.writeReg R.ALARM_MSG_DRAM 0x12345678 0xFF .shepherd R.ALARM_MSG_DRAM 0 = t ∧
      t.rd R.ALARM_MSG_DRAM &&& 0x3FFFFF = 0x78 ∧ t.boot.onceUsed = [R.ALARM_MSG_DRAM] ∧
      (t.chipReset 1 0).boot.onceUsed = [] := by
  obtain ⟨hwrite, hreset⟩ := onceRegisters
  obtain ⟨hfirst, -⟩ := hwrite State.reset R.ALARM_MSG_DRAM msgDramRow 0x12345678 0xFF .shepherd R.ALARM_MSG_DRAM 0
    regSpec?_msgDram rfl
  obtain ⟨t, ht, hvalue, -, hspent⟩ := hfirst rfl
  exact ⟨t, ht, hvalue.trans (by decide), hspent, hreset t 1 0⟩

end Sys2Proof.Machine
end

section
/-!
PROOF. What every command but LIFECYCLE keeps, gathered from the law of each command: the queue, the life-cycle state with the
other fuses as `Otp.Same` has them, and the canonical memory.
-/

namespace Sys2Proof.Machine

theorem exec_kept {q : List Sys2Proof.Instr} {o : Otp} {w : Bool} (c : Sys2Proof.Instr) (s : State)
    (hne : ∀ f hd params, c ≠ .dwLifecycle f hd params) (h : Kept q o w s) : KeptRes q o w (exec c s) := by
  cases c with
  | mediaClockEdge _ _ _ => exact execMediaClockEdge_kept _ _ _ s h
  | mscStart => exact execMscStart_kept s h
  | blockStart _ _ _ => exact execBlockStart_kept _ _ _ s h
  | eventFire => exact execEventFire_kept s h
  | anchorGo _ _ => exact execAnchorGo_kept _ _ s h
  | anchorTake => exact execAnchorTake_kept s h
  | latchedPairRead _ _ => exact execLatchedPairRead_kept _ _ s h
  | bgcfgTakeEffect => exact execBgcfgTakeEffect_kept s h
  | registerWrite _ _ _ _ _ => exact execRegisterWrite_kept _ _ _ _ _ s h
  | aliasAccess _ _ _ => exact execAliasAccess_kept _ _ _ s h
  | remapWrite _ _ => exact execRemapWrite_kept _ _ s h
  | directStitchWrite _ _ _ _ => exact execDirectStitchWrite_kept _ _ _ _ s h
  | directWritePairedApply => exact execDirectWritePairedApply_kept s h
  | basteWrite _ _ _ => exact execBasteWrite_kept _ _ _ s h
  | meterPeakRead _ => exact execMeterPeakRead_kept _ s h
  | dlyApply _ => exact execDlyApply_kept _ s h
  | dlyDelayWrite _ _ => exact execDlyDelayWrite_kept _ _ s h
  | dlyXfEnd _ => exact execDlyXfEnd_kept _ s h
  | seamCmdCheck _ => exact execSeamCmdCheck_kept _ s h
  | seamCmdDiscard cls => exact execSeamCmdDiscard_kept cls s h
  | seamCmdForce _ => exact execSeamCmdForce_kept _ s h
  | checkDone _ => exact execCheckDone_kept _ s h
  | sewArmCheckDone => exact execSewArmCheckDone_kept s h
  | unravelEnd => exact execUnravelEnd_kept s h
  | rebasteDone _ => exact execRebasteDone_kept _ s h
  | liveCrcDone => exact execLiveCrcDone_kept s h
  | needleWindowOpen => exact execNeedleWindowOpen_kept s h
  | needleWindowClose _ => exact execNeedleWindowClose_kept _ s h
  | interruptEntry _ _ => exact execInterruptEntry_kept _ _ s h
  | nxDoneStore _ _ => exact execNxDoneStore_kept _ _ s h
  | nxTohostStore _ _ => exact execNxTohostStore_kept _ _ s h
  | nxDbellRead _ => exact execNxDbellRead_kept _ s h
  | spGo _ _ => exact execSpGo_kept _ _ s h
  | spSwap _ _ => exact execSpSwap_kept _ _ s h
  | spTransferDone _ _ _ => exact execSpTransferDone_kept _ _ _ s h
  | waitEnd _ _ => exact execWaitEnd_kept _ _ s h
  | waitsEnd _ _ => exact execWaitsEnd_kept _ _ s h
  | needleCtrlRun _ => exact execNeedleCtrlRun_kept _ s h
  | needleCtrlHalt _ => exact execNeedleCtrlHalt_kept _ s h
  | needleMemWrite _ _ => exact execNeedleMemWrite_kept _ _ s h
  | needleMemRead _ _ _ => exact execNeedleMemRead_kept _ _ _ s h
  | needleDoorbellWrite _ _ => exact execNeedleDoorbellWrite_kept _ _ s h
  | needleTohostRead _ => exact execNeedleTohostRead_kept _ s h
  | alNeedleNop _ _ => exact execAlNeedleNop_kept _ _ s h
  | alWait _ _ => exact execAlWait_kept _ _ s h
  | alWaits _ _ => exact execAlWaits_kept _ _ s h
  | alHalt _ _ => exact execAlHalt_kept _ _ s h
  | alAdd _ _ => exact execAlAdd_kept _ _ s h
  | alSub _ _ => exact execAlSub_kept _ _ s h
  | alNeg _ _ => exact execAlNeg_kept _ _ s h
  | alAbs _ _ => exact execAlAbs_kept _ _ s h
  | alMin _ _ => exact execAlMin_kept _ _ s h
  | alMax _ _ => exact execAlMax_kept _ _ s h
  | alCmp _ _ => exact execAlCmp_kept _ _ s h
  | alAnd _ _ => exact execAlAnd_kept _ _ s h
  | alOr _ _ => exact execAlOr_kept _ _ s h
  | alXor _ _ => exact execAlXor_kept _ _ s h
  | alNot _ _ => exact execAlNot_kept _ _ s h
  | alShl _ _ => exact execAlShl_kept _ _ s h
  | alShr _ _ => exact execAlShr_kept _ _ s h
  | alLsr _ _ => exact execAlLsr_kept _ _ s h
  | alRshr _ _ => exact execAlRshr_kept _ _ s h
  | alShlv _ _ => exact execAlShlv_kept _ _ s h
  | alShrv _ _ => exact execAlShrv_kept _ _ s h
  | alMov _ _ => exact execAlMov_kept _ _ s h
  | alNorm _ _ => exact execAlNorm_kept _ _ s h
  | alAddi _ _ => exact execAlAddi_kept _ _ s h
  | alCmpi _ _ => exact execAlCmpi_kept _ _ s h
  | alLdi _ _ => exact execAlLdi_kept _ _ s h
  | alLdi32 _ _ => exact execAlLdi32_kept _ _ s h
  | alLds _ _ => exact execAlLds_kept _ _ s h
  | alSts _ _ => exact execAlSts_kept _ _ s h
  | alLd _ _ => exact execAlLd_kept _ _ s h
  | alSt _ _ => exact execAlSt_kept _ _ s h
  | alLdq _ _ => exact execAlLdq_kept _ _ s h
  | alStq _ _ => exact execAlStq_kept _ _ s h
  | alDls _ _ => exact execAlDls_kept _ _ s h
  | alMovs _ _ => exact execAlMovs_kept _ _ s h
  | alSeta _ _ => exact execAlSeta_kept _ _ s h
  | alAddp _ _ => exact execAlAddp_kept _ _ s h
  | alMac _ _ => exact execAlMac_kept _ _ s h
  | alMsu _ _ => exact execAlMsu_kept _ _ s h
  | alMpy _ _ => exact execAlMpy_kept _ _ s h
  | alMpyn _ _ => exact execAlMpyn_kept _ _ s h
  | alQmac _ _ => exact execAlQmac_kept _ _ s h
  | alQmsu _ _ => exact execAlQmsu_kept _ _ s h
  | alQmpy _ _ => exact execAlQmpy_kept _ _ s h
  | alQmpyn _ _ => exact execAlQmpyn_kept _ _ s h
  | alQmacm _ _ => exact execAlQmacm_kept _ _ s h
  | alQmsum _ _ => exact execAlQmsum_kept _ _ s h
  | alQmpym _ _ => exact execAlQmpym_kept _ _ s h
  | alQmpynm _ _ => exact execAlQmpynm_kept _ _ s h
  | alMacdl _ _ => exact execAlMacdl_kept _ _ s h
  | alExt _ _ => exact execAlExt_kept _ _ s h
  | alQext _ _ => exact execAlQext_kept _ _ s h
  | alQexts _ _ => exact execAlQexts_kept _ _ s h
  | alAclr _ _ => exact execAlAclr_kept _ _ s h
  | alAadd _ _ => exact execAlAadd_kept _ _ s h
  | alAsub _ _ => exact execAlAsub_kept _ _ s h
  | alAmov _ _ => exact execAlAmov_kept _ _ s h
  | alAneg _ _ => exact execAlAneg_kept _ _ s h
  | alAshl _ _ => exact execAlAshl_kept _ _ s h
  | alAshr _ _ => exact execAlAshr_kept _ _ s h
  | alBr _ _ => exact execAlBr_kept _ _ s h
  | alCall _ _ => exact execAlCall_kept _ _ s h
  | alJr _ _ => exact execAlJr_kept _ _ s h
  | alRet _ _ => exact execAlRet_kept _ _ s h
  | alRti _ _ => exact execAlRti_kept _ _ s h
  | alCallr _ _ => exact execAlCallr_kept _ _ s h
  | alRepImm _ _ => exact execAlRepImm_kept _ _ s h
  | alRepReg _ _ => exact execAlRepReg_kept _ _ s h
  | apllLock _ => exact execApllLock_kept _ s h
  | coreApllUnlock _ => exact execCoreApllUnlock_kept _ s h
  | audioApllUnlock => exact execAudioApllUnlock_kept s h
  | audioApllRelock _ _ => exact execAudioApllRelock_kept _ _ s h
  | netApllUnlock _ _ => exact execNetApllUnlock_kept _ _ s h
  | netApllRelock => exact execNetApllRelock_kept s h
  | tcxoLoss => exact execTcxoLoss_kept s h
  | tcxoReturn _ => exact execTcxoReturn_kept _ s h
  | xinLoss => exact execXinLoss_kept s h
  | xinReturn => exact execXinReturn_kept s h
  | refActivityLoss _ => exact execRefActivityLoss_kept _ s h
  | freqGateEnd _ _ => exact execFreqGateEnd_kept _ _ s h
  | selectionEval _ => exact execSelectionEval_kept _ s h
  | pdUpdate _ _ _ => exact execPdUpdate_kept _ _ _ s h
  | holdoverLimit _ => exact execHoldoverLimit_kept _ s h
  | historyRecord => exact execHistoryRecord_kept s h
  | swValidExpiry _ _ => exact execSwValidExpiry_kept _ _ s h
  | refLimitApply _ => exact execRefLimitApply_kept _ s h
  | refSelWrite _ => exact execRefSelWrite_kept _ s h
  | loopOpenWrite _ _ => exact execLoopOpenWrite_kept _ _ s h
  | bellFreqWrite _ => exact execBellFreqWrite_kept _ s h
  | openWdExpiry _ _ => exact execOpenWdExpiry_kept _ _ s h
  | coreSpreadTakeEffect => exact execCoreSpreadTakeEffect_kept s h
  | divUpdate => exact execDivUpdate_kept s h
  | divTakeEffect => exact execDivTakeEffect_kept s h
  | syncInEdge _ _ => exact execSyncInEdge_kept _ _ s h
  | tbIncApply _ => exact execTbIncApply_kept _ s h
  | tbStep _ => exact execTbStep_kept _ s h
  | stepApply _ => exact execStepApply_kept _ s h
  | mapCapture => exact execMapCapture_kept s h
  | tbTimeRead _ => exact execTbTimeRead_kept _ s h
  | tbMapRead _ => exact execTbMapRead_kept _ s h
  | txtsHeadRead _ => exact execTxtsHeadRead_kept _ s h
  | linkUp _ _ => exact execLinkUp_kept _ _ s h
  | linkDown _ _ => exact execLinkDown_kept _ _ s h
  | frameReceive _ _ _ _ => exact execFrameReceive_kept _ _ _ _ s h
  | frameTransmit _ _ _ => exact execFrameTransmit_kept _ _ _ s h
  | netApply _ _ => exact execNetApply_kept _ _ s h
  | txPacketReady _ => exact execTxPacketReady_kept _ s h
  | txPacketDiscard _ => exact execTxPacketDiscard_kept _ s h
  | legDown _ _ => exact execLegDown_kept _ _ s h
  | portApply _ => exact execPortApply_kept _ s h
  | portGroupTakeEffect _ _ => exact execPortGroupTakeEffect_kept _ _ s h
  | localFrameReceive _ _ _ => exact execLocalFrameReceive_kept _ _ _ s h
  | rateMeasure _ _ => exact execRateMeasure_kept _ _ s h
  | aesLock _ => exact execAesLock_kept _ s h
  | aesUnlock _ => exact execAesUnlock_kept _ s h
  | csBlockEnd _ _ _ _ _ _ => exact execCsBlockEnd_kept _ _ _ _ _ _ s h
  | arxCsRead _ _ => exact execArxCsRead_kept _ _ s h
  | asrcLock _ => exact execAsrcLock_kept _ s h
  | asrcUnlock _ => exact execAsrcUnlock_kept _ s h
  | atxClkLoss _ => exact execAtxClkLoss_kept _ s h
  | tdmClkLoss _ => exact execTdmClkLoss_kept _ s h
  | tdmClkReturn _ => exact execTdmClkReturn_kept _ s h
  | ocpLimitedPeriod _ => exact execOcpLimitedPeriod_kept _ s h
  | ocpRetry _ => exact execOcpRetry_kept _ s h
  | senseLoss _ _ => exact execSenseLoss_kept _ _ s h
  | calibrationPass _ _ _ => exact execCalibrationPass_kept _ _ _ s h
  | supervisionResult _ _ => exact execSupervisionResult_kept _ _ s h
  | lineApply _ => exact execLineApply_kept _ s h
  | lineChEnable _ => exact execLineChEnable_kept _ s h
  | lineChDisable _ => exact execLineChDisable_kept _ s h
  | lineChClear _ => exact execLineChClear_kept _ s h
  | lineCtrlWrite _ => exact execLineCtrlWrite_kept _ s h
  | alarmInputQualify _ _ => exact execAlarmInputQualify_kept _ _ s h
  | alarmInputRelease _ _ => exact execAlarmInputRelease_kept _ _ s h
  | partnerAlarmMessage _ _ _ => exact execPartnerAlarmMessage_kept _ _ _ s h
  | alarmAction => exact execAlarmAction_kept s h
  | changeoverReplace => exact execChangeoverReplace_kept s h
  | alarmInCfgWrite _ _ => exact execAlarmInCfgWrite_kept _ _ s h
  | playerMessageEnd _ => exact execPlayerMessageEnd_kept _ s h
  | playerGapEnd _ => exact execPlayerGapEnd_kept _ s h
  | msgDramWrite _ _ => exact execMsgDramWrite_kept _ _ s h
  | msgCopyDone _ => exact execMsgCopyDone_kept _ s h
  | fallbackApply => exact execFallbackApply_kept s h
  | dutyInDeassert => exact execDutyInDeassert_kept s h
  | dutyInAssert => exact execDutyInAssert_kept s h
  | takeover _ => exact execTakeover_kept _ s h
  | mediaWatchdog _ => exact execMediaWatchdog_kept _ s h
  | roleBWaitEnd _ => exact execRoleBWaitEnd_kept _ s h
  | lanesDetected => exact execLanesDetected_kept s h
  | linkTrained _ _ => exact execLinkTrained_kept _ _ s h
  | linkTrainTimeout _ => exact execLinkTrainTimeout_kept _ s h
  | linkRetry _ => exact execLinkRetry_kept _ s h
  | clockLock => exact execClockLock_kept s h
  | mscTransfer _ _ _ => exact execMscTransfer_kept _ _ _ s h
  | copyComplete => exact execCopyComplete_kept s h
  | settleEnd _ => exact execSettleEnd_kept _ s h
  | perBlockCopyApply _ _ => exact execPerBlockCopyApply_kept _ _ s h
  | healthReport _ _ _ _ => exact execHealthReport_kept _ _ _ _ s h
  | reportStale => exact execReportStale_kept s h
  | revertRequest _ => exact execRevertRequest_kept _ s h
  | laneLoss _ => exact execLaneLoss_kept _ s h
  | bothLanesLost _ => exact execBothLanesLost_kept _ s h
  | twinCmdResync => exact execTwinCmdResync_kept s h
  | twinCmdRelease => exact execTwinCmdRelease_kept s h
  | twinCmdSelftest => exact execTwinCmdSelftest_kept s h
  | selftestEnd _ => exact execSelftestEnd_kept _ s h
  | faultWindowClose _ _ => exact execFaultWindowClose_kept _ _ s h
  | faultQuietExit _ _ => exact execFaultQuietExit_kept _ _ s h
  | faultRecAck => exact execFaultRecAck_kept s h
  | faultSwRaise _ _ => exact execFaultSwRaise_kept _ _ s h
  | faultnReadback _ _ => exact execFaultnReadback_kept _ _ s h
  | faultnMinLowEnd _ => exact execFaultnMinLowEnd_kept _ s h
  | foldDoorbell _ _ _ => exact execFoldDoorbell_kept _ _ _ s h
  | foldRheadWrite _ _ _ => exact execFoldRheadWrite_kept _ _ _ s h
  | foldCfgWrite _ _ _ _ _ => exact execFoldCfgWrite_kept _ _ _ _ _ s h
  | dweulDatagram _ _ _ _ => exact execDweulDatagram_kept _ _ _ _ s h
  | bulkFetchDone _ _ _ => exact execBulkFetchDone_kept _ _ _ s h
  | shepherdFrame _ => exact execShepherdFrame_kept _ s h
  | telemetryRefresh _ => exact execTelemetryRefresh_kept _ s h
  | shepWdogExpiry _ => exact execShepWdogExpiry_kept _ s h
  | shepTrap => exact execShepTrap_kept s h
  | shepRestart _ => exact execShepRestart_kept _ s h
  | dwNop _ _ _ => exact execDwNop_kept _ _ _ s h
  | dwGetInfo _ _ _ => exact execDwGetInfo_kept _ _ _ s h
  | dwSetMode _ _ _ => exact execDwSetMode_kept _ _ _ s h
  | dwEventCancel _ _ _ => exact execDwEventCancel_kept _ _ _ s h
  | dwRegRead _ _ _ => exact execDwRegRead_kept _ _ _ s h
  | dwRegWrite _ _ _ => exact execDwRegWrite_kept _ _ _ s h
  | dwFoldInfo _ _ _ => exact execDwFoldInfo_kept _ _ _ s h
  | dwGroupCancel _ _ _ => exact execDwGroupCancel_kept _ _ _ s h
  | dwStitchRead _ _ _ => exact execDwStitchRead_kept _ _ _ s h
  | dwStitchBaste _ _ _ => exact execDwStitchBaste_kept _ _ _ s h
  | dwStitchDirect _ _ _ => exact execDwStitchDirect_kept _ _ _ s h
  | dwDescRead _ _ _ => exact execDwDescRead_kept _ _ _ s h
  | dwDescBaste _ _ _ => exact execDwDescBaste_kept _ _ _ s h
  | dwDmapBaste _ _ _ => exact execDwDmapBaste_kept _ _ _ s h
  | dwSrcAttrSet _ _ _ => exact execDwSrcAttrSet_kept _ _ _ s h
  | dwMeterRead _ _ _ => exact execDwMeterRead_kept _ _ _ s h
  | dwBasteImage _ _ _ _ => exact execDwBasteImage_kept _ _ _ _ s h
  | dwCheck _ _ _ => exact execDwCheck_kept _ _ _ s h
  | dwSew _ _ _ => exact execDwSew_kept _ _ _ s h
  | dwDiscard _ _ _ => exact execDwDiscard_kept _ _ _ s h
  | dwGroupSew _ _ _ => exact execDwGroupSew_kept _ _ _ s h
  | dwPatternState _ _ _ => exact execDwPatternState_kept _ _ _ s h
  | dwNeedleLoad _ _ _ _ => exact execDwNeedleLoad_kept _ _ _ _ s h
  | dwNeedleRead _ _ _ => exact execDwNeedleRead_kept _ _ _ s h
  | dwNeedleCtrl _ _ _ => exact execDwNeedleCtrl_kept _ _ _ s h
  | dwNeedleDoorbell _ _ _ => exact execDwNeedleDoorbell_kept _ _ _ s h
  | dwNeedleStatus _ _ _ => exact execDwNeedleStatus_kept _ _ _ s h
  | dwBellRead _ _ _ => exact execDwBellRead_kept _ _ _ s h
  | dwRefSet _ _ _ => exact execDwRefSet_kept _ _ _ s h
  | dwRefSelect _ _ _ => exact execDwRefSelect_kept _ _ _ s h
  | dwLoopSet _ _ _ => exact execDwLoopSet_kept _ _ _ s h
  | dwDivSet _ _ _ => exact execDwDivSet_kept _ _ _ s h
  | dwServoSet _ _ _ => exact execDwServoSet_kept _ _ _ s h
  | dwPtpRead _ _ _ => exact execDwPtpRead_kept _ _ _ s h
  | dwPtpSet _ _ _ => exact execDwPtpSet_kept _ _ _ s h
  | dwNetPortSet _ _ _ => exact execDwNetPortSet_kept _ _ _ s h
  | dwFlowSet _ _ _ => exact execDwFlowSet_kept _ _ _ s h
  | dwFlowStart _ _ _ => exact execDwFlowStart_kept _ _ _ s h
  | dwFlowStop _ _ _ => exact execDwFlowStop_kept _ _ _ s h
  | dwFlockStart _ _ _ => exact execDwFlockStart_kept _ _ _ s h
  | dwFlockStop _ _ _ => exact execDwFlockStop_kept _ _ _ s h
  | dwFlowRead _ _ _ => exact execDwFlowRead_kept _ _ _ s h
  | dwPortSet _ _ _ => exact execDwPortSet_kept _ _ _ s h
  | dwPortStart _ _ _ => exact execDwPortStart_kept _ _ _ s h
  | dwPortStop _ _ _ => exact execDwPortStop_kept _ _ _ s h
  | dwPortRead _ _ _ => exact execDwPortRead_kept _ _ _ s h
  | dwLineSet _ _ _ => exact execDwLineSet_kept _ _ _ s h
  | dwLineEnable _ _ _ => exact execDwLineEnable_kept _ _ _ s h
  | dwLineDisable _ _ _ => exact execDwLineDisable_kept _ _ _ s h
  | dwLineClear _ _ _ => exact execDwLineClear_kept _ _ _ s h
  | dwLineCtrlSet _ _ _ => exact execDwLineCtrlSet_kept _ _ _ s h
  | dwLineRead _ _ _ => exact execDwLineRead_kept _ _ _ s h
  | dwAlarmActivate _ _ _ => exact execDwAlarmActivate_kept _ _ _ s h
  | dwAlarmRelease _ _ _ => exact execDwAlarmRelease_kept _ _ _ s h
  | dwPatternLoad _ _ _ _ => exact execDwPatternLoad_kept _ _ _ _ s h
  | dwMessageWrite _ _ _ _ => exact execDwMessageWrite_kept _ _ _ _ s h
  | dwMessageStart _ _ _ => exact execDwMessageStart_kept _ _ _ s h
  | dwMessageStop _ _ _ => exact execDwMessageStop_kept _ _ _ s h
  | dwFallbackLoad _ _ _ _ => exact execDwFallbackLoad_kept _ _ _ _ s h
  | dwAlarmRead _ _ _ => exact execDwAlarmRead_kept _ _ _ s h
  | dwTwinRead _ _ _ => exact execDwTwinRead_kept _ _ _ s h
  | dwHandover _ _ _ => exact execDwHandover_kept _ _ _ s h
  | dwTwinCmd _ _ _ => exact execDwTwinCmd_kept _ _ _ s h
  | dwTwinCfgSet _ _ _ => exact execDwTwinCfgSet_kept _ _ _ s h
  | dwFaultRead _ _ _ => exact execDwFaultRead_kept _ _ _ s h
  | dwFaultAck _ _ _ => exact execDwFaultAck_kept _ _ _ s h
  | dwFaultSrcSet _ _ _ => exact execDwFaultSrcSet_kept _ _ _ s h
  | dwFaultSrcRead _ _ _ => exact execDwFaultSrcRead_kept _ _ _ s h
  | dwTelemSnapshot _ _ _ => exact execDwTelemSnapshot_kept _ _ _ s h
  | dwTelemSubscribe _ _ _ => exact execDwTelemSubscribe_kept _ _ _ s h
  | dwTelemUnsubscribe _ _ _ => exact execDwTelemUnsubscribe_kept _ _ _ s h
  | dwNvsRead _ _ _ => exact execDwNvsRead_kept _ _ _ s h
  | dwNvsWrite _ _ _ _ => exact execDwNvsWrite_kept _ _ _ _ s h
  | dwFwUpdate _ _ _ _ => exact execDwFwUpdate_kept _ _ _ _ s h
  | dwFwActivate _ _ _ => exact execDwFwActivate_kept _ _ _ s h
  | dwConfigCommit _ _ _ _ => exact execDwConfigCommit_kept _ _ _ _ s h
  | dwLifecycle f hd params => exact absurd rfl (hne f hd params)
  | dwChipReset _ _ _ => exact execDwChipReset_kept _ _ _ s h
  | sysFreshReq => exact execSysFreshReq_kept s h
  | freshDone _ => exact execFreshDone_kept _ s h
  | ccuCommitExplicit _ => exact execCcuCommitExplicit_kept _ s h
  | ccuCommitMeasured _ => exact execCcuCommitMeasured_kept _ s h
  | ccuPassEnd _ _ _ => exact execCcuPassEnd_kept _ _ _ s h
  | ccuDeadline _ => exact execCcuDeadline_kept _ s h
  | scrubLine _ _ => exact execScrubLine_kept _ _ s h
  | busTimeout _ _ _ _ => exact execBusTimeout_kept _ _ _ _ s h
  | dramRetrain _ => exact execDramRetrain_kept _ s h
  | droverStart _ _ => exact execDroverStart_kept _ _ s h
  | droverAbort _ _ _ _ => exact execDroverAbort_kept _ _ _ _ s h
  | descriptorFetch _ _ => exact execDescriptorFetch_kept _ _ s h
  | descriptorComplete _ _ _ => exact execDescriptorComplete_kept _ _ _ s h
  | droverBusError _ _ _ _ => exact execDroverBusError_kept _ _ _ _ s h
  | perst => exact execPerst_kept s h
  | powerOnReset _ _ _ => exact execPowerOnReset_kept _ _ _ s h
  | brownOut => exact execBrownOut_kept s h
  | resetNPin _ => exact execResetNPin_kept _ s h
  | resetEnd _ _ _ => exact execResetEnd_kept _ _ _ s h
  | bootGo _ _ _ => exact execBootGo_kept _ _ _ s h
  | bootConfirm => exact execBootConfirm_kept s h
  | jtagExtest => exact execJtagExtest_kept s h
  | jtagSamplePreload => exact execJtagSamplePreload_kept s h
  | jtagIdcode => exact execJtagIdcode_kept s h
  | jtagHighz => exact execJtagHighz_kept s h
  | jtagClamp => exact execJtagClamp_kept s h
  | jtagChipRst => exact execJtagChipRst_kept s h
  | jtagBypass => exact execJtagBypass_kept s h
  | jtagTapReset => exact execJtagTapReset_kept s h
  | dieTempReading _ => exact execDieTempReading_kept _ s h
  | timeBaseTick => exact execTimeBaseTick_kept s h
  | referenceActive _ => exact execReferenceActive_kept _ s h
  | coreApllRelock _ => exact execCoreApllRelock_kept _ s h
  | atxClockReturn _ => exact execAtxClockReturn_kept _ s h
  | pcieLinkUp => exact execPcieLinkUp_kept s h
  | handoverRequest => exact execHandoverRequest_kept s h
  | ocpNAssert _ => exact execOcpNAssert_kept _ s h

end Sys2Proof.Machine
end

section
/-!
PROOF. LIFECYCLE (R592, R593): the command at the head of its fold, its refusals in their order, the change, and where the
life-cycle state goes under any command.
-/

namespace Sys2Proof.Machine

/-! ### A Dweul command at the head of its fold -/

/-- The command that stands at the head of its fold, with the length that its parameters define and the permission of its
class and mode, ends with the answer of its body. -/
theorem State.dweul_of_atHead {s u : State} {op : Op} {f : Nat} {h : Hdr} {ps : List Byte} {len cls : Nat}
    {body : State → Cmd → State × Option Ans} {a : Ans} (hat : AtHead s f h cls) (hop : h.opcode = op.code)
    (hlen : h.length = ps.length) (hps : ps.length = len) (hperm : s.notPermitted op cls = 0)
    (hbody : body s ⟨f, cls, h, ps⟩ = (u, some a)) (hstays : Stays s u f) :
    s.dweul op f h ps len body = (u.answer f h a, some a.status) := by
  obtain ⟨hserved, rfl, hcheck, hheld, hseg, e, rest, htaken, rfl⟩ := hat
  obtain ⟨huheld, hutaken⟩ := hstays
  have htake : s.takeIn f { e.hdr with opcode := op.code } = s := by simp [State.takeIn, htaken, hop]
  have hhead : s.atHead op.code f e.hdr.seq = some e := by simp [State.atHead, htaken, hop, hcheck, hheld]
  have hdrop : s.dropStream f = s := by simp [State.dropStream, hseg]
  have hrefusal : s.refusal op ⟨f, s.foldClass f, e.hdr, ps⟩ len = none := by simp [State.refusal, hlen, hps, hperm]
  simp [State.dweul, hserved, htake, hhead, hdrop, hrefusal, hbody, State.finish, huheld, hutaken, htaken]

theorem AtHead.stays {s : State} {f cls : Nat} {h : Hdr} (hat : AtHead s f h cls) : Stays s s f := by
  obtain ⟨-, -, -, hheld, -⟩ := hat
  exact ⟨hheld, rfl⟩

/-! ### LIFECYCLE (R592) -/

/-- The row of LIFECYCLE in the table of R500. -/
def lifecycleOp : Op := ⟨0x0D06, false, 3, .engineerInCommission⟩

theorem exec_dwLifecycle_eq (f : Fin 128) (h : Hdr) (ps : List Byte) (s : State) :
    exec (.dwLifecycle f h ps) s =
      let r := s.dweul lifecycleOp f h ps 8 State.dwLifecycle
      if r.2 = some 0 then
        .next (State.chipReset { r.1 with mem := { r.1.mem with otp := { r.1.mem.otp with lc := byteAt ps 0 } } } 5 0)
      else .next r.1 := rfl

/-- The permission of its row: LIFE-SAFETY outside STANDBY, ENGINEER in COMMISSION (R476). -/
theorem State.notPermitted_lifecycle {s : State} {cls : Nat}
    (h : (cls = 3 ∧ s.mode ≠ .standby) ∨ (cls = 2 ∧ s.mode = .commission)) : s.notPermitted lifecycleOp cls = 0 := by
  rcases h with ⟨rfl, hmode⟩ | ⟨rfl, hmode⟩
  · cases hm : s.mode <;> simp_all [State.notPermitted, lifecycleOp]
  · simp [State.notPermitted, lifecycleOp, hmode]

theorem Otp.succeeds_iff (o : Otp) (st : Nat) : o.succeeds st = true ↔
    (o.lc = 0 ∧ st = 1 ∧ o.keys % 2 = 1) ∨ (o.lc = 1 ∧ (st = 2 ∨ st = 3)) ∨ (o.lc = 2 ∧ st = 3) := by
  simp [Otp.succeeds, and_assoc, or_assoc]

/-- What LIFECYCLE answers when its parameters are sound: the successor is judged first, then AUTH_CODE, then the mode. -/
theorem State.dwLifecycle_eq {s : State} {c : Cmd} (hst : c.u8 0 ≤ 3) (hzero : c.zero 3 1 = true) :
    s.dwLifecycle c = (s, some (
      if s.mem.otp.succeeds (c.u8 0) = false then rejected 1
      else if c.u32 4 ≠ s.authCode (c.u8 0) then rejected 2
      else if s.mode = .alarm then rejected 3
      else {})) := by
  have hbad : ¬ 3 < c.u8 0 := by omega
  simp only [State.dwLifecycle, hbad, hzero, decide_false, Bool.not_true, Bool.or_self, Bool.false_eq_true, if_false,
    Bool.not_eq_eq_eq_not]
  split
  · rfl
  · split
    · rfl
    · split <;> rfl

/-- The command executes: it stands at the head of its fold, and length and permission are in order. -/
def LifecycleRuns (s : State) (f : Fin 128) (h : Hdr) (ps : List Byte) (cls : Nat) : Prop :=
  AtHead s f h cls ∧ h.length = ps.length ∧ h.opcode = 0x0D06 ∧ ps.length = 8 ∧
    ((cls = 3 ∧ s.mode ≠ .standby) ∨ (cls = 2 ∧ s.mode = .commission))

section
variable {s : State} {f : Fin 128} {h : Hdr} {ps : List Byte} {cls : Nat}

theorem LifecycleRuns.dweul_eq {a : Ans} (hrun : LifecycleRuns s f h ps cls)
    (hbody : s.dwLifecycle ⟨f, cls, h, ps⟩ = (s, some a)) :
    s.dweul lifecycleOp f h ps 8 State.dwLifecycle = (s.answer f h a, some a.status) := by
  obtain ⟨hat, hlen, hop, hps, hperm⟩ := hrun
  exact State.dweul_of_atHead hat hop hlen hps (State.notPermitted_lifecycle hperm) hbody hat.stays

/-- A refusal is answered and changes nothing. -/
theorem LifecycleRuns.exec_refused {detail : Nat} (hrun : LifecycleRuns s f h ps cls)
    (hbody : s.dwLifecycle ⟨f, cls, h, ps⟩ = (s, some (rejected detail))) :
    Answered (.dwLifecycle f h ps) s f h (rejected detail) s := by
  simp [Answered, exec_dwLifecycle_eq, hrun.dweul_eq hbody, rejected]

/-- A change is answered, burnt and followed by a chip reset (R593). -/
theorem LifecycleRuns.exec_changed (hrun : LifecycleRuns s f h ps cls)
    (hbody : s.dwLifecycle ⟨f, cls, h, ps⟩ = (s, some {})) :
    ∃ t u : State, t = s.answer f h {} ∧ u = { t with mem := { t.mem with otp := { t.mem.otp with lc := byteAt ps 0 } } } ∧
      exec (.dwLifecycle f h ps) s = .next (u.chipReset 5 0) := by
  refine ⟨_, _, rfl, rfl, ?_⟩
  simp [exec_dwLifecycle_eq, hrun.dweul_eq hbody]

end

/-! ### Where the life-cycle state goes -/

theorem Otp.Same.succeeds_eq {a b : Otp} (h : Otp.Same a b) (st : Nat) : b.succeeds st = a.succeeds st := by
  simp only [Otp.succeeds, h.lcSame, h.keys]

theorem Kept.lc_eq {q : List Instr} {o : Otp} {w : Bool} {s : State} (h : Kept q o w s) : s.mem.otp.lc = o.lc := by
  obtain ⟨-, hotp, -⟩ := h
  exact hotp.lcSame

/-- An answer of OK has found a successor. -/
theorem State.succeeds_of_dwLifecycle {s : State} {c : Cmd} {a : Ans} (h : (s.dwLifecycle c).2 = some a)
    (hok : a.status = 0) : s.mem.otp.succeeds (c.u8 0) = true := by
  refine Decidable.byContradiction fun hno => ?_
  have hrefused : (s.dwLifecycle c).2 = some badParam ∨ (s.dwLifecycle c).2 = some (rejected 1) := by
    by_cases hbad : (decide (3 < c.u8 0) || !c.zero 3 1) = true
    · exact .inl (by simp [State.dwLifecycle, hbad])
    · exact .inr (by simp [State.dwLifecycle, hbad, hno])
  rcases hrefused with hr | hr <;> rw [hr] at h <;> cases h <;> cases hok

/-- LIFECYCLE leaves the state or takes it to a successor, whatever stands in its fold. -/
theorem exec_dwLifecycle_lc {f : Fin 128} {h : Hdr} {ps : List Byte} {s t : State}
    (ht : exec (.dwLifecycle f h ps) s = .next t) :
    t.mem.otp.lc = s.mem.otp.lc ∨ s.mem.otp.succeeds t.mem.otp.lc = true := by
  rw [exec_dwLifecycle_eq] at ht
  by_cases hok : (s.dweul lifecycleOp f h ps 8 State.dwLifecycle).2 = some 0
  · right
    obtain ⟨u, c, a, ⟨-, hotp, -⟩, rfl, ha, hzero⟩ := State.dweul_zero (Kept.start s) hok
    have hsucceeds := State.succeeds_of_dwLifecycle ha hzero
    rw [hotp.succeeds_eq] at hsucceeds
    simp only [hok, if_true] at ht
    cases ht
    rwa [Kept.lc_eq (State.chipReset_kept _ 5 0 (Kept.start _))]
  · left
    simp only [hok, if_false] at ht
    cases ht
    exact (State.dweul_kept s lifecycleOp f h ps 8 State.dwLifecycle State.dwLifecycle_kept (Kept.start s)).lc_eq

/-- No other command changes the state. -/
theorem exec_lc_of_ne_dwLifecycle {c : Instr} {s t : State} (hne : ∀ f h ps, c ≠ .dwLifecycle f h ps)
    (ht : exec c s = .next t) : t.mem.otp.lc = s.mem.otp.lc := by
  obtain ⟨u, hu, hkept⟩ := exec_kept c s hne (Kept.start s)
  cases hu.symm.trans ht
  exact hkept.lc_eq

/-- Settles O53: the checks of the body in their order, and the invariants of all commands for the rest. -/
theorem lifeCycle : Obligations.LifeCycle := by
  unfold Obligations.LifeCycle
  refine ⟨?outcomes, ?successors, fun c s t hne ht => exec_lc_of_ne_dwLifecycle hne ht⟩
  case outcomes =>
    rintro f h ps s cls st lc ok hat hlen hop hps hzero rfl hst rfl hperm hok
    have hrun : LifecycleRuns s f h ps cls := ⟨hat, hlen, hop, hps, hperm⟩
    have hbody := State.dwLifecycle_eq (s := s) (c := ⟨f, cls, h, ps⟩) hst hzero
    simp only [Cmd.u8, Cmd.u32] at hbody
    rw [← Otp.succeeds_iff] at hok
    refine ⟨fun hno => ?_, ?_⟩
    · have hs : s.mem.otp.succeeds (byteAt ps 0) = false := by rwa [hok, Bool.not_eq_true] at hno
      exact hrun.exec_refused (hbody.trans (by simp [hs]))
    intro auth (hcode : auth = s.authCode (byteAt ps 0))
    rw [hok, hcode]
    refine ⟨fun hs hauth => ?_, fun hs hauth halarm => ?_, fun hs hauth halarm => ?_⟩
    · exact hrun.exec_refused (hbody.trans (by simp [hs, hauth]))
    · exact hrun.exec_refused (hbody.trans (by simp [hs, hauth, halarm]))
    · exact hrun.exec_changed (hbody.trans (by simp [hs, hauth, halarm]))
  case successors =>
    intro f h ps s t ht
    have hlc := exec_dwLifecycle_lc ht
    rw [Otp.succeeds_iff] at hlc
    omega

/-! ### Concrete engines on which the statement speaks -/

/-- The parameters of LIFECYCLE (R500). -/
def lifecycleParams (st auth : Nat) : List Byte := le 1 st ++ [0#8, 0#8, 0#8] ++ le 4 auth

/-- The header of a LIFECYCLE for fold 0. -/
def lifecycleHdr : Hdr := ⟨1, 0, 0x0D06, 5, 8, 0, 0, 0⟩

/-- An engine of a mode and a life-cycle state, with a LIFECYCLE at the head of fold 0, which has the class LIFE-SAFETY. -/
def lifecycleEngine (mode lc : Nat) : State :=
  State.setFld (State.setFld { State.reset with
    mem := { State.reset.mem with otp := { lc := lc, keys := 1, serial := 7#64 } }
    boot := { State.reset.boot with fwRuns := true }
    shep := { State.reset.shep with folds := [(0, { taken := [⟨lifecycleHdr, 0, false, false⟩] })] } }
    R.SYS_MODE F.SYS_MODE_MODE mode) (R.FOLD_CFG 0) F.FOLD_CFG_CLASS 3

/-- The AUTH_CODE of engine ID 0, the state PROVISIONED and serial number 7. -/
theorem crcOf_provisioned : crcOf (le 4 0 ++ le 1 1 ++ le 8 7) = 2990306984 := by
  have hengine : le 4 0 = [0#8, 0#8, 0#8, 0#8] := by decide
  have hstate : le 1 1 = [1#8] := by decide
  have hserial : le 8 7 = [7#8, 0#8, 0#8, 0#8, 0#8, 0#8, 0#8, 0#8] := by decide
  simp [hengine, hstate, hserial, crcOf, crc32c, crcByte, crcBit]

/-- In COMMISSION a BLANK engine with a key becomes PROVISIONED. -/
theorem lifeCycle_change_witness :
    Gives (.dwLifecycle 0 lifecycleHdr (lifecycleParams 1 2990306984)) (lifecycleEngine 1 0) fun t => t.mem.otp.lc = 1 := by
  obtain ⟨houtcomes, -⟩ := lifeCycle
  obtain ⟨-, hsound⟩ := houtcomes 0 lifecycleHdr (lifecycleParams 1 2990306984) (lifecycleEngine 1 0) 3 1 0 True
    ⟨by decide, by decide, rfl, rfl, rfl, _, _, rfl, rfl⟩ rfl rfl rfl (by decide) (by decide) (by decide) rfl
    (.inl ⟨rfl, by decide⟩) (by decide)
  obtain ⟨-, -, hchange⟩ := hsound _ rfl
  obtain ⟨t, u, rfl, rfl, hexec⟩ := hchange trivial (Eq.trans (by decide) crcOf_provisioned.symm) (by decide)
  exact ⟨_, hexec, Kept.lc_eq (State.chipReset_kept _ 5 0 (Kept.start _))⟩

/-- A FIELD engine does not return to PROVISIONED, and the refusal comes before those of AUTH_CODE and of ALARM. -/
theorem lifeCycle_noSuccessor_witness : Answered (.dwLifecycle 0 lifecycleHdr (lifecycleParams 1 0)) (lifecycleEngine 4 2) 0
    lifecycleHdr (rejected 1) (lifecycleEngine 4 2) := by
  obtain ⟨houtcomes, -⟩ := lifeCycle
  obtain ⟨hrefused, -⟩ := houtcomes 0 lifecycleHdr (lifecycleParams 1 0) (lifecycleEngine 4 2) 3 1 2 False
    ⟨by decide, by decide, rfl, rfl, rfl, _, _, rfl, rfl⟩ rfl rfl rfl (by decide) (by decide) (by decide) rfl
    (.inl ⟨rfl, by decide⟩) (by decide)
  exact hrefused id

/-- A wrong AUTH_CODE is refused before the mode is judged. -/
theorem lifeCycle_badAuth_witness : Answered (.dwLifecycle 0 lifecycleHdr (lifecycleParams 1 0)) (lifecycleEngine 4 0) 0
    lifecycleHdr (rejected 2) (lifecycleEngine 4 0) := by
  obtain ⟨houtcomes, -⟩ := lifeCycle
  obtain ⟨-, hsound⟩ := houtcomes 0 lifecycleHdr (lifecycleParams 1 0) (lifecycleEngine 4 0) 3 1 0 True
    ⟨by decide, by decide, rfl, rfl, rfl, _, _, rfl, rfl⟩ rfl rfl rfl (by decide) (by decide) (by decide) rfl
    (.inl ⟨rfl, by decide⟩) (by decide)
  obtain ⟨hauth, -⟩ := hsound 2990306984 crcOf_provisioned.symm
  exact hauth trivial (by decide)

/-- In ALARM a sound change is refused. -/
theorem lifeCycle_alarm_witness : Answered (.dwLifecycle 0 lifecycleHdr (lifecycleParams 1 2990306984))
    (lifecycleEngine 4 0) 0 lifecycleHdr (rejected 3) (lifecycleEngine 4 0) := by
  obtain ⟨houtcomes, -⟩ := lifeCycle
  obtain ⟨-, hsound⟩ := houtcomes 0 lifecycleHdr (lifecycleParams 1 2990306984) (lifecycleEngine 4 0) 3 1 0 True
    ⟨by decide, by decide, rfl, rfl, rfl, _, _, rfl, rfl⟩ rfl rfl rfl (by decide) (by decide) (by decide) rfl
    (.inl ⟨rfl, by decide⟩) (by decide)
  obtain ⟨-, halarm, -⟩ := hsound 2990306984 crcOf_provisioned.symm
  exact halarm trivial (by decide) (by decide)

/-- A CHIP_RESET of JTAG leaves a FIELD engine in FIELD. -/
theorem lifeCycle_otherCommand_witness : Gives .jtagChipRst (lifecycleEngine 1 2) fun t => t.mem.otp.lc = 2 := by
  obtain ⟨-, -, hothers⟩ := lifeCycle
  obtain ⟨t, ht, -⟩ := execJtagChipRst_kept (lifecycleEngine 1 2) (Kept.start _)
  exact ⟨t, ht, hothers .jtagChipRst _ t nofun ht⟩

end Sys2Proof.Machine
end

section
/-!
PROOF. The block as a whole: every command answers a next state with the queue as it was, fuses that have only grown and byte
memories in canonical form; a step is the command at the front of the queue.
-/

namespace Sys2Proof.Machine

/-- What every command keeps, LIFECYCLE among them: `t` comes after `s`. -/
structure State.Keeps (s t : State) : Prop where
  pending : t.pending = s.pending
  otp : Otp.Grows s.mem.otp t.mem.otp
  wf : s.mem.wf = true → t.mem.wf = true

theorem Kept.keeps {s t : State} (h : Kept s.pending s.mem.otp s.mem.wf t) : s.Keeps t := by
  obtain ⟨hpending, hotp, hwf⟩ := h
  exact ⟨hpending, hotp.toGrows, hwf⟩

/-- A successor of the life-cycle state stands above it. -/
theorem Otp.lt_of_succeeds {o : Otp} {st : Nat} (h : o.succeeds st = true) : o.lc < st := by
  rw [Otp.succeeds_iff] at h
  omega

theorem Otp.Grows.burnLc {a b : Otp} {st : Nat} (h : Otp.Grows a b) (hst : a.lc ≤ st) : Otp.Grows a { b with lc := st } :=
  { h with lc := hst }

theorem Otp.Grows.trans {a b c : Otp} (h : Otp.Grows a b) (k : Otp.Grows b c) : Otp.Grows a c :=
  ⟨Nat.le_trans h.lc k.lc, Nat.le_trans h.rollback k.rollback, k.wiped ∘ h.wiped, k.keys.trans h.keys,
    k.revoked.trans h.revoked, k.serial.trans h.serial, k.avs.trans h.avs, k.repaired.trans h.repaired,
    k.spareLow.trans h.spareLow⟩

/-- A chip reset after new fuses have been burnt into a state that is kept. -/
theorem State.Keeps.chipReset_burnt {s u : State} {o : Otp} (h : s.Keeps u) (ho : Otp.Grows s.mem.otp o) (cause src : Nat) :
    s.Keeps (State.chipReset { u with mem := { u.mem with otp := o } } cause src) := by
  obtain ⟨hpending, hotp, hwf⟩ :=
    (State.chipReset_kept _ cause src (Kept.start { u with mem := { u.mem with otp := o } })).keeps
  exact ⟨hpending.trans h.pending, ho.trans hotp, fun hw => hwf (h.wf hw)⟩

/-- LIFECYCLE burns a successor only when its body has answered OK, which it does for a successor alone. -/
theorem State.le_of_dweul_dwLifecycle {f : Fin 128} {h : Hdr} {ps : List Byte} {s : State}
    (hok : (s.dweul lifecycleOp f h ps 8 State.dwLifecycle).2 = some 0) : s.mem.otp.lc ≤ byteAt ps 0 := by
  obtain ⟨u, c, a, ⟨-, hotp, -⟩, rfl, ha, hzero⟩ := State.dweul_zero (Kept.start s) hok
  have hsucceeds := State.succeeds_of_dwLifecycle ha hzero
  rw [hotp.succeeds_eq] at hsucceeds
  exact Nat.le_of_lt (Otp.lt_of_succeeds hsucceeds)

theorem exec_dwLifecycle_keeps (f : Fin 128) (h : Hdr) (ps : List Byte) (s : State) :
    ∃ t, exec (.dwLifecycle f h ps) s = .next t ∧ s.Keeps t := by
  have hkeeps := (State.dweul_kept s lifecycleOp f h ps 8 State.dwLifecycle State.dwLifecycle_kept (Kept.start s)).keeps
  rw [exec_dwLifecycle_eq]
  by_cases hok : (s.dweul lifecycleOp f h ps 8 State.dwLifecycle).2 = some 0
  · simp only [hok, if_true]
    exact ⟨_, rfl, hkeeps.chipReset_burnt (hkeeps.otp.burnLc (State.le_of_dweul_dwLifecycle hok)) 5 0⟩
  · simp only [hok, if_false]
    exact ⟨_, rfl, hkeeps⟩

/-- Every command completes and keeps queue, fuses and canonical form. -/
theorem exec_keeps (c : Instr) (s : State) : ∃ t, exec c s = .next t ∧ s.Keeps t := by
  by_cases hlife : ∃ f h ps, c = .dwLifecycle f h ps
  · obtain ⟨f, h, ps, rfl⟩ := hlife
    exact exec_dwLifecycle_keeps f h ps s
  · have hne : ∀ f h ps, c ≠ .dwLifecycle f h ps := fun f h ps hc => hlife ⟨f, h, ps, hc⟩
    obtain ⟨t, ht, hkept⟩ := exec_kept c s hne (Kept.start s)
    exact ⟨t, ht, hkept.keeps⟩

theorem step_of_pending_nil {s : State} (h : s.pending = []) : step s = .next s := by
  simp only [step, h]

theorem step_of_pending_cons {s : State} {c : Instr} {rest : List Instr} (h : s.pending = c :: rest) :
    step s = exec c { s with pending := rest } := by
  simp only [step, h]

/-- A step keeps the canonical form and the fuses, whether a command waits or not. -/
theorem step_keeps {s t : State} (ht : step s = .next t) :
    Otp.Grows s.mem.otp t.mem.otp ∧ (s.mem.wf = true → t.mem.wf = true) := by
  cases hp : s.pending with
  | nil =>
    cases (step_of_pending_nil hp).symm.trans ht
    exact ⟨Otp.Grows.refl _, id⟩
  | cons c rest =>
    obtain ⟨u, hu, hkeeps⟩ := exec_keeps c { s with pending := rest }
    cases hu.symm.trans ((step_of_pending_cons hp).symm.trans ht)
    exact ⟨hkeeps.otp, hkeeps.wf⟩

/-- Settles O56: no command writes a byte memory but through operations that keep the canonical form. -/
theorem memoryForm : Obligations.MemoryForm := by
  unfold Obligations.MemoryForm
  intro s t hwf ht
  exact (step_keeps ht).2 hwf

/-- Settles O57: only LIFECYCLE, BOOT_CONFIRM and the wipe burn fuses, each of them upwards. -/
theorem fusesOnlyGrow : Obligations.FusesOnlyGrow := by
  unfold Obligations.FusesOnlyGrow
  intro s t ht
  exact (step_keeps ht).1

/-- Settles O54: by the two cases of the queue. -/
theorem stepRunsFront : Obligations.StepRunsFront := by
  unfold Obligations.StepRunsFront
  exact ⟨fun c rest s => step_of_pending_cons rfl, fun s => step_of_pending_nil⟩

/-- Settles O55: a command answers a next state, with the queue it was given. -/
theorem progress : Obligations.Progress := by
  unfold Obligations.Progress
  constructor
  · intro c s
    obtain ⟨t, ht, -⟩ := exec_keeps c s
    exact ⟨t, ht⟩
  · intro s t c rest hp ht
    obtain ⟨u, hu, hkeeps⟩ := exec_keeps c { s with pending := rest }
    cases hu.symm.trans ((step_of_pending_cons hp).symm.trans ht)
    exact hkeeps.pending

/-! ### Concrete runs on which the statements speak -/

/-- A chip reset and an XIN return wait in the queue; the step takes the first and leaves the second. -/
theorem progress_witness :
    ∃ t, step { State.reset with pending := [.jtagChipRst, .xinReturn] } = .next t ∧ t.pending = [.xinReturn] := by
  obtain ⟨hcompletes, hqueue⟩ := progress
  obtain ⟨t, ht⟩ := hcompletes .jtagChipRst { State.reset with pending := [.xinReturn] }
  have hstep : step { State.reset with pending := [.jtagChipRst, .xinReturn] } = .next t := ht
  exact ⟨t, hstep, hqueue _ t .jtagChipRst [.xinReturn] rfl hstep⟩

/-- A LIFECYCLE in the queue of a BLANK engine: the step burns PROVISIONED. -/
theorem fusesOnlyGrow_witness : ∃ t, step { lifecycleEngine 1 0 with
    pending := [.dwLifecycle 0 lifecycleHdr (lifecycleParams 1 2990306984)] } = .next t ∧ t.mem.otp.keys = 1 := by
  obtain ⟨t, ht, -⟩ := exec_keeps (.dwLifecycle 0 lifecycleHdr (lifecycleParams 1 2990306984)) (lifecycleEngine 1 0)
  have hstep : step { lifecycleEngine 1 0 with
      pending := [.dwLifecycle 0 lifecycleHdr (lifecycleParams 1 2990306984)] } = .next t := ht
  exact ⟨t, hstep, (fusesOnlyGrow _ t hstep).keys⟩

end Sys2Proof.Machine
end

section
/-!
PROOF. Registers and their fields: what a field or a bit reads as after a write of its own or of another field, and a write of
the value that stands already.
-/

namespace Sys2Proof.Machine

/-! ### Fields -/

theorem State.fld_congr {s t : State} {a : Nat} (h : t.reg a = s.reg a) (f : Fld) : t.fld a f = s.fld a f := by
  simp [State.fld, State.rd_congr h]

theorem State.bit_congr {s t : State} {a : Nat} (h : t.reg a = s.reg a) (f : Fld) : t.bit a f = s.bit a f := by
  simp [State.bit, State.fld_congr h]

theorem State.fld_setFld_ne_fld (s : State) (a : Nat) {f g : Fld} (v : Nat) (hf : f.hi < 32) (hle : f.lo ≤ f.hi)
    (hg : g.hi < f.lo ∨ f.hi < g.lo) : (s.setFld a f v).fld a g = s.fld a g := by
  simp only [State.fld, State.rd_setFld s a f v hf, Fld.of_put_ne f g _ v hg hle]

theorem State.fld_setFld_ne_reg (s : State) {a b : Nat} (f g : Fld) (v : Nat) (h : b ≠ a) :
    (s.setFld a f v).fld b g = s.fld b g :=
  State.fld_congr (State.reg_setFld_ne s f v h) g

/-! ### States with the same registers -/

section
variable {s : State} {pending shadow msc edge latch sched fc ccu mem pins boot twin drover shep quilt seam needle bell ptp net port line alarm out freeCtr}

/-- A state with the registers of `s` and anything else of its own: its registers read as those of `s`. The proofs stand in
parentheses so that `simp` rewrites with them and does not leave the two states to be unfolded. -/
@[simp] theorem State.reg_mk (a : Nat) : (State.mk pending s.regs shadow msc edge latch sched fc ccu mem pins boot twin drover shep quilt seam needle bell
        ptp net port line alarm out freeCtr).reg a = s.reg a := (rfl)

@[simp] theorem State.rd_mk (a : Nat) : (State.mk pending s.regs shadow msc edge latch sched fc ccu mem pins boot twin drover shep quilt seam needle bell
        ptp net port line alarm out freeCtr).rd a = s.rd a := (rfl)

@[simp] theorem State.fld_mk (a : Nat) (f : Fld) : (State.mk pending s.regs shadow msc edge latch sched fc ccu mem pins boot twin drover shep quilt seam needle bell
        ptp net port line alarm out freeCtr).fld a f = s.fld a f := (rfl)

@[simp] theorem State.bit_mk (a : Nat) (f : Fld) : (State.mk pending s.regs shadow msc edge latch sched fc ccu mem pins boot twin drover shep quilt seam needle bell
        ptp net port line alarm out freeCtr).bit a f = s.bit a f := (rfl)

@[simp] theorem State.bitAt_mk (a k : Nat) : (State.mk pending s.regs shadow msc edge latch sched fc ccu mem pins boot twin drover shep quilt seam needle bell
        ptp net port line alarm out freeCtr).bitAt a k = s.bitAt a k := (rfl)

@[simp] theorem State.mode_mk : (State.mk pending s.regs shadow msc edge latch sched fc ccu mem pins boot twin drover shep quilt seam needle bell
        ptp net port line alarm out freeCtr).mode = s.mode := (rfl)

@[simp] theorem State.tstate_mk : (State.mk pending s.regs shadow msc edge latch sched fc ccu mem pins boot twin drover shep quilt seam needle bell
        ptp net port line alarm out freeCtr).tstate = s.tstate := (rfl)

@[simp] theorem State.curRef_mk : (State.mk pending s.regs shadow msc edge latch sched fc ccu mem pins boot twin drover shep quilt seam needle bell
        ptp net port line alarm out freeCtr).curRef = s.curRef := (rfl)

end

/-! ### Bits and flags -/

theorem State.rd_setBit (s : State) (a : Nat) (f : Fld) (b : Bool) (h : f.hi < 32) :
    (s.setBit a f b).rd a = f.put (s.rd a) (if b = true then 1 else 0) := s.rd_setFld a f _ h

theorem State.rd_flag (s : State) (a : Nat) (f : Fld) (h : f.hi < 32) : (s.flag a f).rd a = f.put (s.rd a) 1 :=
  s.rd_setFld a f 1 h

theorem State.rd_setBitAt (s : State) (a k : Nat) (b : Bool) (h : k < 32) :
    (s.setBitAt a k b).rd a = (Fld.mk k k).put (s.rd a) (if b = true then 1 else 0) := s.rd_setFld a _ _ h

theorem State.rd_setFld_ne (s : State) {a b : Nat} (f : Fld) (v : Nat) (h : b ≠ a) : (s.setFld a f v).rd b = s.rd b :=
  State.rd_congr (s.reg_setFld_ne f v h)

theorem State.rd_flag_ne (s : State) {a b : Nat} (f : Fld) (h : b ≠ a) : (s.flag a f).rd b = s.rd b :=
  s.rd_setFld_ne f 1 h

theorem State.bit_setBit (s : State) (a : Nat) (f : Fld) (b : Bool) (hw : f.width = 1) (h : f.hi < 32) :
    (s.setBit a f b).bit a f = b := by
  simp only [State.bit, State.setBit, State.fld_setFld s a f _ h, hw]
  cases b <;> rfl

/-- Settles O59: a field replaced in its word, and a word replaced among the registers. -/
theorem fieldWrites : Obligations.FieldWrites := by
  unfold Obligations.FieldWrites
  intro s a f v hf hle
  exact ⟨State.fld_setFld s a f v hf, fun g hg => State.fld_setFld_ne_fld s a v hf hle hg,
    fun b g hb => State.fld_setFld_ne_reg s f g v hb, (OnlyRegs.refl [a] s).setFld a f v (List.mem_singleton_self a)⟩

/-- SYS_MODE of an engine in BOOT: its mode becomes SERVICE, and the duty bit beside it stays 0. -/
theorem fieldWrites_witness : (State.reset.setFld R.SYS_MODE F.SYS_MODE_MODE 0x12).fld R.SYS_MODE F.SYS_MODE_MODE = 2 ∧
    (State.reset.setFld R.SYS_MODE F.SYS_MODE_MODE 0x12).fld R.SYS_MODE F.SYS_MODE_DUTY = 0 := by
  obtain ⟨hsame, hbeside, -⟩ := fieldWrites State.reset R.SYS_MODE F.SYS_MODE_MODE 0x12 (by decide) (by decide)
  exact ⟨hsame.trans (by decide), (hbeside F.SYS_MODE_DUTY (by decide)).trans (by decide)⟩

end Sys2Proof.Machine
end

section
/-!
PROOF. The clocks: locks and losses of the APLLs, of TCXO_IN and of XIN (R228, R229, R255 to R260).
-/

namespace Sys2Proof.Machine

/-! ### Locks -/

theorem State.bit_setBitAt_ne (s : State) (a : Nat) {k : Nat} {f : Fld} (b : Bool) (hk : k < 32)
    (hf : f.hi < k ∨ k < f.lo) : (s.setBitAt a k b).bit a f = s.bit a f := by
  simp [State.bit, State.setBitAt, State.fld_setFld_ne_fld s a _ (f := ⟨k, k⟩) hk (Nat.le_refl _) hf]

theorem exec_apllLock_eq (a : Fin 4) (s : State) :
    exec (.apllLock a) s = .next (s.setBitAt R.BELL_STATUS (13 + a.val) true) := rfl

/-- The lock bits of the CORE APLLs stand beside CORE_XIN. -/
theorem State.coreXin_setLock (s : State) (a : Fin 2) (b : Bool) :
    (s.setBitAt R.BELL_STATUS (13 + a.val) b).bit R.BELL_STATUS F.BELL_STATUS_CORE_XIN =
      s.bit R.BELL_STATUS F.BELL_STATUS_CORE_XIN :=
  s.bit_setBitAt_ne _ b (by omega) (.inl (by simp [F.BELL_STATUS_CORE_XIN]; omega))

theorem State.fbRes_setBitAt_bellStatus (s : State) (k : Nat) (b : Bool) :
    (s.setBitAt R.BELL_STATUS k b).fbRes = s.fbRes :=
  State.bit_congr (s.reg_setFld_ne _ _ (by decide)) _

theorem exec_coreApllRelock_of_xin {a : Fin 2} {s : State} (hxin : s.bit R.BELL_STATUS F.BELL_STATUS_CORE_XIN = true)
    (hfb : s.fbRes = false) :
    exec (.coreApllRelock a) s = .next (((s.setBitAt R.BELL_STATUS (13 + a.val) true).setBit R.BELL_STATUS
      F.BELL_STATUS_CORE_XIN false).setFld R.BELL_STATUS F.BELL_STATUS_CORE_SEL a.val) := by
  show execCoreApllRelock a s = _
  simp [execCoreApllRelock, State.coreXin_setLock, State.fbRes_setBitAt_bellStatus, hxin, hfb]

theorem exec_coreApllRelock_of_not_xin {a : Fin 2} {s : State}
    (hxin : s.bit R.BELL_STATUS F.BELL_STATUS_CORE_XIN = false) :
    exec (.coreApllRelock a) s = .next (s.setBitAt R.BELL_STATUS (13 + a.val) true) := by
  show execCoreApllRelock a s = _
  simp [execCoreApllRelock, State.coreXin_setLock, hxin]

/-- The state whose audio domain runs on its APLL again. -/
def State.audioBack (s : State) : State :=
  (s.setBit R.BELL_STATUS F.BELL_STATUS_AUDIO_LOCK true).setBit R.BELL_STATUS F.BELL_STATUS_AUDIO_BYP false

/-- The loop goes on as the state of R241 says: out of HOLDOVER it closes, in ACQUIRE and LOCKED the error starts anew. -/
theorem exec_audioApllRelock_of_byp {ms : Nat} {raw : Int} {s : State}
    (hbyp : s.bit R.BELL_STATUS F.BELL_STATUS_AUDIO_BYP = true) (hms : 10 ≤ ms) :
    exec (.audioApllRelock ms raw) s = .next (if s.audioBack.loop = 3 then s.audioBack.closeLoop raw else
      match s.audioBack.curRef with
      | some n => if s.audioBack.loop = 1 || s.audioBack.loop = 2 then s.audioBack.zeroError n raw else s.audioBack
      | none => s.audioBack) := by
  show execAudioApllRelock ms raw s = _
  simp only [execAudioApllRelock, hbyp, hms, decide_true, Bool.and_self, if_true]
  congr 1
  change (match s.audioBack.loop, s.audioBack.curRef with
    | 3, _ => s.audioBack.closeLoop raw
    | 1, some n => s.audioBack.zeroError n raw
    | 2, some n => s.audioBack.zeroError n raw
    | _, _ => s.audioBack) = _
  cases s.audioBack.curRef <;> split <;> simp_all

theorem State.audioBack_only (s : State) : OnlyRegs [R.BELL_STATUS] s s.audioBack :=
  ((OnlyRegs.refl _ s).setBit _ _ _ (by decide)).setBit _ _ _ (by decide)

/-! ### Losses -/

section
variable {a : Fin 2} {s : State}

/-- The CORE APLL that has lost lock, in force: the core domain leaves it for the other one or for XIN. -/
theorem exec_coreApllUnlock_of_selected (hlock : s.bitAt R.BELL_STATUS (13 + a.val) = true)
    (hsel : (s.setBitAt R.BELL_STATUS (13 + a.val) false).fld R.BELL_STATUS F.BELL_STATUS_CORE_SEL = a.val)
    (hxin : (s.setBitAt R.BELL_STATUS (13 + a.val) false).bit R.BELL_STATUS F.BELL_STATUS_CORE_XIN = false) :
    exec (.coreApllUnlock a) s =
      let u := s.setBitAt R.BELL_STATUS (13 + a.val) false
      let other := u.bitAt R.BELL_STATUS (14 - a.val)
      let v := ((if other = true then u.setFld R.BELL_STATUS F.BELL_STATUS_CORE_SEL (1 - a.val)
        else u.setBit R.BELL_STATUS F.BELL_STATUS_CORE_XIN true).flag R.BELL_FLAGS (if a.val = 0 then
          F.BELL_FLAGS_CORE_A_UNLOCK else F.BELL_FLAGS_CORE_B_UNLOCK)).raise
            (if a.val = 0 then FS.CORE_A_UNLOCK else FS.CORE_B_UNLOCK) 0 0
      .next (if other = true then v else v.raise FS.CORE_BOTH_UNLOCK 0 0) := by
  show execCoreApllUnlock a s = _
  simp only [execCoreApllUnlock, hlock, hsel, hxin, Bool.not_true, Bool.false_eq_true, if_false, decide_true,
    Bool.not_false, Bool.and_self]

end

/-- The flag of a loss stands in another register than the status. -/
theorem State.rd_bellStatus_flag (s : State) (f : Fld) : (s.flag R.BELL_FLAGS f).rd R.BELL_STATUS = s.rd R.BELL_STATUS :=
  s.rd_flag_ne f (by decide)

theorem exec_audioApllUnlock_of_lock {s : State} (h : s.bit R.BELL_STATUS F.BELL_STATUS_AUDIO_LOCK = true) :
    exec .audioApllUnlock s =
      let v := (s.setBit R.BELL_STATUS F.BELL_STATUS_AUDIO_LOCK false).setBit R.BELL_STATUS F.BELL_STATUS_AUDIO_BYP true
      let u : State := { v with bell := { v.bell with clean := false } }
      .next (((if u.loop = 0 || u.loop = 3 then u else u.enterHoldover).flag R.BELL_FLAGS
        F.BELL_FLAGS_AUDIO_UNLOCK).raise FS.AUDIO_UNLOCK 0 0) := by
  show execAudioApllUnlock s = _
  simp [execAudioApllUnlock, h]

theorem exec_netApllUnlock_of_lock {req : List (Fin 4 × Fin 8 × BitVec 16)} {raw : Int} {s : State}
    (h : s.bit R.BELL_STATUS F.BELL_STATUS_NET_LOCK = true) :
    exec (.netApllUnlock req raw) s =
      let u := (s.setBit R.BELL_STATUS F.BELL_STATUS_NET_LOCK false).flag R.BELL_FLAGS F.BELL_FLAGS_NET_UNLOCK
      .next (((List.range 4).foldl (fun (t : State) p => t.linkDown p
        ((req.filter (fun r => r.1.val = p)).map (fun r => (r.2.1.val, r.2.2.toNat))))
          (u.raise FS.NET_UNLOCK 0 0)).tickToXin.linkLost raw) := by
  show execNetApllUnlock req raw s = _
  simp [execNetApllUnlock, h]

/-- Settles O1: each loss and each return in turn, then the registers that it writes. -/
theorem locksAndLosses : Obligations.LocksAndLosses := by
  unfold Obligations.LocksAndLosses
  refine ⟨⟨?apllLock, ?netRelock, ?coreFromXin, ?coreStays, ?audioRelock, ?audioWaits, fun s => rfl⟩,
    ?coreUnlock, ?audioUnlock, ?netUnlock, ?tcxoLoss, ?tcxoReturn, ?xinLoss, fun s => rfl⟩
  case apllLock =>
    intro a s
    exact ⟨_, rfl, (OnlyRegs.refl _ s).setBitAt _ _ _ (by decide), s.rd_setBitAt _ _ _ (by omega)⟩
  case netRelock =>
    intro s
    exact ⟨_, rfl, (OnlyRegs.refl _ s).setBit _ _ _ (by decide), s.rd_setBit _ _ _ (by decide)⟩
  case coreFromXin =>
    intro a s hxin hfb
    refine ⟨_, exec_coreApllRelock_of_xin hxin hfb, ?_, ?_⟩
    · exact (((OnlyRegs.refl _ s).setBitAt _ _ _ (by decide)).setBit _ _ _ (by decide)).setFld _ _ _ (by decide)
    · rw [State.rd_setFld _ _ _ _ (by decide), State.rd_setBit _ _ _ _ (by decide), State.rd_setBitAt _ _ _ _ (by omega)]
      rfl
  case coreStays =>
    intro a s hxin
    exact ⟨_, exec_coreApllRelock_of_not_xin hxin, (OnlyRegs.refl _ s).setBitAt _ _ _ (by decide),
      s.rd_setBitAt _ _ _ (by omega)⟩
  case audioRelock =>
    intro ms raw s hbyp hms
    refine ⟨s.audioBack, exec_audioApllRelock_of_byp hbyp hms, s.audioBack_only, ?_⟩
    rw [State.audioBack, State.rd_setBit _ _ _ _ (by decide), State.rd_setBit _ _ _ _ (by decide)]
    rfl
  case audioWaits =>
    intro ms raw s h
    show execAudioApllRelock ms raw s = _
    rcases h with h | h
    · simp [execAudioApllRelock, h]
    · simp [execAudioApllRelock, Nat.not_le.2 h]
  case coreUnlock =>
    intro a s hlock hsel hxin
    have hexec := exec_coreApllUnlock_of_selected hlock hsel hxin
    have hunlock : OnlyRegs [R.BELL_STATUS, R.BELL_FLAGS] s (s.setBitAt R.BELL_STATUS (13 + a.val) false) :=
      (OnlyRegs.refl _ s).setBitAt _ _ _ (by decide)
    refine ⟨fun hother => ?_, fun hother => ?_⟩
    · simp only [hother, if_true] at hexec
      refine ⟨_, hexec, (hunlock.setFld _ _ _ (by decide)).flag _ _ (by decide), ?_⟩
      rw [State.rd_bellStatus_flag, State.rd_setFld _ _ _ _ (by decide), State.rd_setBitAt _ _ _ _ (by omega)]
      rfl
    · simp only [hother, Bool.false_eq_true, if_false] at hexec
      refine ⟨_, hexec, (hunlock.setBit _ _ _ (by decide)).flag _ _ (by decide), ?_⟩
      rw [State.rd_bellStatus_flag, State.rd_setBit _ _ _ _ (by decide), State.rd_setBitAt _ _ _ _ (by omega)]
      rfl
  case audioUnlock =>
    rintro s v hlock rfl
    exact ⟨_, rfl, exec_audioApllUnlock_of_lock hlock⟩
  case netUnlock =>
    intro req raw s hlock
    refine ⟨_, exec_netApllUnlock_of_lock hlock, ((OnlyRegs.refl _ s).setBit _ _ _ (by decide)).flag _ _ (by decide), ?_⟩
    rw [State.rd_bellStatus_flag, State.rd_setBit _ _ _ _ (by decide)]
    rfl
  case tcxoLoss =>
    intro s h
    show execTcxoLoss s = _
    simp [execTcxoLoss, h]
  case tcxoReturn =>
    intro lost s h
    show ∃ u : State, execTcxoReturn lost s = .next u.linesSync ∧ _
    simp only [execTcxoReturn, h, Bool.false_eq_true, if_false]
    exact ⟨_, rfl, rfl, rfl, rfl, rfl, rfl⟩
  case xinLoss =>
    intro s h
    show execXinLoss s = _
    simp [execXinLoss, h]

end Sys2Proof.Machine
end

section
/-!
PROOF. Bellwether: the monitors of the reference inputs and the selection of a reference (R230 to R240).
-/

namespace Sys2Proof.Machine

/-! ### Monitors -/

theorem exec_refActivityLoss_eq (n : Fin 16) (s : State) :
    exec (.refActivityLoss n) s = .next (if n.val < 8 then s.syncTbRef n else s.refInactive n) := rfl

theorem State.refInactive_of_active {s : State} {n : Nat} (h : s.refActive n = true) : s.refInactive n =
    let u := ((((s.setBitAt R.BELL_QUAL (16 + n) false).setRefIn n { s.refIn n with clean := 0, skip := true }).setBit
      (R.BELL_REF_STAT n) F.BELL_REF_STAT_MEAS_VALID false).disqualify n 1).syncQtLeft n
    if u.refEn n = true then (u.flag R.BELL_FLAGS F.BELL_FLAGS_REF_LOSS).raise FS.BELL_REF_LOSS n 0 else u := by
  simp only [State.refInactive, h, Bool.not_true, Bool.false_eq_true, if_false]

theorem State.refInactive_of_inactive {s : State} {n : Nat} (h : s.refActive n = false) : s.refInactive n = s := by
  simp only [State.refInactive, h, Bool.not_false, if_true]

/-- Limits are in order when ACCEPT is positive, below REJECT, and REJECT at most 150,000 (R235). -/
theorem State.refLimitApply_of_ordered {s : State} {n : Nat}
    (ha : 0 < F.BELL_REF_ACCEPT_LIMIT.of (s.shadowOf (R.BELL_REF_ACCEPT n)).toNat)
    (haj : F.BELL_REF_ACCEPT_LIMIT.of (s.shadowOf (R.BELL_REF_ACCEPT n)).toNat <
      F.BELL_REF_REJECT_LIMIT.of (s.shadowOf (R.BELL_REF_REJECT n)).toNat)
    (hj : F.BELL_REF_REJECT_LIMIT.of (s.shadowOf (R.BELL_REF_REJECT n)).toNat ≤ 150000) :
    s.refLimitApply n = (s.setRefIn n { s.refIn n with
      limits := some (s.shadowOf (R.BELL_REF_ACCEPT n), s.shadowOf (R.BELL_REF_REJECT n)), clean := 0 }).syncQtLeft n := by
  simp [State.refLimitApply, Nat.pos_iff_ne_zero.1 ha, Nat.not_le.2 haj, Nat.not_lt.2 hj]

theorem State.refLimitApply_of_refused {s : State} {n : Nat} (hlimits : (s.refIn n).limits = none)
    (hbad : F.BELL_REF_ACCEPT_LIMIT.of (s.shadowOf (R.BELL_REF_ACCEPT n)).toNat = 0 ∨
      F.BELL_REF_REJECT_LIMIT.of (s.shadowOf (R.BELL_REF_REJECT n)).toNat ≤
        F.BELL_REF_ACCEPT_LIMIT.of (s.shadowOf (R.BELL_REF_ACCEPT n)).toNat ∨
      150000 < F.BELL_REF_REJECT_LIMIT.of (s.shadowOf (R.BELL_REF_REJECT n)).toNat) :
    s.refLimitApply n = ((s.dropShadows [R.BELL_REF_ACCEPT n, R.BELL_REF_REJECT n]).flag R.BELL_FLAGS
      F.BELL_FLAGS_APPLY_ERR).raise FS.BELL_APPLY_ERR 0 0 := by
  simp [State.refLimitApply, hlimits, hbad, or_assoc, State.reloadShadows]

/-- Settles O2: each monitor, with the input active and not. -/
theorem referenceMonitors : Obligations.ReferenceMonitors := by
  unfold Obligations.ReferenceMonitors
  refine ⟨?loss, ?lossIdle, ?active, ?unlocked, ?timeBases, ?expires, ?notYet, ?gate, ?frozen, ?limits⟩
  case loss =>
    rintro n s u hn hactive rfl hen
    rw [exec_refActivityLoss_eq, if_neg (by omega), State.refInactive_of_active hactive]
    simp only [hen, if_true]
  case lossIdle =>
    intro n s hn hactive
    rw [exec_refActivityLoss_eq, if_neg (by omega), State.refInactive_of_inactive hactive]
  case active =>
    intro n s hn hactive
    show execReferenceActive n s = _
    have hlow : ¬ n.val < 8 := by omega
    have haes : n.val ≠ 10 ∧ n.val ≠ 11 := by omega
    simp [execReferenceActive, hlow, haes, State.refBecomesActive, hactive]
  case unlocked =>
    intro n s hn hlock
    show execReferenceActive n s = _
    have hlow : ¬ n.val < 8 := by omega
    simp [execReferenceActive, hlow, hn, hlock]
  case timeBases =>
    intro n s hn
    exact ⟨by rw [exec_refActivityLoss_eq, if_pos hn], congrArg Host.Outcome.next (if_pos hn)⟩
  case expires =>
    intro n ms s hvalid hms
    show execSwValidExpiry n ms s = _
    simp [execSwValidExpiry, hvalid, hms]
  case notYet =>
    intro n ms s hms
    show execSwValidExpiry n ms s = _
    simp [execSwValidExpiry, Nat.not_le.2 hms]
  case gate =>
    intro n p s htcxo hlimits hactive
    show execFreqGateEnd n p s = _
    simp [execFreqGateEnd, htcxo, hlimits, hactive]
  case frozen =>
    intro n p s htcxo
    show execFreqGateEnd n p s = _
    simp [execFreqGateEnd, htcxo]
  case limits =>
    intro n s a j
    exact ⟨fun ha haj hj => congrArg Host.Outcome.next (State.refLimitApply_of_ordered ha haj hj),
      fun hbad hlimits => congrArg Host.Outcome.next (State.refLimitApply_of_refused hlimits hbad)⟩

/-! ### Selection -/

/-- The count of evaluations in which a better candidate stood starts anew. -/
def State.noBetter (s : State) : State := { s with bell := { s.bell with better := 0 } }

/-- No request for a candidate: the best candidate decides. -/
theorem exec_selectionEval_of_no_req {ph : List Int} {s : State} (hreq : s.bit R.BELL_SEL F.BELL_SEL_REQ = false) :
    exec (.selectionEval ph) s = match s.curRef, s.best with
      | none, none => .next s.noBetter
      | none, some b => .next (s.noBetter.switchTo b (ph.getD b 0))
      | some c, best =>
        if s.cand c = false then
          match best with
          | none => .next s.noBetter.switchToNone
          | some b => .next (s.noBetter.switchTo b (ph.getD b 0))
        else
          match best with
          | none => .next s.noBetter
          | some b =>
            if s.rank b < s.rank c then
              if s.bit R.BELL_CTRL F.BELL_CTRL_REVERT = true ∧
                  1000 * s.fld R.BELL_SEL F.BELL_SEL_REVERT_WAIT ≤ s.bell.better then
                .next (s.noBetter.switchTo b (ph.getD b 0))
              else .next { s with bell := { s.bell with better := s.bell.better + 1 } }
            else .next s.noBetter := by
  show execSelectionEval ph s = _
  simp only [execSelectionEval, hreq, Bool.false_and, Bool.false_eq_true, if_false, Bool.not_eq_true', State.bit_mk,
    State.fld_mk, Bool.and_eq_true, decide_eq_true_eq, Nat.lt_succ_iff]
  rfl

/-- Settles O3: the request, then the cases of the current reference and of the best candidate. -/
theorem referenceSelection : Obligations.ReferenceSelection := by
  unfold Obligations.ReferenceSelection
  refine ⟨?write, ?requested, ?best, ?none, ?better, ?noRevert⟩
  case write =>
    intro n s
    refine ⟨_, rfl, ((OnlyRegs.refl _ s).setFld _ _ _ (by decide)).setBit _ _ _ (by decide), ?_⟩
    rw [State.refSelWrite, State.rd_setBit _ _ _ _ (by decide), State.rd_setFld _ _ _ _ (by decide)]
    rfl
  case requested =>
    intro ph s hreq hcand hcur
    show execSelectionEval ph s = _
    simp [execSelectionEval, hreq, hcand, hcur]
  case best =>
    intro ph b s hreq hbest hcur
    rw [exec_selectionEval_of_no_req hreq]
    rcases hcur with hcur | ⟨c, hcur, hcand⟩
    · simp only [hcur, hbest]
      rfl
    · simp only [hcur, hbest, hcand, if_true]
      rfl
  case none =>
    intro ph c s hreq hbest hcur hcand
    rw [exec_selectionEval_of_no_req hreq]
    simp only [hcur, hbest, hcand, if_true]
    rfl
  case better =>
    intro ph c b s hreq hcur hcand hbest hrank hrevert hwait
    rw [exec_selectionEval_of_no_req hreq]
    simp only [hcur, hbest, hcand, hrank, hrevert, hwait, and_self, if_true, Bool.true_eq_false, if_false]
    rfl
  case noRevert =>
    intro ph c b s hreq hcur hcand hbest hrank hrevert
    rw [exec_selectionEval_of_no_req hreq]
    simp only [hcur, hbest, hcand, hrank, hrevert, if_true, Bool.true_eq_false, Bool.false_eq_true, false_and, if_false]

end Sys2Proof.Machine
end

section
/-!
PROOF. Writes that a master makes over the bus, as far as every register shares them (R42, R43, R437), and the rows of single
registers.
-/

namespace Sys2Proof.Machine

/-- No view shuts the master out: BAR0 may be read only (R44). -/
def State.MayWrite (s : State) (m : Master) : Prop := m = .bar0 → s.bit R.SYS_VIEW_LOCK F.SYS_VIEW_LOCK_BAR0_RO = false

section
variable {s : State} {m : Master} {addr v msk hw : Nat}

/-- Outside a pair a write acts at its target. -/
theorem State.busWrite_of_solo {t : Target} (ht : s.targetFor m (addr / 4 * 4) = t) (hmap : t ≠ .unmapped)
    (hlock : s.MayWrite m) (hsolo : s.paired = false) :
    s.busWrite m addr v msk hw = (s.putTarget t v msk m (addr / 4 * 4) hw, false) := by
  have hro : (decide (m = .bar0) && s.bit R.SYS_VIEW_LOCK F.SYS_VIEW_LOCK_BAR0_RO) = false := by
    by_cases hm : m = .bar0
    · simp [hlock hm]
    · simp [hm]
  simp [State.busWrite, ht, hmap, hro, hsolo]

theorem State.busWrite_reg {a : Nat} (ht : s.targetFor m (addr / 4 * 4) = .reg a) (hlock : s.MayWrite m)
    (hsolo : s.paired = false) : s.busWrite m addr v msk hw = (s.writeReg a v msk m (addr / 4 * 4) hw, false) :=
  State.busWrite_of_solo ht (by simp) hlock hsolo

theorem State.busWrite_unmapped (ht : s.targetFor m (addr / 4 * 4) = .unmapped) :
    s.busWrite m addr v msk hw = (s.raise FS.ADDR_UNMAPPED 0 0, true) := by
  simp [State.busWrite, ht, State.unmapped]

theorem State.busWrite_viewLocked (ht : s.targetFor .bar0 (addr / 4 * 4) ≠ .unmapped)
    (hlock : s.bit R.SYS_VIEW_LOCK F.SYS_VIEW_LOCK_BAR0_RO = true) :
    s.busWrite .bar0 addr v msk hw = (s.violate (addr / 4 * 4) .bar0 2, false) := by
  simp [State.busWrite, ht, hlock]

end

/-- The state behind an access, with the answer whether it had a bus error. -/
def State.busDone (s : State) (err : Bool) : State := { s with out := { s.out with busErr := err } }

theorem exec_registerWrite_eq (m : Master) (addr v : Word) (en : BitVec 4) (hw : Word) (s : State) :
    exec (.registerWrite m addr v en hw) s =
      let r := s.busWrite m addr.toNat v.toNat (enableMask en.toNat) hw.toNat
      .next (r.1.busDone r.2) := rfl

/-- A register stands at a multiple of four in both views. -/
theorem Master.regAddr_aligned (m : Master) {a : Nat} (ha : a % 4 = 0) : m.regAddr a / 4 * 4 = m.regAddr a := by
  unfold Master.regAddr
  split <;> omega

/-- A write of a whole register by its own command. -/
theorem State.writeAs_of_solo {s : State} {m : Master} {a : Nat} (v : Nat) (ha : a % 4 = 0)
    (ht : s.targetFor m (m.regAddr a) = .reg a) (hlock : s.MayWrite m) (hsolo : s.paired = false) :
    s.writeAs m a v = (s.writeReg a v 0xFFFFFFFF m (m.regAddr a) 0).busDone false := by
  rw [State.writeAs, State.busWrite_reg (by rwa [m.regAddr_aligned ha]) hlock hsolo, m.regAddr_aligned ha]
  rfl

end Sys2Proof.Machine
end

section
/-!
PROOF. Media time: the edges of the media clock and the block starts (R52 to R55, R246), the events of the scheduler and the
anchor (R56 to R71).
-/

namespace Sys2Proof.Machine

/-! ### Edges and block starts -/

/-- Nothing waits for the edge: only the counts go on. -/
theorem State.edgeEnd_of_idle {s : State} (hfade : s.alarm.fade = none) (hrelease : s.twin.release = .none) :
    s.edgeEnd = ({ s with msc := s.msc + 1, edge := s.edge + 1 } : State).bellEdge := by
  have hsame : ∀ u : State, u.twin = s.twin → u.releaseEnd = u := fun u hu => by simp [State.releaseEnd, hu, hrelease]
  have hbell : ({ s with msc := s.msc + 1, edge := s.edge + 1 } : State).bellEdge.twin = s.twin := by
    simp only [State.bellEdge]
    split <;> rfl
  have hcalm : ({ s with msc := s.msc + 1, edge := s.edge + 1 } : State).bellEdge.alarm.fade = none := by
    simp only [State.bellEdge]
    split <;> exact hfade
  simp only [State.edgeEnd, hcalm]
  split
  · exact hsame _ hbell
  · rfl

/-- Writes to one register after another: each reads as the value that was written to it. -/
theorem State.rd_foldl_wrN (s : State) (at_ val : Nat → Nat) (hinj : Function.Injective at_) {i n : Nat} (hi : i < n) :
    ((List.range n).foldl (fun (t : State) j => t.wrN (at_ j) (val j)) s).rd (at_ i) = val i % 2 ^ 32 := by
  induction n with
  | zero => omega
  | succ n ih =>
    rw [List.range_succ, List.foldl_append, List.foldl_cons, List.foldl_nil]
    by_cases hlast : i = n
    · rw [hlast, State.rd_wrN_self]
    · rw [State.rd_wrN_ne _ _ (fun he => hlast (hinj he)), ih (by omega)]

/-- Settles O5: the edge, the end of its sample, and what waits for a block start. -/
theorem mediaClock : Obligations.MediaClock := by
  unfold Obligations.MediaClock
  refine ⟨?edge, ?edgeInBoot, ?noClock, ?edgeEnd, ?word, ?start, ?block, ?noBlock, ?codes, ?policy, ?noPolicy⟩
  case edge =>
    intro found bad clips s hrun htcxo hmode
    show execMediaClockEdge found bad clips s = _
    simp [execMediaClockEdge, hrun, htcxo, hmode]
  case edgeInBoot =>
    intro found bad clips s hrun htcxo hmode
    show execMediaClockEdge found bad clips s = _
    simp [execMediaClockEdge, hrun, htcxo, hmode]
  case noClock =>
    intro found bad clips s h
    show execMediaClockEdge found bad clips s = _
    rcases h with h | h <;> simp [execMediaClockEdge, h]
  case edgeEnd =>
    intro s hfade hrelease hnext
    simp [State.edgeEnd_of_idle hfade hrelease, State.bellEdge, hnext]
  case word =>
    intro s w hfade hrelease hnext
    simp only [State.edgeEnd_of_idle hfade hrelease, State.bellEdge, hnext]
    exact ⟨rfl, rfl, State.reg_wr_self _ _ _, fun b hb => State.reg_wr_ne _ _ (List.ne_of_not_mem_cons hb)⟩
  case start =>
    intro s htcxo hreset
    show execMscStart s = _
    simp [execMscStart, htcxo, hreset]
  case block =>
    intro codes back late s hmsc hrun htcxo
    show execBlockStart codes back late s = _
    simp [execBlockStart, hmsc, hrun, htcxo]
  case noBlock =>
    intro codes back late s hmsc
    show execBlockStart codes back late s = _
    simp [execBlockStart, hmsc]
  case codes =>
    intro s codes i hi
    exact s.rd_foldl_wrN R.SYS_SADC_CODE (fun j => codes.getD j 0)
      (fun j k (h : 0x40000440 + 4 * j = 0x40000440 + 4 * k) => by omega) hi
  case policy =>
    intro s hpending hrun hmsc
    refine ⟨_, ?_, rfl⟩
    show execBgcfgTakeEffect s = _
    simp [execBgcfgTakeEffect, hpending, hrun, hmsc]
  case noPolicy =>
    intro s h
    show execBgcfgTakeEffect s = _
    rcases h with h | h <;> simp [execBgcfgTakeEffect, h]

/-! ### Events -/

theorem State.fireEvent_lineEn_of_not_alarm {s : State} {e : Event} {m : Nat} (hmode : s.mode ≠ .alarm)
    (hact : e.act = .lineEn m) : s.fireEvent e = (s.dropEvent e.handle).lineEnableMask m := by
  have hstill : (s.dropEvent e.handle).mode ≠ .alarm := hmode
  simp [State.fireEvent, State.actEvent, hact, hstill]

theorem State.fireEvent_lineEn_of_alarm {s : State} {e : Event} {m : Nat} (hmode : s.mode = .alarm) (hcls : e.cls < 3)
    (hact : e.act = .lineEn m) : s.fireEvent e = (s.dropEvent e.handle).notice e 4 2 e.target 0 := by
  have hstill : (s.dropEvent e.handle).mode = .alarm := hmode
  simp [State.fireEvent, State.unprepare, hact, hstill, hcls]

/-- A write of SCHED_ANCHOR reaches the request for an anchor. -/
theorem State.writeReg_schedAnchor (s : State) (v : Nat) (m : Master) (addr : Nat) :
    s.writeReg R.SCHED_ANCHOR v 0xFFFFFFFF m addr 0 = s.anchorWrite v m addr := rfl

theorem State.anchorWrite_of_go {s : State} {v : Nat} (m : Master) (addr : Nat)
    (hstate : s.fld R.SCHED_STATUS F.SCHED_STATUS_STATE ≠ 1) (hgo : F.SCHED_ANCHOR_GO.of v = 1) :
    s.anchorWrite v m addr =
      let t := s.setFld R.SCHED_ANCHOR F.SCHED_ANCHOR_TB (F.SCHED_ANCHOR_TB.of v)
      { t with sched := { t.sched with anchorReq := true } } := by
  simp [State.anchorWrite, hstate, hgo]

/-- Settles O6: what fires and how, and the anchor from its request to the samples it takes. -/
theorem schedulerEvents : Obligations.SchedulerEvents := by
  unfold Obligations.SchedulerEvents
  refine ⟨?nothing, ?single, fun s e m => State.fireEvent_lineEn_of_not_alarm,
    fun s e m => State.fireEvent_lineEn_of_alarm, ?order, ?horizon, ?go, ?take, ?pending, ?idle⟩
  case nothing =>
    intro s hdue
    show Host.Outcome.next (s.fireDue s.sched.events.length) = _
    cases s.sched.events.length <;> simp [State.fireDue, hdue]
  case single =>
    intro s e hevents hfire
    have hdue : s.nextDue = some e := by simp [State.nextDue, hevents, Nat.not_lt.2 hfire]
    show Host.Outcome.next (s.fireDue s.sched.events.length) = _
    simp [hevents, State.fireDue, hdue]
  case order =>
    intro a b
    simp [firesBefore]
  case horizon =>
    intro s e code hfar
    have hbeyond : ¬ e.target - s.msc ≤ 2 ^ 40 := by omega
    simp only [State.arrive, hbeyond, decide_false, Bool.not_false, if_true]
  case go =>
    intro m v s ht hlock hsolo hstate hgo
    refine ⟨_, _, ?_, rfl, rfl⟩
    show Host.Outcome.next (s.writeAs m R.SCHED_ANCHOR v.toNat) = _
    rw [State.writeAs_of_solo _ (by decide) ht hlock hsolo, State.writeReg_schedAnchor,
      State.anchorWrite_of_go _ _ hstate hgo]
    rfl
  case take =>
    rintro s u tb hreq hrun hstate rfl hevents hinc hmsc rfl
    have hreached := Nat.not_lt.2 hmsc
    show execAnchorTake s = _
    have hinc' : ∀ x, State.tbInc { s with sched := x } (s.fld R.SCHED_ANCHOR F.SCHED_ANCHOR_TB) ≠ 0 := fun _ => hinc
    simp [execAnchorTake, hreq, hrun, hstate, State.anchorTake, hevents, hinc', hreached]
  case pending =>
    intro s hreq hrun hstate hevents
    show execAnchorTake s = _
    simp [execAnchorTake, hreq, hrun, hstate, State.anchorTake, hevents]
  case idle =>
    intro s hreq
    show execAnchorTake s = _
    simp [execAnchorTake, hreq]

end Sys2Proof.Machine
end

section
/-!
PROOF. The end of a chip reset, the pins that cause one and the test access port (R27, R444, R578 to R587, R604, R611).
-/

namespace Sys2Proof.Machine

/-! ### Leaving reset -/

/-- Settles O7: each way out of BOOT, and the conditions under which none is taken. -/
theorem booting : Obligations.Booting := by
  unfold Obligations.Booting
  refine ⟨?boots, ?waits, ?pcie, ?busError, ?badImage, ?noPcie, ?confirm, ?roleB, ?roleBReset, ?early⟩
  case boots =>
    rintro flash sig trained s u x hmode hstage hreset hxin hrails rfl hsel hpref himage
    show execResetEnd flash sig trained s = _
    simp [execResetEnd, hmode, hstage, hreset, hxin, hrails, hsel, hpref, himage]
  case waits =>
    intro flash sig trained s h
    show execResetEnd flash sig trained s = _
    rcases h with h | h | h | h | h <;> simp [execResetEnd, h]
  case pcie =>
    intro bs sig trained s x hmode hstage himage
    show execBootGo (some bs) sig trained s = _
    simp [execBootGo, hmode, hstage, himage]
  case busError =>
    intro sig trained s hmode hstage
    show execBootGo none sig trained s = _
    simp [execBootGo, hmode, hstage]
  case badImage =>
    intro bs sig trained s hmode hstage himage
    show execBootGo (some bs) sig trained s = _
    simp [execBootGo, hmode, hstage, himage]
  case noPcie =>
    intro im sig trained s h
    show execBootGo im sig trained s = _
    rcases h with h | h <;> simp [execBootGo, h]
  case confirm =>
    intro s
    exact ⟨_, rfl, rfl, rfl, rfl, rfl⟩
  case roleB =>
    intro n s hmode hstage hn hcond himage
    show execRoleBWaitEnd n s = _
    simp [execRoleBWaitEnd, hmode, hstage, Nat.not_lt.2 hn, hcond, himage]
  case roleBReset =>
    intro n s c hmode hstage hn hcond hduty
    show execRoleBWaitEnd n s = _
    simp [execRoleBWaitEnd, hmode, hstage, Nat.not_lt.2 hn, hcond, hduty]
  case early =>
    intro n s hn
    show execRoleBWaitEnd n s = _
    simp [execRoleBWaitEnd, hn]

/-! ### Resets -/

/-- A chip reset writes the registers of the cause and of the count after all have taken their reset values. -/
theorem State.reg_chipReset_ne (s : State) (cause src : Nat) {a : Nat} (ha : a ∉ [R.SYS_RST_CAUSE, R.SYS_RST_CNT]) :
    (s.chipReset cause src).reg a = resetAt a := by
  simp only [List.mem_cons, List.not_mem_nil, or_false, not_or] at ha
  rw [State.chipReset, State.reg_wrN_ne _ _ ha.2, State.reg_wrN_ne _ _ ha.1]
  rfl

theorem State.rd_rstCnt_chipReset (s : State) (cause src : Nat) :
    (s.chipReset cause src).rd R.SYS_RST_CNT = min 0xFFFFFFFF (s.rd R.SYS_RST_CNT + 1) := by
  rw [State.chipReset, State.rd_wrN_self]
  omega

theorem State.rd_rstCause_chipReset (s : State) (cause src : Nat) : (s.chipReset cause src).rd R.SYS_RST_CAUSE =
    (if s.boot.stage = .reset ∧ s.mode = .boot then s.rd R.SYS_RST_CAUSE else cause + src % 256 * 256) % 2 ^ 32 := by
  rw [State.chipReset, State.rd_wrN_ne _ _ (by decide), State.rd_wrN_self]
  simp

/-- Registers at their reset values stand for BOOT. -/
theorem State.mode_of_regs_nil {s : State} (h : s.regs = []) : s.mode = .boot := by
  have hreset : s.mode = State.reset.mode := by simp [State.mode, State.fld, State.rd, State.reg, h, State.reset]
  rw [hreset]
  decide

/-- Settles O8: what each pin starts, and what the reset leaves of the state. -/
theorem pinsAndResets : Obligations.PinsAndResets := by
  unfold Obligations.PinsAndResets
  refine ⟨?powerOn, ?brownOut, ?resetLow, fun s => rfl, ?chipReset, ?inProgress, fun s => rfl, ?linkUp, ?linkUpBare,
    fun s => ⟨rfl, rfl, rfl, rfl, rfl, rfl, rfl⟩, ?tapReset, ?tapResetCut, fun s ir => rfl⟩
  case powerOn =>
    intro b r v s
    exact ⟨_, rfl, rfl, rfl, rfl, rfl, rfl, rfl, rfl, State.mode_of_regs_nil rfl, rfl, rfl⟩
  case brownOut =>
    intro s
    exact ⟨_, rfl, rfl, rfl, rfl, rfl, State.mode_of_regs_nil rfl, rfl⟩
  case resetLow =>
    intro s hlow
    show execResetNPin true s = _
    simp [execResetNPin, hlow]
  case chipReset =>
    intro s c src hmode
    refine ⟨?_, s.rd_rstCnt_chipReset c src, rfl, rfl, rfl, rfl, fun a => s.reg_chipReset_ne c src⟩
    rw [s.rd_rstCause_chipReset c src, if_neg (fun h => hmode h.2)]
  case inProgress =>
    intro s c src hmode hstage
    rw [s.rd_rstCause_chipReset c src, if_pos ⟨hstage, hmode⟩, Nat.mod_eq_of_lt (s.rd_lt _)]
  case linkUp =>
    intro s h
    show execPcieLinkUp s = _
    rcases h with h | h <;> simp [execPcieLinkUp, h]
  case linkUpBare =>
    intro s hup hfw hcommitted
    show execPcieLinkUp s = _
    simp [execPcieLinkUp, hup, hfw, hcommitted]
  case tapReset =>
    intro s h0 h3 h4
    show execJtagTapReset s = _
    simp [execJtagTapReset, cutsPins, h0, h3, h4]
  case tapResetCut =>
    intro s h
    show execJtagTapReset s = _
    simp [execJtagTapReset, cutsPins, h, or_assoc]

end Sys2Proof.Machine
end

section
/-!
PROOF. The Fault Collector (R457 to R468) and the die temperature (R614).
-/

namespace Sys2Proof.Machine

/-! ### What the Fault Collector changes -/

/-- `t` differs from `s` in the Fault Collector's own state and in registers outside `keep`, and in nothing else. -/
structure Collects (keep : Nat → Prop) (s t : State) : Prop where
  rest : t = { s with regs := t.regs, fc := t.fc }
  regs : ∀ a, keep a → t.reg a = s.reg a

section
variable {keep : Nat → Prop} {s t u : State}

theorem Collects.refl (keep : Nat → Prop) (s : State) : Collects keep s s := ⟨rfl, fun _ _ => rfl⟩

theorem Collects.trans (h : Collects keep s t) (k : Collects keep t u) : Collects keep s u :=
  ⟨by rw [k.rest, h.rest], fun a ha => (k.regs a ha).trans (h.regs a ha)⟩

theorem Collects.wrN (h : Collects keep s t) {a : Nat} (v : Nat) (ha : ¬ keep a) : Collects keep s (t.wrN a v) :=
  h.trans ⟨rfl, fun _ hb => State.reg_wrN_ne _ _ (fun e => ha (e ▸ hb))⟩

theorem Collects.setFld (h : Collects keep s t) {a : Nat} (f : Fld) (v : Nat) (ha : ¬ keep a) :
    Collects keep s (t.setFld a f v) := h.wrN _ ha

theorem Collects.setBitAt (h : Collects keep s t) {a : Nat} (k : Nat) (b : Bool) (ha : ¬ keep a) :
    Collects keep s (t.setBitAt a k b) := h.wrN _ ha

theorem Collects.setBit (h : Collects keep s t) {a : Nat} (f : Fld) (b : Bool) (ha : ¬ keep a) :
    Collects keep s (t.setBit a f b) := h.wrN _ ha

theorem Collects.count (h : Collects keep s t) {a : Nat} (ha : ¬ keep a) : Collects keep s (t.count a) := h.wrN _ ha

theorem Collects.fc (h : Collects keep s t) (x) : Collects keep s { t with fc := x } :=
  h.trans ⟨rfl, fun _ _ => rfl⟩

theorem Collects.ite {c : Prop} [Decidable c] (h : Collects keep s t) (k : Collects keep s u) :
    Collects keep s (if c then t else u) := by split <;> assumption

theorem Collects.foldl_wrN (h : Collects keep s t) (l : List Nat) (a : Nat → Nat) (v : Nat)
    (ha : ∀ w ∈ l, ¬ keep (a w)) : Collects keep s (l.foldl (fun (u : State) w => u.wrN (a w) v) t) := by
  induction l generalizing t with
  | nil => exact h
  | cons w l ih =>
    exact ih (h.wrN v (ha w (List.mem_cons_self ..))) (fun x hx => ha x (List.mem_cons_of_mem _ hx))

end

theorem Collects.pinSync (keep : Nat → Prop) (s : State) : Collects keep s s.pinSync := by
  unfold State.pinSync
  exact .ite ((Collects.refl keep s).fc _) (.refl keep s)

theorem Collects.deliverTrap (keep : Nat → Prop) (s : State) (f info : Nat) : Collects keep s (s.deliverTrap f info) := by
  unfold State.deliverTrap
  exact .ite (.refl keep s) ((Collects.refl keep s).fc _)

/-! ### The record (R465) -/

/-- The registers of the record, FAULT_STATUS and the flags among them. -/
def recordReg (a : Nat) : Prop := 0x40B00004 ≤ a ∧ a < 0x40B00080

theorem recordReg_map {f : Nat} (hf : f < 256) : recordReg (R.FAULT_REC_MAP (f / 32)) := by
  simp only [recordReg, R.FAULT_REC_MAP]
  omega

theorem recordReg_fixed : ∀ a ∈ [R.FAULT_STATUS, R.FAULT_REC_SRC, R.FAULT_REC_INFO, R.FAULT_REC_MSC_LO,
    R.FAULT_REC_MSC_HI, R.FAULT_REC_MERGE_CNT], recordReg a := by
  unfold recordReg
  decide

theorem Collects.recordEvent {keep : Nat → Prop} (hrec : ∀ a, recordReg a → ¬ keep a) {s t : State} (h : Collects keep s t)
    {f : Nat} (hf : f < 256) (info st react held : Nat) (sev : Bool) :
    Collects keep s (t.recordEvent f info st react held sev) := by
  have hr : ∀ a ∈ [R.FAULT_STATUS, R.FAULT_REC_SRC, R.FAULT_REC_INFO, R.FAULT_REC_MSC_LO, R.FAULT_REC_MSC_HI,
      R.FAULT_REC_MERGE_CNT], ¬ keep a := fun a ha => hrec a (recordReg_fixed a ha)
  have hmap : ∀ {g}, g < 256 → ¬ keep (R.FAULT_REC_MAP (g / 32)) := fun hg => hrec _ (recordReg_map hg)
  simp only [State.recordEvent, State.wr64]
  refine .ite (.fc (.foldl_wrN ?opened _ _ _ ?maps) _) (.ite (.setBit ?merged _ _ (hr _ (by simp))) ?merged)
  case maps =>
    intro w hw
    have hw8 := List.mem_range.1 hw
    exact hrec _ (by simp only [recordReg, R.FAULT_REC_MAP]; omega)
  case opened =>
    exact ((((((h.setBit _ _ (hr _ (by simp))).wrN _ (hr _ (by simp))).wrN _ (hr _ (by simp))).wrN _
      (hr _ (by simp))).wrN _ (hr _ (by simp))).wrN _ (hr _ (by simp)))
  case merged =>
    have hcount := h.wrN (a := R.FAULT_REC_MERGE_CNT) (min 65535 (t.rd R.FAULT_REC_MERGE_CNT + 1)) (hr _ (by simp))
    exact .ite hcount (hcount.setBitAt _ _ (hmap hf))

/-- A record that opens: what its registers read as. -/
theorem State.recordEvent_of_closed {s : State} (f info st react held : Nat) (sev : Bool)
    (hclosed : s.bit R.FAULT_STATUS F.FAULT_STATUS_REC_OPEN = false) :
    (s.recordEvent f info st react held sev).bit R.FAULT_STATUS F.FAULT_STATUS_REC_OPEN = true ∧
      (s.recordEvent f info st react held sev).rd R.FAULT_REC_SRC = (f + st * 2 ^ 8 + react * 2 ^ 16 + held * 2 ^ 24) % 2 ^ 32 ∧
      (s.recordEvent f info st react held sev).rd R.FAULT_REC_INFO = info % 2 ^ 32 ∧
      (s.recordEvent f info st react held sev).rd R.FAULT_REC_MERGE_CNT = 0 ∧
      (s.recordEvent f info st react held sev).rd R.FAULT_REC_MSC_LO = s.msc % 2 ^ 32 := by
  have hmaps : ∀ t : State, Collects (fun a => a < R.FAULT_REC_MAP 0)
      t ((List.range 8).foldl (fun (u : State) w => u.wrN (R.FAULT_REC_MAP w) 0) t) := fun t =>
    (Collects.refl _ t).foldl_wrN _ _ _ (fun w _ => by simp only [R.FAULT_REC_MAP]; omega)
  simp only [State.recordEvent, hclosed, Bool.not_false, if_true, State.wr64, State.rd_mk, State.bit_mk]
  refine ⟨?opened, ?src, ?info, ?merge, ?msc⟩
  case opened =>
    rw [State.bit_congr ((hmaps _).regs _ (by decide)), State.bit_congr (State.reg_wrN_ne _ _ (by decide)),
      State.bit_congr (State.reg_wrN_ne _ _ (by decide)), State.bit_congr (State.reg_wrN_ne _ _ (by decide)),
      State.bit_congr (State.reg_wrN_ne _ _ (by decide)), State.bit_congr (State.reg_wrN_ne _ _ (by decide)),
      State.bit_setBit _ _ _ _ rfl (by decide)]
  case src =>
    rw [State.rd_congr ((hmaps _).regs _ (by decide)), State.rd_wrN_ne _ _ (by decide), State.rd_wrN_ne _ _ (by decide),
      State.rd_wrN_ne _ _ (by decide), State.rd_wrN_ne _ _ (by decide), State.rd_wrN_self]
  case info =>
    rw [State.rd_congr ((hmaps _).regs _ (by decide)), State.rd_wrN_ne _ _ (by decide), State.rd_wrN_ne _ _ (by decide),
      State.rd_wrN_ne _ _ (by decide), State.rd_wrN_self]
  case merge =>
    rw [State.rd_congr ((hmaps _).regs _ (by decide)), State.rd_wrN_self, Nat.zero_mod]
  case msc =>
    rw [State.rd_congr ((hmaps _).regs _ (by decide)), State.rd_wrN_ne _ _ (by decide), State.rd_wrN_ne _ _ (by decide),
      State.rd_wrN_self, Nat.mod_mod]

/-! ### One event (R460) -/

/-- The state in which an event has been counted and its source raised, before severity, pending bit and record. -/
def State.raised (s : State) (f : Nat) : State :=
  let wc := min 255 (s.fld (R.FAULT_SRC_STAT f) F.FAULT_SRC_STAT_WCOUNT + 1)
  let st := if s.fld (R.FAULT_SRC_STAT f) F.FAULT_SRC_STAT_STATE = 2 || s.srcCfg f / 2 ^ 24 % 256 ≤ wc then 2 else 1
  (((s.count (R.FAULT_SRC_CNT f)).setFld (R.FAULT_SRC_STAT f) F.FAULT_SRC_STAT_WCOUNT wc).setFld (R.FAULT_SRC_STAT f)
    F.FAULT_SRC_STAT_STATE st).setBitAt (R.FAULT_RAISED (f / 32)) (f % 32) true

/-- The registers that an event writes after its count and its raised bit. -/
def eventReg (a : Nat) : Prop := recordReg a ∨ (0x40B00080 ≤ a ∧ a < 0x40B000A0) ∨ (0x40B000C0 ≤ a ∧ a < 0x40B000E0)

theorem State.collect_raised (s : State) {f : Nat} (unit detail : Nat) (hf : f < 256) {keep : Nat → Prop}
    (hkeep : ∀ a, eventReg a → ¬ keep a) : Collects keep (s.raised f) (s.collect f unit detail).1 := by
  have hrec : ∀ a, recordReg a → ¬ keep a := fun a ha => hkeep a (.inl ha)
  have hsevere : ¬ keep (R.FAULT_SEVERE (f / 32)) := hkeep _ (.inr (.inr (by simp only [R.FAULT_SEVERE]; omega)))
  have hpend : ¬ keep (R.FAULT_PEND (f / 32)) := hkeep _ (.inr (.inl (by simp only [R.FAULT_PEND]; omega)))
  have hflags : ¬ keep R.FAULT_FLAGS := hrec _ (by unfold recordReg; decide)
  unfold State.collect
  refine .trans ?_ (.pinSync keep _)
  refine .ite (.trans ?recorded (.deliverTrap keep _ _ _)) ?recorded
  case recorded =>
    refine .recordEvent hrec ?_ hf _ _ _ _ _
    refine .ite (.setFld ?pended _ _ hflags) ?pended
    case pended =>
      refine .ite (.setBitAt ?severed _ _ hpend) ?severed
      case severed => exact .ite (.setBitAt (.refl keep _) _ _ hsevere) (.refl keep _)

theorem State.raised_collects (s : State) {f : Nat} {keep : Nat → Prop}
    (hcnt : ¬ keep (R.FAULT_SRC_CNT f)) (hstat : ¬ keep (R.FAULT_SRC_STAT f)) (hraised : ¬ keep (R.FAULT_RAISED (f / 32))) :
    Collects keep s (s.raised f) :=
  ((((Collects.refl keep s).count hcnt).setFld _ _ hstat).setFld _ _ hstat).setBitAt _ _ hraised

theorem State.rd_cnt_raised (s : State) (f : Nat) :
    (s.raised f).rd (R.FAULT_SRC_CNT f) = min 0xFFFFFFFF (s.rd (R.FAULT_SRC_CNT f) + 1) := by
  have hraised : R.FAULT_SRC_CNT f ≠ R.FAULT_RAISED (f / 32) := by simp only [R.FAULT_SRC_CNT, R.FAULT_RAISED]; omega
  have hstat : R.FAULT_SRC_CNT f ≠ R.FAULT_SRC_STAT f := by simp only [R.FAULT_SRC_CNT, R.FAULT_SRC_STAT]; omega
  rw [State.raised, State.setBitAt, State.rd_setFld_ne _ _ _ hraised, State.rd_setFld_ne _ _ _ hstat,
    State.rd_setFld_ne _ _ _ hstat, State.rd_count]

theorem State.bitAt_setBitAt_true (s : State) (a : Nat) {k : Nat} (hk : k < 32) : (s.setBitAt a k true).bitAt a k = true := by
  have hput := Fld.of_put ⟨k, k⟩ (s.rd a) 1
  simp only [Fld.of, Fld.width, Nat.add_sub_cancel_left] at hput
  simpa [State.bitAt, State.rd_setBitAt _ _ _ _ hk] using hput

theorem State.collect_spec (s : State) {f : Nat} (unit detail : Nat) (hf : f < 256) :
    (s.collect f unit detail).1.rd (R.FAULT_SRC_CNT f) = min 0xFFFFFFFF (s.rd (R.FAULT_SRC_CNT f) + 1) ∧
      (s.collect f unit detail).1.bitAt (R.FAULT_RAISED (f / 32)) (f % 32) = true ∧
      Collects (fun a => a < 0x40B00000 ∨ 0x40C00000 ≤ a) s (s.collect f unit detail).1 := by
  refine ⟨?count, ?raised, ?frame⟩
  case count =>
    have hafter := s.collect_raised unit detail hf (keep := fun a => a = R.FAULT_SRC_CNT f)
      (fun a ha => by simp only [eventReg, recordReg, R.FAULT_SRC_CNT] at *; omega)
    rw [State.rd_congr (hafter.regs _ rfl), s.rd_cnt_raised]
  case raised =>
    have hafter := s.collect_raised unit detail hf (keep := fun a => a = R.FAULT_RAISED (f / 32))
      (fun a ha => by simp only [eventReg, recordReg, R.FAULT_RAISED] at *; omega)
    rw [State.bitAt, State.rd_congr (hafter.regs _ rfl)]
    exact State.bitAt_setBitAt_true _ _ (Nat.mod_lt _ (by decide))
  case frame =>
    have hafter := s.collect_raised unit detail hf (keep := fun a => a < 0x40B00000 ∨ 0x40C00000 ≤ a)
      (fun a ha => by simp only [eventReg, recordReg] at *; omega)
    refine (s.raised_collects ?_ ?_ ?_).trans hafter
    · simp only [R.FAULT_SRC_CNT]; omega
    · simp only [R.FAULT_SRC_STAT]; omega
    · simp only [R.FAULT_RAISED]; omega

/-! ### The die temperature (R614) -/

/-- A number of 16 bits read with its sign and written back. -/
theorem wrapN_toInt (t : BitVec 16) : wrapN 16 t.toInt = t.toNat := by
  rw [wrapN, ← BitVec.toNat_ofInt, BitVec.ofInt_toInt]

/-- A first reading shows itself as the highest so far. -/
def State.showTemp (s : State) (t : BitVec 16) : State :=
  { s.wrN R.SYS_DIE_TEMP (t.toNat + t.toNat * 2 ^ 16) with boot := { s.boot with tempRead := true } }

theorem exec_dieTempReading_first {t : BitVec 16} {s : State} (hread : s.boot.tempRead = false) (htop : t.toInt < 2000) :
    exec (.dieTempReading t) s =
      let v := s.showTemp t
      let warn := sext 16 (v.fld R.SYS_TEMP_LIM F.SYS_TEMP_LIM_WARN)
      .next (if warn ≤ t.toInt && !v.boot.warnRaised then
          ({ v with boot := { v.boot with warnRaised := true } } : State).raise FS.DIE_TEMP 0 0
        else if t.toInt < warn - (v.fld R.SYS_TEMP_LIM F.SYS_TEMP_LIM_HYST : Int) then
          { v with boot := { v.boot with warnRaised := false } }
        else v) := by
  show Host.Outcome.next (s.dieTemp t.toInt) = _
  simp only [State.dieTemp, hread, Bool.false_and, Bool.false_eq_true, if_false, wrapN_toInt, Int.not_le.2 htop]
  rfl

/-- Settles O9: the commands of the Fault Collector, the record that opens, and the frame of one event. -/
theorem faultCollector : Obligations.FaultCollector := by
  unfold Obligations.FaultCollector
  refine ⟨⟨?window, ?windowOpen, ?quiet, ?notQuiet, ?ack, fun v s => rfl, ?parity, ?readback, ?readLow, ?minLow, ?minNotYet,
    ?cool, ?warm⟩, ?collect, fun s f info st react held sev => State.recordEvent_of_closed f info st react held sev, ?reserved⟩
  case window =>
    intro f ms s hms hcount
    refine ⟨s.setFld (R.FAULT_SRC_STAT f) F.FAULT_SRC_STAT_WCOUNT 0, ?_,
      (OnlyRegs.refl _ s).setFld _ _ _ (List.mem_singleton_self _), s.rd_setFld _ _ _ (by decide)⟩
    show execFaultWindowClose f ms s = _
    simp [execFaultWindowClose, hms, hcount]
  case windowOpen =>
    intro f ms s hms
    show execFaultWindowClose f ms s = _
    simp [execFaultWindowClose, Nat.not_le.2 hms]
  case quiet =>
    intro f ms s hst hms
    refine ⟨_, ?_, rfl⟩
    show execFaultQuietExit f ms s = _
    simp [execFaultQuietExit, hst, hms]
  case notQuiet =>
    intro f ms s hms
    show execFaultQuietExit f ms s = _
    simp [execFaultQuietExit, Nat.not_le.2 hms]
  case ack =>
    intro s
    exact ⟨_, rfl, (OnlyRegs.refl _ s).setBit _ _ _ (List.mem_singleton_self _), s.rd_setBit _ _ _ (by decide)⟩
  case parity =>
    intro v f s hnamed
    refine ⟨_, ?_, rfl⟩
    show execFaultSwRaise v [f] s = _
    simp [execFaultSwRaise, hnamed, State.parityError]
  case readback =>
    rintro ms s u rfl hlow hms hraised
    show execFaultnReadback true ms s = _
    simp [execFaultnReadback, hlow, Nat.pos_iff_ne_zero.1 hms, hraised]
  case readLow =>
    rintro ms s u rfl hlow hms
    show execFaultnReadback false ms s = _
    simp [execFaultnReadback, hlow, Nat.pos_iff_ne_zero.1 hms]
  case minLow =>
    intro ms s hms hmin
    show execFaultnMinLowEnd ms s = _
    simp [execFaultnMinLowEnd, hms, hmin]
  case minNotYet =>
    intro ms s hms
    show execFaultnMinLowEnd ms s = _
    simp [execFaultnMinLowEnd, Nat.not_le.2 hms]
  case cool =>
    intro t s hread hraised htop hwarn
    have hlim : (s.showTemp t).fld R.SYS_TEMP_LIM F.SYS_TEMP_LIM_WARN = s.fld R.SYS_TEMP_LIM F.SYS_TEMP_LIM_WARN :=
      State.fld_congr (s.reg_wrN_ne _ (by decide)) _
    have hshown : (s.showTemp t).rd R.SYS_DIE_TEMP = t.toNat + t.toNat * 2 ^ 16 := by
      refine (s.rd_wrN_self _ _).trans (Nat.mod_eq_of_lt ?_)
      have := t.isLt
      omega
    have hframe : RegsBut [R.SYS_DIE_TEMP] s (s.showTemp t) := s.regsBut_wrN _ _
    have hexec := exec_dieTempReading_first hread htop
    simp only [hlim, Int.not_le.2 hwarn, decide_false, Bool.false_and, Bool.false_eq_true, if_false] at hexec
    refine ⟨_, hexec, ?_⟩
    split
    · exact ⟨hshown, hframe, rfl, rfl, rfl⟩
    · exact ⟨hshown, hframe, rfl, hraised, rfl⟩
  case warm =>
    intro t s hread hraised htop
    refine ⟨_, s.showTemp t, rfl, rfl, fun hwarn => ?_⟩
    have hquiet : (s.showTemp t).boot.warnRaised = false := hraised
    rw [exec_dieTempReading_first hread htop]
    simp [hwarn, hquiet]
  case collect =>
    intro s f unit detail hf
    obtain ⟨hcount, hraised, hframe⟩ := s.collect_spec unit detail hf
    exact ⟨_, rfl, hcount, hraised, hframe.rest, hframe.regs⟩
  case reserved =>
    intro s f unit detail hnamed
    simp [State.raise, hnamed]

end Sys2Proof.Machine
end

section
/-!
PROOF. The bus: writes to registers and aliases, REMAP, the access classes of registers, reads of latched pairs and of SRAM, and
accesses that time out (R40 to R45, R61, R508 to R524, R541, R551, R552).
-/

namespace Sys2Proof.Machine

/-! ### Writes -/

/-- The word that aliases a bit of the SYS control page (R44). -/
theorem State.targetFor_alias {m : Master} (s : State) {i : Nat} (hi : i < 32768) (h0 : m ≠ .bar0) (h2 : m ≠ .bar2) :
    s.targetFor m (0x41000000 + 4 * i) = .alias_ (0x40000000 + 4 * (i / 32)) (i % 32) := by
  have htarget : s.targetFor m (0x41000000 + 4 * i) = s.target (0x41000000 + 4 * i) := by cases m <;> trivial
  have hindex : (0x41000000 + 4 * i - 0x41000000) / 4 = i := by omega
  rw [htarget, State.target, if_neg (by omega), if_neg (by simp; omega), if_neg (by simp; omega), if_neg (by simp; omega),
    if_pos (by simp; omega)]
  simp only [hindex]

/-- SYS_REMAP is a lock: what a whole write leaves of it. -/
theorem State.writeReg_remap (s : State) (v : Nat) (m : Master) (addr : Nat) :
    s.writeReg R.SYS_REMAP v 0xFFFFFFFF m addr 0 =
      if s.rd R.SYS_REMAP % 2 = 1 && v % 2 = 0 then s.violate addr m 0
      else s.wrN R.SYS_REMAP (s.rd R.SYS_REMAP ||| v % 2) := rfl

/-- Settles O10: the target of the write decides, then the class of its register. -/
theorem busWrites : Obligations.BusWrites := by
  unfold Obligations.BusWrites
  refine ⟨?reg, ?unmapped, ?locked, ?aliasWrite, ?aliasRead, ?remap⟩
  case reg =>
    intro m addr v en hw s a ht hlock hsolo
    refine ⟨_, ?_, rfl⟩
    rw [exec_registerWrite_eq, State.busWrite_reg ht hlock hsolo]
    rfl
  case unmapped =>
    intro m addr v en hw s ht
    refine ⟨_, ?_, rfl⟩
    rw [exec_registerWrite_eq, State.busWrite_unmapped ht]
    rfl
  case locked =>
    intro addr v en hw s ht hlock
    refine ⟨_, ?_, rfl⟩
    rw [exec_registerWrite_eq, State.busWrite_viewLocked ht hlock]
    rfl
  case aliasWrite =>
    intro m i v s r h0 h2 hsolo hrow honce
    have haligned : (0x41000000 + 4 * i.val) / 4 * 4 = 0x41000000 + 4 * i.val := by omega
    refine ⟨_, ?_, rfl⟩
    show (let w := s.busWrite m (0x41000000 + 4 * i.val) v.toNat 0xFFFFFFFF 0; Host.Outcome.next (w.1.busDone w.2)) = _
    have ht : s.targetFor m ((0x41000000 + 4 * i.val) / 4 * 4) = .alias_ (0x40000000 + 4 * (i.val / 32)) (i.val % 32) := by
      rw [haligned, s.targetFor_alias i.isLt h0 h2]
    rw [State.busWrite_of_solo ht (by simp) (fun hm => absurd hm h0) hsolo, haligned]
    simp only [State.putTarget, hrow, honce, decide_false, Bool.false_and, Bool.false_eq_true, if_false]
    rfl
  case aliasRead =>
    intro m i s h0 h2
    have haligned : (0x41000000 + 4 * i.val) / 4 * 4 = 0x41000000 + 4 * i.val := by omega
    show Host.Outcome.next (State.busAnswer (s.busRead m (0x41000000 + 4 * i.val))) = _
    rw [State.busRead, haligned, s.targetFor_alias i.isLt h0 h2]
  case remap =>
    intro m v s ht hlock hsolo
    have hexec : exec (.remapWrite m v) s =
        .next ((s.writeReg R.SYS_REMAP v.toNat 0xFFFFFFFF m (m.regAddr R.SYS_REMAP) 0).busDone false) :=
      congrArg Host.Outcome.next (State.writeAs_of_solo _ (by decide) ht hlock hsolo)
    rw [State.writeReg_remap] at hexec
    refine ⟨fun hset => ⟨_, ?_, rfl⟩, fun hclear hlocked => ⟨_, ?_, rfl⟩⟩
    · rw [hexec, if_neg (by simp; omega)]
      rfl
    · rw [hexec, if_pos (by simp [hclear, hlocked])]
      rfl

/-! ### Access classes -/

@[simp] theorem State.shadowOf_setShadow (s : State) (a : Nat) (v : Word) : (s.setShadow a v).shadowOf a = v := by
  simp [State.shadowOf, State.setShadow]

theorem State.or_lock_bit {x : Nat} (v : Nat) (hv : v % 2 = 1) : x ||| v % 2 = x ||| 1 := by rw [hv]

/-- Settles O11: the branch of each access class. -/
theorem registerClasses : Obligations.RegisterClasses := by
  unfold Obligations.RegisterClasses
  intro s a r v msk m addr hw hrow
  refine ⟨?ro, ?w1c, ?locked, ?locks, ?staged, fun kind => rfl⟩
  case ro =>
    intro hacc
    simp only [State.writeReg, hrow, hacc]
  case w1c =>
    intro hacc
    simp only [State.writeReg, hrow, hacc]
  case locked =>
    intro hacc hmsk hset hv
    simp [State.writeReg, hrow, hacc, hmsk, hset, hv]
  case locks =>
    intro hacc hmsk hv
    simp [State.writeReg, hrow, hacc, hmsk, hv]
  case staged =>
    intro hacc
    simp only [State.writeReg, hrow, hacc, State.shadowOf_setShadow, and_true]
    rfl

/-! ### Reads -/

theorem State.busRead_mscLo {s : State} {m : Master} {addr : Nat} (ht : s.targetFor m (addr / 4 * 4) = .reg R.SCHED_MSC_LO) :
    s.busRead m addr = (s.latchHi R.SCHED_MSC_LO (BitVec.ofNat 32 (s.msc / 2 ^ 32 % 2 ^ 32)),
      BitVec.ofNat 32 (s.msc % 2 ^ 32), false) := by
  rw [State.busRead, ht]
  rfl

theorem State.busRead_mscHi {s : State} {m : Master} {addr : Nat} {v : Word}
    (ht : s.targetFor m (addr / 4 * 4) = .reg R.SCHED_MSC_HI) (hlatch : s.latchOf R.SCHED_MSC_LO = some v) :
    s.busRead m addr = (s.dropLatch R.SCHED_MSC_LO, v, false) := by
  have hread : s.readReg R.SCHED_MSC_HI m = (s.dropLatch R.SCHED_MSC_LO,
      (match s.latchOf R.SCHED_MSC_LO with | some v => v | none => s.view R.SCHED_MSC_HI), false) := rfl
  rw [State.busRead, ht]
  show s.readReg R.SCHED_MSC_HI m = _
  rw [hread, hlatch]

theorem State.busRead_sram {s : State} {m : Master} {addr o : Nat} (ht : s.targetFor m (addr / 4 * 4) = .sram o)
    (hgood : s.poisoned 1 o = false) : s.busRead m addr = (s, s.memWord 1 o, false) := by
  rw [State.busRead, ht]
  show s.memRead 1 o m = _
  rw [State.memRead, hgood]
  rfl

/-! ### Bytes of SRAM -/

/-- A byte enable covers its eight bits. -/
theorem enableMask_byte (en : BitVec 4) (j : Fin 4) :
    enableMask en.toNat / 256 ^ j.val % 256 = 0 ↔ en.getLsbD j.val = false := by
  revert en j
  decide

/-- SRAM with bytes `v` put at the offsets from `o` on that `en` enables. -/
def sramPut (en : BitVec 4) (o v n : Nat) (sram : Sparse Byte) : Sparse Byte :=
  (List.range n).foldl (fun t j => if en.getLsbD j = true then Sparse.set zeroByte t (o + j) (BitVec.ofNat 8 (v / 256 ^ j))
    else t) sram

theorem get_sramPut (en : BitVec 4) (o v n : Nat) (sram : Sparse Byte) (x : Nat) :
    Sparse.get zeroByte (sramPut en o v n sram) x = if o ≤ x ∧ x < o + n ∧ en.getLsbD (x - o) = true then
      BitVec.ofNat 8 (v / 256 ^ (x - o)) else Sparse.get zeroByte sram x := by
  induction n with
  | zero =>
    rw [if_neg (by omega)]
    rfl
  | succ n ih =>
    rw [sramPut, List.range_succ, List.foldl_append, List.foldl_cons, List.foldl_nil, ← sramPut]
    by_cases hlast : x = o + n
    · subst hlast
      by_cases hen : en.getLsbD n = true
      · simp [hen]
      · simp [hen, ih]
    · have hrange : (o ≤ x ∧ x < o + (n + 1) ∧ en.getLsbD (x - o) = true) ↔
          (o ≤ x ∧ x < o + n ∧ en.getLsbD (x - o) = true) := by
        refine and_congr_right fun _ => and_congr_left fun _ => ?_
        omega
      by_cases hen : en.getLsbD n = true
      · rw [if_pos hen, Sparse.get_set_other _ _ _ _ _ hlast, ih]
        simp only [hrange]
      · rw [if_neg hen, ih]
        simp only [hrange]

theorem State.memWrite_sram (s : State) (en : BitVec 4) (o v : Nat) :
    s.memWrite 1 o v (enableMask en.toNat) = { s with mem := { s.mem with sram := sramPut en o v 4 s.mem.sram } } := by
  have hbyte : ∀ (t : State) (j : Fin 4), (if enableMask en.toNat / 256 ^ j.val % 256 = 0 then t
      else t.memPut 1 (o + j.val) (BitVec.ofNat 8 (v / 256 ^ j.val))) = { t with mem := { t.mem with sram :=
        (if en.getLsbD j.val = true then Sparse.set zeroByte t.mem.sram (o + j.val) (BitVec.ofNat 8 (v / 256 ^ j.val))
          else t.mem.sram) } } := by
    intro t j
    simp only [enableMask_byte]
    cases en.getLsbD j.val <;> rfl
  have h0 := fun t => hbyte t 0
  have h1 := fun t => hbyte t 1
  have h2 := fun t => hbyte t 2
  have h3 := fun t => hbyte t 3
  simp only [Fin.val_zero, Fin.val_one, Fin.val_two, show (3 : Fin 4).val = 3 from rfl] at h0 h1 h2 h3
  simp only [State.memWrite, sramPut, show List.range 4 = [0, 1, 2, 3] from rfl, List.foldl_cons, List.foldl_nil,
    h0, h1, h2, h3]

/-- A write to SRAM is carried to no partner (R437): it acts in every state that the view allows. -/
theorem State.busWrite_sram {s : State} {m : Master} {addr v msk hw o : Nat} (ht : s.targetFor m (addr / 4 * 4) = .sram o)
    (hlock : s.MayWrite m) : s.busWrite m addr v msk hw = (s.memWrite 1 o v msk, false) := by
  have hro : (decide (m = .bar0) && s.bit R.SYS_VIEW_LOCK F.SYS_VIEW_LOCK_BAR0_RO) = false := by
    by_cases hm : m = .bar0
    · simp [hlock hm]
    · simp [hm]
  simp [State.busWrite, ht, hro, Target.copied, State.putTarget, Target.mem]

/-- Settles O13: the pair of MSC, a word of SRAM both ways, an access without an answer, and ALARM_MSG_DRAM. -/
theorem busReads : Obligations.BusReads := by
  unfold Obligations.BusReads
  refine ⟨?low, ?high, ?sramRead, ?sramWrite, fun m addr s took => ⟨_, rfl, rfl⟩, ?msgDram⟩
  case low =>
    intro m addr s ht
    exact congrArg (fun r => Host.Outcome.next (State.busAnswer r)) (State.busRead_mscLo ht)
  case high =>
    intro m addr s v ht hlatch
    exact congrArg (fun r => Host.Outcome.next (State.busAnswer r)) (State.busRead_mscHi ht hlatch)
  case sramRead =>
    intro m addr s o ht hgood
    exact congrArg (fun r => Host.Outcome.next (State.busAnswer r)) (State.busRead_sram ht hgood)
  case sramWrite =>
    intro m addr v en hw s o ht hlock
    have hexec := exec_registerWrite_eq m addr v en hw s
    rw [State.busWrite_sram ht hlock, State.memWrite_sram] at hexec
    exact ⟨_, hexec, get_sramPut en o v.toNat 4 s.mem.sram, rfl⟩
  case msgDram =>
    intro m v s ht hlock hsolo hfree
    refine ⟨_, ?_, rfl⟩
    show Host.Outcome.next (s.writeAs m R.ALARM_MSG_DRAM v.toNat) = _
    rw [State.writeAs_of_solo _ (by decide) ht hlock hsolo, State.writeReg_once_fresh regSpec?_msgDram rfl hfree]
    rfl

end Sys2Proof.Machine
end

section
/-!
PROOF. The memories and what watches them: scrubbers, retraining, the FRESH counter (R527, R544, R545, R556), the Configuration
Check Unit (R528 to R531) and Drover (R561 to R572).
-/

namespace Sys2Proof.Machine

/-! ### Scrubbers and DRAM -/

theorem State.dramFail_eq (s : State) : s.dramFail = ((s.setBit R.SYS_DRAM_STAT F.SYS_DRAM_STAT_FAIL true).setFld
    R.SYS_DRAM_STAT F.SYS_DRAM_STAT_USABLE 0).raise FS.DRAM_FAIL 0 0 := rfl

/-- A word of SRAM under the scrubber: poisoned when it is uncorrectable, and its ECC result counted, recorded and raised. -/
theorem State.scrubWord_sram (s : State) (i : Nat) (ue : Bool) : s.scrubWord (.mem 1 i) ue =
    (if ue && !s.mem.poison.contains (1, i) then
      { s with mem := { s.mem with poison := (1, i) :: s.mem.poison } } else s).eccResult 1 scrubber false
        (BitVec.ofNat 32 (8 * i)) ue (some (memFault 1 ue)) 0 := by
  simp only [State.scrubWord, show ((1 : Fin 12) : Nat) = 1 from rfl, show memAddrOf 1 (8 * i) = 8 * i from rfl]
  rfl

/-- What an ECC result outside DRAM with a fault source leaves before the source is raised. -/
def State.eccKept (s : State) (mem master : Nat) (addr : Word) (ue : Bool) : State :=
  (((s.count (if ue then R.SYS_ECC_UE_CNT else R.SYS_ECC_CE_CNT)).wr R.SYS_ECC_ADDR addr).wrN R.SYS_ECC_INFO
    ((if ue then 2 ^ 31 else 0) + 0 + master % 16 * 2 ^ 16 + mem % 16)).flag R.SYS_MEMFLAGS
      (if ue then F.SYS_MEMFLAGS_UE else F.SYS_MEMFLAGS_CE)

theorem State.eccResult_eq (s : State) (mem master : Nat) (addr : Word) (ue : Bool) (f unit : Nat) :
    s.eccResult mem master false addr ue (some f) unit = (s.eccKept mem master addr ue).raise f unit 0 := by
  simp only [State.eccResult, State.eccKept, Bool.false_eq_true, if_false]

theorem State.scrubWord_sram_ce (s : State) (i : Nat) : s.scrubWord (.mem 1 i) false =
    (s.eccKept 1 7 (BitVec.ofNat 32 (8 * i)) false).raise FS.SRAM_ECC_CE 0 0 := by
  rw [State.scrubWord_sram, Bool.false_and, if_neg Bool.false_ne_true, State.eccResult_eq,
    show memFault 1 false = FS.SRAM_ECC_CE from rfl, scrubber]

theorem State.scrubWord_sram_ue {s : State} {i : Nat} (h : s.mem.poison.contains (1, i) = false) :
    s.scrubWord (.mem 1 i) true = (({ s with mem := { s.mem with poison := (1, i) :: s.mem.poison } } : State).eccKept 1 7
      (BitVec.ofNat 32 (8 * i)) true).raise FS.SRAM_ECC_UE 0 0 := by
  rw [State.scrubWord_sram, h, Bool.not_false, Bool.and_self, if_pos rfl, State.eccResult_eq,
    show memFault 1 true = FS.SRAM_ECC_UE from rfl, scrubber]

theorem exec_scrubLine_one (w : ScrubWord) (ue : Bool) (s : State) :
    exec (.scrubLine [(w, ue)] false) s = .next (s.scrubWord w ue) := rfl

/-- Settles O14: a word of SRAM with either ECC result, the failure of DRAM, and the two steps of FRESH. -/
theorem memoryService : Obligations.MemoryService := by
  unfold Obligations.MemoryService
  refine ⟨fun s => rfl, ?correctable, ?uncorrectable, ?fails, fun s => rfl, ?request, ?done, ?early⟩
  case correctable =>
    intro i s
    exact ⟨_, (exec_scrubLine_one _ _ s).trans (congrArg Host.Outcome.next (s.scrubWord_sram_ce i)), by
      simp only [State.eccKept, Bool.false_eq_true, if_false]⟩
  case uncorrectable =>
    intro i s hclean
    exact ⟨_, _, (exec_scrubLine_one _ _ s).trans (congrArg Host.Outcome.next (State.scrubWord_sram_ue hclean)), rfl, by
      simp only [State.eccKept, if_true]⟩
  case fails =>
    intro s htrained hok
    refine ⟨(s.setBit R.SYS_DRAM_STAT F.SYS_DRAM_STAT_FAIL true).setFld R.SYS_DRAM_STAT F.SYS_DRAM_STAT_USABLE 0, ?_,
      ((OnlyRegs.refl _ s).setBit _ _ _ (by decide)).setFld _ _ _ (by decide), ?_⟩
    · show execDramRetrain false s = _
      simp only [execDramRetrain, htrained, hok, Bool.not_false, Bool.and_self, if_true, State.dramFail_eq]
    · rw [State.rd_setFld _ _ _ _ (by decide), State.rd_setBit _ _ _ _ (by decide)]
      rfl
  case request =>
    intro s
    exact ⟨_, rfl, rfl, fun a ha => State.reg_setFld_ne _ _ _ (List.ne_of_not_mem_cons ha),
      State.rd_setBit _ _ _ _ (by decide), rfl⟩
  case done =>
    intro n s hleft hn
    refine ⟨({ s with boot := { s.boot with freshLeft := 0 } } : State).setBit R.SYS_FRESH F.SYS_FRESH_DONE true, ?_, rfl,
      fun a ha => State.reg_setFld_ne _ _ _ (List.ne_of_not_mem_cons ha), State.rd_setBit _ _ _ _ (by decide), rfl⟩
    show execFreshDone n s = _
    simp [execFreshDone, hleft, hn]
  case early =>
    intro n s hn
    show execFreshDone n s = _
    simp [execFreshDone, Nat.not_le.2 hn]

/-! ### The Configuration Check Unit -/

/-- The end of a pass over the programs of the Needle cores, the region 1, with the CRC that was read. -/
theorem exec_ccuPassEnd_programs (w : Word) (s : State) :
    exec (.ccuPassEnd 1 (some w) []) s =
      let u := s.wr (R.CCU_LAST 1) w
      .next (State.beginPass (
        if u.ccuAdopt 1 && u.ccu.adopting.getD 1 false && !u.ccu.changed.getD 1 true then
          ((((u.setCcuState 1 1).setCcuAdopt 1 false).setCcuDeadline 1 noDeadline).wr (R.CCU_ACT_REF 1) w).flag R.CCU_FLAGS
            F.CCU_FLAGS_ADOPTED
        else if u.ccuState 1 = 1 && u.ccu.whole.getD 1 false && w ≠ u.reg (R.CCU_ACT_REF 1) then
          ((u.flag R.CCU_FLAGS F.CCU_FLAGS_MISMATCH).count R.CCU_MISM_CNT).raise FS.CCU_MISMATCH 1 0
        else u) 1) := by
  show execCcuPassEnd 1 (some w) [] s = _
  simp [execCcuPassEnd]

/-- Settles O15: the commits region by region, the three ends of a pass, and the deadline. -/
theorem configurationCheck : Obligations.ConfigurationCheck := by
  unfold Obligations.ConfigurationCheck
  refine ⟨fun s => ⟨_, rfl, rfl⟩, fun s => ⟨_, rfl, rfl⟩, fun m s => ⟨rfl, rfl⟩, ?mismatch, ?agrees, ?adopts, ?deadline, ?noDeadline⟩
  case mismatch =>
    rintro s u w rfl hadopt hchecked hwhole hne
    rw [exec_ccuPassEnd_programs]
    simp only [hadopt, hchecked, hwhole, hne, Bool.false_and, Bool.false_eq_true, if_false, decide_true, Bool.and_self,
      ne_eq, not_false_eq_true, if_true]
  case agrees =>
    rintro s u w rfl hadopt heq
    rw [exec_ccuPassEnd_programs]
    simp only [hadopt, ← heq, Bool.false_and, Bool.false_eq_true, if_false, ne_eq, not_true_eq_false, decide_false,
      Bool.and_false]
  case adopts =>
    rintro s u w rfl hadopt hadopting hchanged
    rw [exec_ccuPassEnd_programs]
    simp only [hadopt, hadopting, hchanged, Bool.not_false, Bool.and_self, if_true]
  case deadline =>
    intro r s hgrace hadopt hdue honce
    refine ⟨_, ?_, rfl⟩
    show execCcuDeadline r s = _
    simp only [execCcuDeadline, hgrace, hadopt, hdue, honce, decide_true, Bool.not_false, Bool.and_self, if_true]
  case noDeadline =>
    intro r s h
    show execCcuDeadline r s = _
    rcases h with h | h | h
    · simp [execCcuDeadline, h]
    · simp [execCcuDeadline, h]
    · simp [execCcuDeadline, Nat.not_le.2 h]

/-! ### Commands of a Drover channel -/

/-- The row of DROVER_CH_CMD. -/
def drvCmdRow : RegSpec := (regSpec? (R.DROVER_CH_CMD 0)).getD ⟨0, 0, 0, 0, 0, .ro, 0, 0, 0, false, false⟩

theorem regSpec?_drvCmd (c : Fin 16) : regSpec? (R.DROVER_CH_CMD c) = some drvCmdRow := by
  revert c
  decide

theorem index_drvCmd (c : Fin 16) : (drvCmdRow.index (R.DROVER_CH_CMD c)).1 = c.val := by
  revert c
  decide

theorem State.targetFor_drvCmd (s : State) (c : Fin 16) :
    s.targetFor .shepherd (Master.regAddr .shepherd (R.DROVER_CH_CMD c)) = .reg (R.DROVER_CH_CMD c) := by
  have hreg : s.target (R.DROVER_CH_CMD c) = regTarget (R.DROVER_CH_CMD c) true := by
    have ha : 0x40D00000 ≤ R.DROVER_CH_CMD c ∧ R.DROVER_CH_CMD c < 0x40E00000 := by
      revert c
      decide
    rw [State.target, if_neg (by omega), if_neg (by simp; omega), if_neg (by simp; omega), if_pos (by simp; omega)]
  show s.target (R.DROVER_CH_CMD c) = _
  rw [hreg, regTarget, regSpec?_drvCmd]
  rfl

theorem State.woWrite_drvCmd (s : State) (i j v msk : Nat) (m : Master) (addr : Nat) :
    s.woWrite drvCmdRow.addr i j v msk m addr = if droverShut i m then s.flag R.DROVER_FLAGS F.DROVER_FLAGS_CH15_IGN
      else if msk % 2 = 1 then s.droverCmd i (v &&& msk) else s := by
  show (if droverShut i m then _ else if decide (msk % 2 = 1) = true then _ else _) = _
  simp only [decide_eq_true_eq]

/-- Shepherd's write of a command acts in every channel, the one kept for it included (R571). -/
theorem State.writeAs_drvCmd {s : State} (c : Fin 16) (v : Nat) (hsolo : s.paired = false) :
    s.writeAs .shepherd (R.DROVER_CH_CMD c) v = (s.droverCmd c (v &&& 0xFFFFFFFF)).busDone false := by
  have haligned : R.DROVER_CH_CMD c % 4 = 0 := by
    revert c
    decide
  have hshut : droverShut c .shepherd = false := by simp [droverShut]
  have hwrite : s.writeReg (R.DROVER_CH_CMD c) v 0xFFFFFFFF .shepherd (Master.regAddr .shepherd (R.DROVER_CH_CMD c)) 0 =
      s.woWrite drvCmdRow.addr (drvCmdRow.index (R.DROVER_CH_CMD c)).1 (drvCmdRow.index (R.DROVER_CH_CMD c)).2 v 0xFFFFFFFF
        .shepherd (Master.regAddr .shepherd (R.DROVER_CH_CMD c)) := by
    simp only [State.writeReg, regSpec?_drvCmd, show drvCmdRow.acc = .wo from rfl]
  rw [State.writeAs_of_solo v haligned (s.targetFor_drvCmd c) (fun h => by cases h) hsolo, hwrite, index_drvCmd,
    State.woWrite_drvCmd, hshut]
  rfl

@[simp] theorem State.drv_setDrv (s : State) (c : Nat) (x : DroverCh) : (s.setDrv c x).drv c = x := by
  simp [State.drv, State.setDrv]

/-! ### Descriptors in host memory -/

/-- The four halves of a descriptor lie in the space in which its first and its last word lie. -/
theorem spaceOf_add {a i : Nat} (ha : spaceOf a = 2) (hlast : spaceOf (a + 24) = 2) (hi : i ≤ 24) :
    spaceOf (a + i) = 2 ∧ offsetOf (a + i) = offsetOf a + i := by
  simp only [spaceOf, offsetOf] at *
  omega

theorem State.drvRead_host (s : State) {a n : Nat} (host : Nat → Byte) (ha : spaceOf a = 2) :
    s.drvRead a n host = (s, ofLe ((List.range n).map (fun j => (host (offsetOf a + j)).toNat)), none) := by
  simp only [State.drvRead, ha, if_true]

section
variable {s : State} {c : Fin 16}

/-- The channel fetches: it runs, its last descriptor has moved, no abort waits and its budget is not used up. -/
def State.fetches (s : State) (c : Fin 16) : Prop := s.drvState c = 1 ∧ (s.drv c).desc = none ∧ (s.drv c).abort = false ∧
  (s.drv c).fetched < s.fld (R.DROVER_CH_CFG c) F.DROVER_CH_CFG_BUDGET

theorem exec_descriptorFetch_misaligned (host : List Byte) (h : s.fetches c) (hnext : (s.drv c).next % 32 ≠ 0) :
    exec (.descriptorFetch c host) s = .next (s.drvDescError c) := by
  obtain ⟨hrun, hdesc, habort, hbudget⟩ := h
  show execDescriptorFetch c host s = _
  simp [execDescriptorFetch, hrun, hdesc, habort, Nat.not_le.2 hbudget, hnext]

/-- The five parts of the descriptor are read one after another, each little-endian, and put together. -/
theorem exec_descriptorFetch_host (host : List Byte) (h : s.fetches c) (hnext : (s.drv c).next % 32 = 0)
    (hspace : spaceOf (s.drv c).next = 2) (hlast : spaceOf ((s.drv c).next + 24) = 2)
    (hend : offsetOf (s.drv c).next + 32 ≤ 2 ^ 62) :
    exec (.descriptorFetch c host) s =
      let o := offsetOf (s.drv c).next
      let part (i n : Nat) : Nat := ofLe ((List.range n).map (fun j => (s.hostBytes o host (o + i + j)).toNat))
      let d : Desc := (part 0 4, part 4 4, part 8 8, part 16 8, part 24 8)
      let u := ((s.wr64 (R.DROVER_CH_CUR_LO c) (R.DROVER_CH_CUR_HI c) (s.drv c).next).bump).setDrv c
        { s.drv c with fetched := (s.drv c).fetched + 1 }
      .next (if u.descError c d then u.drvDescError c else u.setDrv c { u.drv c with desc := some d }) := by
  obtain ⟨hrun, hdesc, habort, hbudget⟩ := h
  have hrange : s.rangeBad c (s.drv c).next 32 = false := by
    simp only [State.rangeBad, hspace, decide_eq_false_iff_not]
    omega
  have hpart : ∀ i ≤ 24, spaceOf ((s.drv c).next + i) = 2 ∧ offsetOf ((s.drv c).next + i) = offsetOf (s.drv c).next + i :=
    fun i hi => spaceOf_add hspace hlast hi
  have h0 := hpart 0 (by decide)
  have h4 := hpart 4 (by decide)
  have h8 := hpart 8 (by decide)
  have h16 := hpart 16 (by decide)
  have h24 := hpart 24 (by decide)
  show execDescriptorFetch c host s = _
  simp only [execDescriptorFetch, hrun, hdesc, habort, Nat.not_le.2 hbudget, hnext, hrange, State.drvRead_host _ _ h0.1,
    State.drvRead_host _ _ h4.1, State.drvRead_host _ _ h8.1, State.drvRead_host _ _ h16.1, State.drvRead_host _ _ h24.1,
    h0.2, h4.2, h8.2, h16.2, h24.2, ne_eq, not_true_eq_false, decide_false, Option.isSome_none, Bool.or_self,
    Bool.false_eq_true, if_false, List.nil_append, List.cons_append, apply_ite Host.Outcome.next]

theorem exec_descriptorComplete_last {host : List Byte} {conf : List (Fin 65536)} {d : Desc} {u : State}
    (hdesc : (s.drv c).desc = some d) (hrun : s.drvState c = 1)
    (hmove : s.drvMove c d (Desc.count d) (s.hostBytes (offsetOf (Desc.src d)) host) (conf.map (·.val)) = (u, none))
    (hdst : spaceOf (Desc.dst d) = 2) (hirq : Desc.irq d = false)
    (hruns : (u.bump.count (R.DROVER_CH_DESC_CNT c)).drvState c = 1) (hnext : Desc.next d = 0) :
    exec (.descriptorComplete c host conf) s = .next ((u.bump.count (R.DROVER_CH_DESC_CNT c)).drvEnter c 2 0) := by
  show execDescriptorComplete c host conf s = _
  simp [execDescriptorComplete, hdesc, hrun, hmove, hdst, hirq, hruns, hnext]

end

/-- Settles O16: the commands, the fetch in its cases, the completion of the last descriptor, and the holding register. -/
theorem droverCommands : Obligations.DroverCommands := by
  unfold Obligations.DroverCommands
  refine ⟨?start, ?abort, ?budget, ?misaligned, ?fetch, ?complete, ?idle, ?busError, ?noneRuns, ?same, ?above, ?below⟩
  case start =>
    intro c s hsolo hstopped
    refine ⟨_, ?_, rfl⟩
    show Host.Outcome.next (s.writeAs .shepherd (R.DROVER_CH_CMD c) 1) = _
    rw [State.writeAs_drvCmd c 1 hsolo]
    show Host.Outcome.next ((s.droverStart c).busDone false) = _
    rw [State.droverStart, if_neg hstopped]
    rfl
  case abort =>
    rintro c n host s u hsolo hrun rfl
    have hwrite : s.writeAs .shepherd (R.DROVER_CH_CMD c) 2 = (s.setDrv c { s.drv c with abort := true }).busDone false := by
      rw [State.writeAs_drvCmd c 2 hsolo]
      show (s.droverAbort c).busDone false = _
      rw [State.droverAbort, if_pos hrun]
    have hruns : ((s.setDrv c { s.drv c with abort := true }).busDone false).drvState c = 1 := hrun
    have habort : (((s.setDrv c { s.drv c with abort := true }).busDone false).drv c).abort = true :=
      congrArg DroverCh.abort (s.drv_setDrv c _)
    show execDroverAbort .shepherd c n host s = _
    simp only [execDroverAbort, hwrite, hruns, habort, decide_true, Bool.and_self, if_true]
    rfl
  case budget =>
    intro c host s hrun hdesc habort hbudget
    show execDescriptorFetch c host s = _
    simp [execDescriptorFetch, hrun, hdesc, habort, hbudget]
  case misaligned =>
    intro c host s hrun hdesc habort hbudget hnext
    exact exec_descriptorFetch_misaligned host ⟨hrun, hdesc, habort, hbudget⟩ hnext
  case fetch =>
    rintro c host s d u hrun hdesc habort hbudget hnext hspace hlast hend rfl rfl hgood
    rw [exec_descriptorFetch_host host ⟨hrun, hdesc, habort, hbudget⟩ hnext hspace hlast hend]
    exact congrArg Host.Outcome.next (if_neg (by rw [Bool.not_eq_true]; exact hgood))
  case complete =>
    intro c host conf s d u hdesc hrun hmove hdst hirq hruns hnext
    exact exec_descriptorComplete_last hdesc hrun hmove hdst hirq hruns hnext
  case idle =>
    intro c host conf s hdesc
    show execDescriptorComplete c host conf s = _
    simp only [execDescriptorComplete, hdesc]
  case busError =>
    intro wr k a mv s hany
    exact if_pos hany
  case noneRuns =>
    intro wr k a mv s hany
    exact if_neg (by rw [hany]; decide)
  case same =>
    intro d v hw
    simp [Desc.convert, hw]
  case above =>
    intro d v hw halign
    simp [Desc.convert, hw, halign]
  case below =>
    intro d v hw halign
    simp [Desc.convert, hw, Nat.lt_asymm hw, halign]

end Sys2Proof.Machine
end

section
/-!
PROOF. Quilt and Seam: meters and delay taps (R102, R111 to R113), direct writes (R116 to R119) and the cycle of BASTE (R136, R138,
R146 to R149, R153, R159).
-/

namespace Sys2Proof.Machine

/-! ### Bytes of a write -/

/-- A write of every byte replaces the value, cut to its bytes. -/
theorem mergeBytes_all (n old new : Nat) {enable : Nat} (h : ∀ i < n, enable / 2 ^ i % 2 = 1) :
    mergeBytes n old new enable = new % 256 ^ n := by
  induction n with
  | zero => simp [mergeBytes, Nat.mod_one]
  | succ n ih =>
    have hstep : mergeBytes (n + 1) old new enable =
        mergeBytes n old new enable + (if enable / 2 ^ n % 2 = 1 then new else old) / 256 ^ n % 256 * 256 ^ n := by
      simp only [mergeBytes, List.range_succ, List.foldl_append, List.foldl_cons, List.foldl_nil]
    rw [hstep, ih (fun i hi => h i (by omega)), if_pos (h n (by omega)), Nat.mod_pow_succ]
    rw [Nat.mul_comm (256 ^ n)]

/-! ### Meters and delay taps -/

theorem State.rd_wrN_zero (s : State) (a : Nat) : (s.wrN a 0).rd a = 0 := by
  rw [State.rd_wrN_self, Nat.zero_mod]

section
variable {s : State} {t : Fin 4096}

theorem State.dlyApply_of_fits (hlen : 8 ≤ F.QUILT_DLY_RLEN_RLEN.of (s.sh (R.QUILT_DLY_RLEN t)))
    (hend : 4096 * s.sh (R.QUILT_DLY_BASE t) + 4 * F.QUILT_DLY_RLEN_RLEN.of (s.sh (R.QUILT_DLY_RLEN t)) ≤ s.dramUsable)
    (hfree : ∀ b ∈ s.quilt.live.used, (s.quilt.live.bus b).dlyEn = true → (s.quilt.live.bus b).dlytap ≠ t.val) :
    s.dlyApply t = s.setTap t { s.tap t with
      apply := some (s.shadowOf (R.QUILT_DLY_BASE t), s.shadowOf (R.QUILT_DLY_RLEN t)) } := by
  have hnamed : s.quilt.live.used.any (fun b => (s.quilt.live.bus b).dlyEn && (s.quilt.live.bus b).dlytap = t.val) = false := by
    simpa using hfree
  simp only [State.dlyApply, hnamed, Nat.not_lt.2 hlen, Nat.not_lt.2 hend, decide_false, Bool.or_self, Bool.false_eq_true,
    if_false]

theorem State.dlyApply_of_misfit (hnone : (s.tap t).apply = none)
    (hbad : F.QUILT_DLY_RLEN_RLEN.of (s.sh (R.QUILT_DLY_RLEN t)) < 8 ∨
      s.dramUsable < 4096 * s.sh (R.QUILT_DLY_BASE t) + 4 * F.QUILT_DLY_RLEN_RLEN.of (s.sh (R.QUILT_DLY_RLEN t))) :
    s.dlyApply t = ((s.reloadShadows [R.QUILT_DLY_BASE t, R.QUILT_DLY_RLEN t] []).flag R.QUILT_FLAGS
      F.QUILT_FLAGS_APPLY_ERR).raise FS.DLY_CFG_ERR t 0 := by
  simp only [State.dlyApply, hnone]
  refine if_pos ?_
  rcases hbad with h | h <;> simp only [h, decide_true, Bool.true_or, Bool.or_true]

theorem State.dlyDelay_of_fits {v : Nat} (hlen : 8 ≤ s.rd (R.QUILT_DLY_RLEN t))
    (hfit : v % 2 ^ 18 ≤ min 240000 (s.rd (R.QUILT_DLY_RLEN t) - 8)) :
    s.dlyDelay t v = State.ccuConfigChange s (((s.wrN (R.QUILT_DLY_DELAY t) (v % 2 ^ 18)).setTap t
      (if (s.tap t).xfLen = 0 then { s.tap t with next := some (v % 2 ^ 18) }
        else { s.tap t with held := some (v % 2 ^ 18) })).syncTap t) (R.QUILT_DLY_DELAY t) := by
  have htap : (s.wrN (R.QUILT_DLY_DELAY t) (v % 2 ^ 18)).tap t = s.tap t := rfl
  simp only [State.dlyDelay, Nat.not_lt.2 hlen, Nat.not_lt.2 hfit, decide_false, Bool.or_self, Bool.false_eq_true, if_false,
    htap, apply_ite (State.setTap _ _)]

theorem State.dlyDelay_of_misfit {v : Nat}
    (hbad : s.rd (R.QUILT_DLY_RLEN t) < 8 ∨ min 240000 (s.rd (R.QUILT_DLY_RLEN t) - 8) < v % 2 ^ 18) :
    s.dlyDelay t v = (s.flag R.QUILT_FLAGS F.QUILT_FLAGS_DLY_ERR).raise FS.DLY_CFG_ERR t 0 := by
  refine if_pos ?_
  rcases hbad with h | h <;> simp only [h, decide_true, Bool.true_or, Bool.or_true]

end

/-! ### Direct writes -/

/-- A write of a whole record is judged and recorded. -/
theorem State.directWrite_whole (s : State) (key : Nat) (v : DWord) :
    s.directWrite key v.toNat 255 = (s.dwrRecord key v).1 := by
  have hmerge : ∀ old, BitVec.ofNat 64 (mergeBytes 8 old v.toNat 255) = v := by
    intro old
    rw [mergeBytes_all 8 old _ (by decide), Nat.mod_eq_of_lt (by omega), BitVec.ofNat_toNat, BitVec.setWidth_eq]
  simp only [State.directWrite, hmerge]
  rfl

theorem State.directWrite_low (s : State) (tile : Fin 16) (slot : Fin 65536) (v : DWord) :
    s.directWrite (65536 * tile + slot) v.toNat 15 = { s with quilt := { s.quilt with
      hold := (tile.val, BitVec.ofNat 32 v.toNat) :: s.quilt.hold.filter (fun e => e.1 ≠ tile) } } := by
  have hmerge : ∀ old, BitVec.ofNat 32 (mergeBytes 4 old v.toNat 15) = BitVec.ofNat 32 v.toNat := by
    intro old
    rw [mergeBytes_all 4 old _ (by decide)]
    exact BitVec.eq_of_toNat_eq (by simp)
  have htile : (65536 * tile.val + slot.val) / 65536 = tile.val := by omega
  simp only [State.directWrite, hmerge, htile]
  rfl

section
variable {s : State} {key : Nat} {w : DWord}

theorem State.dwrRecord_of_refused (h : s.dwrReason key w ≠ 0) :
    (s.dwrRecord key w).1 = s.dwrRefuse key (s.dwrReason key w) := by
  simp only [State.dwrRecord, h, ne_eq, not_false_eq_true, if_true]

theorem State.dwrRecord_of_solo (h : s.dwrReason key w = 0) (hp : s.paired = false) :
    (s.dwrRecord key w).1 = (s.dropHold key).dwrApply key w := by
  have hp' : (s.dropHold key).paired = false := hp
  simp only [State.dwrRecord, h, hp', ne_eq, not_true_eq_false, if_false, Bool.false_eq_true]

theorem State.dwrRecord_of_paired (h : s.dwrReason key w = 0) (hp : s.paired = true) :
    (s.dwrRecord key w).1 = { s with quilt := { s.quilt with
      hold := s.quilt.hold.filter (fun e => e.1 ≠ key / 65536),
      paired := s.quilt.paired ++ [⟨key, w, 8 * (s.msc / 8) + 16⟩] } } := by
  have hp' : (s.dropHold key).paired = true := hp
  simp only [State.dwrRecord, h, hp', ne_eq, not_true_eq_false, if_false, if_true]
  rfl

theorem State.dwrReason_cases (s : State) (key : Nat) (w : DWord) : (s.bstate = 4 → s.dwrReason key w = 1) ∧
    (s.bstate ≠ 4 → (stitchOf (s.quilt.live.slot key)).lifesafe = true → s.dwrReason key w = 2) ∧
    (s.bstate ≠ 4 → (stitchOf (s.quilt.live.slot key)).lifesafe = false → pairOf (s.quilt.live.slot key) ≠ pairOf w →
      s.dwrReason key w = 3) ∧
    (s.bstate ≠ 4 → (stitchOf (s.quilt.live.slot key)).lifesafe = false → pairOf (s.quilt.live.slot key) = pairOf w →
      s.dwrReason key w = if s.quilt.live.inList key = true then 0 else 4) := by
  refine ⟨fun h => if_pos h, ?_, ?_, ?_⟩
  · intro h hsafe
    simp only [State.dwrReason, h, hsafe, if_false, if_true]
  · intro h hsafe hpair
    simp only [State.dwrReason, h, hsafe, hpair, if_false, if_true, Bool.false_eq_true, ne_eq, not_false_eq_true]
  · intro h hsafe hpair
    cases hlist : s.quilt.live.inList key <;>
      simp only [State.dwrReason, h, hsafe, hpair, hlist, if_false, if_true, Bool.false_eq_true, ne_eq, not_true_eq_false,
        Bool.not_false, Bool.not_true]

end

/-! ### Writes of BASTE -/

theorem State.setBaste_only (s : State) (k : Bank) :
    OnlyRegs [R.SEAM_STATUS] { s with quilt := { s.quilt with baste := k } } (s.setBaste k) := by
  unfold State.setBaste
  dsimp only
  split
  · exact (OnlyRegs.refl _ _).setFld _ _ _ (by decide)
  · exact OnlyRegs.refl _ _

theorem OnlyRegs.quilt {A : List Nat} {s t : State} (h : OnlyRegs A s t) : t.quilt = s.quilt := by rw [h.1]

theorem OnlyRegs.mem {A : List Nat} {s t : State} (h : OnlyRegs A s t) : t.mem = s.mem := by rw [h.1]

theorem State.setBaste_quilt (s : State) (k : Bank) : (s.setBaste k).quilt = { s.quilt with baste := k } :=
  (s.setBaste_only k).quilt

theorem State.setBaste_mem (s : State) (k : Bank) : (s.setBaste k).mem = s.mem := (s.setBaste_only k).mem

/-- Each of the three kinds of word goes into its own part of BASTE. -/
theorem State.putBaste_eq (s : State) (w : BasteWord) (v enable : Nat) : ∃ (k : Bank) (q : QWord),
    s.putBaste w v enable = { s.setBaste k with quilt := { (s.setBaste k).quilt with
      ue := (s.setBaste k).quilt.ue.filter (· ≠ q) } } ∧
    ∀ tile slot, w = .slot tile slot → k.slots = Sparse.set zeroD s.quilt.baste.slots (65536 * tile.val + slot.val)
      (BitVec.ofNat 64 (mergeBytes 8 (s.quilt.baste.slot (65536 * tile.val + slot.val)).toNat v enable)) := by
  cases w with
  | slot tile slot =>
    refine ⟨_, _, rfl, ?_⟩
    rintro tile' slot' ⟨⟩
    rfl
  | desc bus word => exact ⟨_, _, rfl, fun _ _ h => by cases h⟩
  | dmap entry => exact ⟨_, _, rfl, fun _ _ h => by cases h⟩

theorem State.putBaste_keeps (s : State) (w : BasteWord) (v enable : Nat) :
    (s.putBaste w v enable).quilt.live = s.quilt.live ∧ (s.putBaste w v enable).mem = s.mem ∧
    RegsBut [R.SEAM_STATUS] s (s.putBaste w v enable) ∧
    ∀ tile slot, w = .slot tile slot → (s.putBaste w v enable).quilt.baste.slot (65536 * tile + slot) =
      BitVec.ofNat 64 (mergeBytes 8 (s.quilt.baste.slot (65536 * tile + slot)).toNat v enable) := by
  obtain ⟨k, q, hput, hslot⟩ := s.putBaste_eq w v enable
  rw [hput]
  refine ⟨by rw [State.setBaste_quilt], s.setBaste_mem k, (s.setBaste_only k).2, ?_⟩
  intro tile slot hw
  rw [State.setBaste_quilt]
  show Sparse.get zeroD k.slots _ = _
  rw [hslot tile slot hw, Sparse.get_set_same]

/-- Settles O17: meters and taps by the lemmas on a group and a delay that fit or do not; a direct write by its reason. -/
theorem metersTapsAndStitches : Obligations.MetersTapsAndStitches := by
  unfold Obligations.MetersTapsAndStitches
  refine ⟨⟨?peak, ?fits, ?misfit, ?delay, ?badDelay, ?fadeEnd, ?fadeRuns⟩,
    ⟨?applied, ?refused, State.dwrReason_cases, ?shown, ?low, ?empty, ?due, ?waiting, ?baste, ?closed⟩⟩
  case peak =>
    intro m s
    exact ⟨_, rfl, rfl, s.rd_wrN_zero _, fun a ha => State.reg_wr_ne _ _ (List.ne_of_not_mem_cons ha), rfl⟩
  case fits =>
    intro t s hlen hend hfree
    exact congrArg Host.Outcome.next (State.dlyApply_of_fits hlen hend hfree)
  case misfit =>
    intro t s hnone hbad
    exact congrArg Host.Outcome.next (State.dlyApply_of_misfit hnone hbad)
  case delay =>
    intro t v s hlen hfit
    exact ⟨_, congrArg Host.Outcome.next (State.dlyDelay_of_fits hlen hfit), rfl⟩
  case badDelay =>
    intro t v s hbad
    exact congrArg Host.Outcome.next (State.dlyDelay_of_misfit hbad)
  case fadeEnd =>
    rintro t s u hfading hover rfl
    have hend : exec (.dlyXfEnd t) s = (match (s.tap t).held with
        | some dly => .next (((s.setTap t { s.tap t with xfLen := 0, held := none }).syncTap t).tapMove t
            ((s.setTap t { s.tap t with xfLen := 0, held := none }).syncTap t).msc dly)
        | none => .next ((s.setTap t { s.tap t with xfLen := 0, held := none }).syncTap t)) := by
      refine if_neg ?_
      simp [hfading, hover]
    refine ⟨fun hheld => ?_, fun d hheld => ?_⟩ <;> rw [hend, hheld]
  case fadeRuns =>
    intro t s h
    refine if_pos ?_
    rcases h with h | h <;> simp [h]
  case applied =>
    intro tile slot v s hreason
    have htile : (65536 * tile.val + slot.val) / 65536 = tile.val := by omega
    have hexec : exec (.directStitchWrite tile slot v 255#8) s = .next (s.dwrRecord (65536 * tile + slot) v).1 :=
      congrArg Host.Outcome.next (s.directWrite_whole _ v)
    refine ⟨fun hsolo => ?_, fun hpaired => ?_⟩
    · rw [hexec, State.dwrRecord_of_solo hreason hsolo]
    · rw [hexec, State.dwrRecord_of_paired hreason hpaired, htile]
  case refused =>
    intro tile slot v s hreason
    exact congrArg Host.Outcome.next ((s.directWrite_whole _ v).trans (State.dwrRecord_of_refused hreason))
  case shown =>
    rintro s u key r rfl
    rfl
  case low =>
    intro tile slot v s
    exact congrArg Host.Outcome.next (s.directWrite_low tile slot v)
  case empty => exact fun tile slot v s => rfl
  case due =>
    intro s w hone hdue
    show Host.Outcome.next s.pairedWrites = _
    simp [State.pairedWrites, hone, hdue, Nat.not_lt.2 hdue]
  case waiting =>
    intro s hlater
    have hnone : s.quilt.paired.filter (fun w => w.due ≤ s.msc) = [] := by simpa using hlater
    have hall : s.quilt.paired.filter (fun w => s.msc < w.due) = s.quilt.paired := by simpa using hlater
    show Host.Outcome.next s.pairedWrites = _
    simp only [State.pairedWrites, hnone, hall, List.foldl_nil]
  case baste =>
    intro w v en s hopen
    obtain ⟨hlive, hmem, hregs, hslot⟩ := s.putBaste_keeps w v.toNat en.toNat
    exact ⟨_, congrArg Host.Outcome.next (if_pos hopen), rfl, hlive, hmem, hregs, hslot⟩
  case closed =>
    intro w v en s hshut
    exact congrArg Host.Outcome.next (if_neg (by rw [hshut]; decide))

/-! ### What a direct write leaves -/

/-- The Quilt banks, the running ramps and the memories stand as they were. -/
def State.SameBanks (s t : State) : Prop :=
  t.quilt.live = s.quilt.live ∧ t.quilt.baste = s.quilt.baste ∧ t.seam.ramps = s.seam.ramps ∧ t.mem = s.mem

theorem State.SameBanks.refl (s : State) : s.SameBanks s := ⟨rfl, rfl, rfl, rfl⟩

theorem State.SameBanks.trans {s t u : State} (h : s.SameBanks t) (g : t.SameBanks u) : s.SameBanks u :=
  ⟨g.1.trans h.1, g.2.1.trans h.2.1, g.2.2.1.trans h.2.2.1, g.2.2.2.trans h.2.2.2⟩

theorem State.SameBanks.foldl {α : Type} {f : State → α → State} (hf : ∀ (s : State) x, s.SameBanks (f s x)) (l : List α) (s : State) :
    s.SameBanks (l.foldl f s) := by
  induction l generalizing s with
  | nil => exact State.SameBanks.refl s
  | cons x xs ih => exact (hf s x).trans (ih (f s x))

theorem State.SameBanks.ite {s t u : State} {c : Prop} [Decidable c] (h : s.SameBanks t) (g : s.SameBanks u) :
    s.SameBanks (if c then t else u) := by
  split
  · exact h
  · exact g

theorem State.SameBanks.ccu {s t : State} (h : s.SameBanks t) (c : Ccu) : s.SameBanks { t with ccu := c } := h

theorem State.SameBanks.setCcuState {s t : State} (h : s.SameBanks t) (r v : Nat) : s.SameBanks (t.setCcuState r v) := h

theorem State.SameBanks.setCcuDeadline {s t : State} (h : s.SameBanks t) (r v : Nat) : s.SameBanks (t.setCcuDeadline r v) := h

theorem State.SameBanks.outs {s t : State} (h : s.SameBanks t) (o : List OutStitch) :
    s.SameBanks { t with seam := { t.seam with outs := o } } := h

theorem State.resolo_sameBanks (s : State) (n : Nat) : s.SameBanks (s.resolo n) := by
  unfold State.resolo
  refine .ite (.refl s) (.foldl (fun t b => ?_) _ s)
  refine .foldl (fun u key => ?_) _ t
  exact .ite (.refl u) ⟨rfl, rfl, rfl, rfl⟩

theorem State.reduck_sameBanks (s : State) (n : Nat) : s.SameBanks (s.reduck n) := by
  unfold State.reduck
  refine .ite (.refl s) (State.SameBanks.outs (.foldl (fun t b => ?_) _ s) _)
  refine .foldl (fun u key => ?_) _ t
  exact .ite (.refl u) ⟨rfl, rfl, rfl, rfl⟩

theorem State.ccuChange_sameBanks (s : State) (r : Nat) : s.SameBanks (s.ccuChange r) := by
  unfold State.ccuChange
  have h := (State.SameBanks.refl s).ccu { s.ccu with changed := s.ccu.changed.set r true, whole := s.ccu.whole.set r false }
  exact .ite (((h.setCcuState r 2).setCcuDeadline r _).ccu _) h

theorem sext_bounds (v : Nat) : -2 ^ 23 ≤ sext 24 v ∧ sext 24 v < 2 ^ 23 := by
  unfold sext
  split <;> omega

/-- LIVE with one record and its current gain replaced. -/
def Bank.written (k : Bank) (key : Nat) (w : DWord) : Bank :=
  { k with slots := Sparse.set zeroD k.slots key w,
           gains := Sparse.set zeroW k.gains key (BitVec.ofInt 32 (stitchOf w).target) }

/-- The record, the gain and the ramps of the slot change; the rest of the write counts, logs and recomputes factors. -/
theorem State.dwrApply_sameBanks (s : State) (key : Nat) (w : DWord) :
    ({ s with quilt := { s.quilt with live := s.quilt.live.written key w },
              seam := { s.seam with ramps := s.seam.ramps.filter (fun e => e.1 ≠ key) } } : State).SameBanks
      (s.dwrApply key w) := by
  unfold State.dwrApply
  have hfactors : ∀ t u : State, State.SameBanks t u → t.SameBanks ((u.resolo u.msc).reduck u.msc) :=
    fun t u h => (h.trans (u.resolo_sameBanks _)).trans ((u.resolo _).reduck_sameBanks _)
  refine .ite (State.SameBanks.trans ?_ (State.ccuChange_sameBanks _ 0)) ?_
  · exact hfactors _ _ ⟨rfl, rfl, rfl, rfl⟩
  · exact hfactors _ _ ⟨rfl, rfl, rfl, rfl⟩

theorem Bank.slot_written_ne (k : Bank) {key j : Nat} (w : DWord) (h : j ≠ key) : (k.written key w).slot j = k.slot j :=
  Sparse.get_set_other _ _ _ _ _ h

theorem Bank.gain_written_ne (k : Bank) {key j : Nat} (w : DWord) (h : j ≠ key) : (k.written key w).gain j = k.gain j :=
  congrArg BitVec.toInt (Sparse.get_set_other _ _ _ _ _ h)

theorem Bank.slot_written (k : Bank) (key : Nat) (w : DWord) : (k.written key w).slot key = w :=
  Sparse.get_set_same _ _ _ _

/-- A target fits a gain word: 24 bits with a sign. -/
theorem Bank.gain_written (k : Bank) (key : Nat) (w : DWord) : (k.written key w).gain key = (stitchOf w).target := by
  show (Sparse.get zeroW (Sparse.set zeroW k.gains key _) key).toInt = _
  rw [Sparse.get_set_same, BitVec.toInt_ofInt]
  obtain ⟨hlow, hhigh⟩ := sext_bounds (bitsOf w.toNat 38 15)
  have htarget : (stitchOf w).target = sext 24 (bitsOf w.toNat 38 15) * 256 := rfl
  exact Int.bmod_eq_of_le (by omega) (by omega)

/-- Settles O18, by the record and gain written and the banks that everything after them leaves alone. -/
theorem directWriteEffect : Obligations.DirectWriteEffect := by
  unfold Obligations.DirectWriteEffect
  intro s key w
  obtain ⟨hlive, hbaste, hramps, hmem⟩ := s.dwrApply_sameBanks key w
  rw [hlive, hramps]
  refine ⟨Bank.slot_written _ _ _, Bank.gain_written _ _ _,
    fun k hk => ⟨Bank.slot_written_ne _ _ hk, Bank.gain_written_ne _ _ hk⟩, fun e he => ?_, rfl, rfl, hbaste, hmem⟩
  exact of_decide_eq_true (List.mem_filter.1 he).2

/-! ### The cycle of BASTE -/

section
variable {s : State}

theorem State.basteOpen_iff : s.basteOpen = true ↔ s.bstate = 0 ∨ s.bstate = 2 := by
  simp [State.basteOpen]

theorem State.discard_of_open (h : s.bstate = 0 ∨ s.bstate = 2) (force : Bool) :
    (s.discard force).1 = ({ s with seam := { s.seam with sew := none } } : State).setBstate 6 := by
  rcases h with h | h <;> simp only [State.discard, h] <;> rfl

theorem State.discard_of_armed (h : s.bstate = 3) {e : Event} (hsew : s.seam.sew = some e) (force : Bool) :
    (s.discard force).1 = (s.cancelEvent e).setBstate 6 := by
  simp only [State.discard, h, hsew]
  rfl

theorem State.discard_of_sewing (h : s.bstate = 4) (force : Bool) : (s.discard force).1 = s := by
  simp only [State.discard, h]
  rfl

theorem State.discard_of_forced (h : s.bstate = 5) : (s.discard true).1 = s.forceUnravel := by
  simp only [State.discard, h]
  rfl

theorem State.discard_of_busy (h : s.bstate = 1 ∨ s.bstate = 5 ∨ s.bstate = 6) : (s.discard false).1 = s.seamBusy := by
  rcases h with h | h | h <;> simp only [State.discard, h] <;> rfl

theorem State.checkDone_nil {cls : Nat} {u : State} {r : Nat × Nat × Nat} (hcheck : s.seam.checking = some (cls, none, none))
    (hu : u = { s with seam := { s.seam with checking := none } }) (hr : u.checkBank u.quilt.baste cls = r) :
    s.checkDone [] = if r.1 = 0 then (((u.noteCheck r 0).setBstate 2).wrN R.SEAM_CHK_CRC (u.noteCheck r 0).quilt.baste.crc).setFld
      R.SEAM_STATUS F.SEAM_STATUS_CHK_CLASS cls else (u.noteCheck r 0).setBstate 0 := by
  subst hu hr
  simp only [State.checkDone, hcheck]
  have hnone : ((s.liveUes 9 []).basteUe 9 []) = s := rfl
  rw [hnone]
  simp only [hcheck, Option.isNone_some, Bool.false_eq_true, if_false]

theorem State.basteReturned_of_none (h : s.seam.sew = none) : s.basteReturned = s.setBstate 0 := by
  have hsew : (s.setBstate 0).seam.sew = none := h
  simp only [State.basteReturned, hsew]

end

/-- Settles O19: each command by the state of BASTE, and the end of each service. -/
theorem basteCycle : Obligations.BasteCycle := by
  unfold Obligations.BasteCycle
  refine ⟨?check, ?checkBusy, ?discardOpen, ?discardArmed, ?discardSewing, ?discardBusy, ?forceBusy, ?forced, ?checked,
    ?noCheck, ?armed, ?notArmed, ?unravel, ?unravelling, ?copied, ?notCopying, fun s h => State.basteReturned_of_none h,
    ?crc, ?noCrc⟩
  case check =>
    intro cls s h
    exact congrArg Host.Outcome.next (if_pos (State.basteOpen_iff.2 h))
  case checkBusy =>
    intro cls s h0 h2
    exact congrArg Host.Outcome.next (if_neg (fun h => (State.basteOpen_iff.1 h).elim h0 h2))
  case discardOpen =>
    intro cls s h
    exact ⟨_, rfl, congrArg Host.Outcome.next (State.discard_of_open h _), congrArg Host.Outcome.next (State.discard_of_open h _)⟩
  case discardArmed =>
    intro cls e s h hsew
    exact ⟨congrArg Host.Outcome.next (State.discard_of_armed h hsew _),
      congrArg Host.Outcome.next (State.discard_of_armed h hsew _)⟩
  case discardSewing =>
    intro cls s h
    exact ⟨congrArg Host.Outcome.next (State.discard_of_sewing h _), congrArg Host.Outcome.next (State.discard_of_sewing h _)⟩
  case discardBusy =>
    intro cls s h
    exact congrArg Host.Outcome.next (State.discard_of_busy h)
  case forceBusy =>
    intro cls s h hcls
    have hforce : decide (cls.val = 3) = false := decide_eq_false (fun hc => hcls (Fin.ext hc))
    show Host.Outcome.next (s.discard (decide (cls.val = 3))).1 = _
    rw [hforce, State.discard_of_busy (.inr (.inl h))]
    rfl
  case forced =>
    intro s h
    exact ⟨_, congrArg Host.Outcome.next (State.discard_of_forced h), rfl⟩
  case checked =>
    intro cls s u r hcheck hu hr
    refine ⟨fun hpass => ?_, fun hfail => ?_⟩
    · exact congrArg Host.Outcome.next ((State.checkDone_nil hcheck hu hr).trans (if_pos hpass))
    · exact congrArg Host.Outcome.next ((State.checkDone_nil hcheck hu hr).trans (if_neg hfail))
  case noCheck =>
    intro s hnone
    show Host.Outcome.next (s.checkDone []) = _
    simp only [State.checkDone, hnone]
  case armed =>
    intro s e hsew harming hstate
    show execSewArmCheckDone s = _
    simp only [execSewArmCheckDone, hsew, harming, hstate, decide_true, Bool.and_self, if_true]
  case notArmed =>
    intro s h
    show execSewArmCheckDone s = _
    cases hsew : s.seam.sew with
    | none => simp only [execSewArmCheckDone, hsew]
    | some e =>
      rcases h with h | h | h
      · rw [hsew] at h; cases h
      · simp [execSewArmCheckDone, hsew, h]
      · simp [execSewArmCheckDone, hsew, h]
  case unravel =>
    rintro s u hstate hend rfl
    have hover : exec .unravelEnd s = .next s.unravelOver := by
      refine congrArg Host.Outcome.next (if_pos ?_)
      simp [hstate, hend]
    refine ⟨fun hkeep => ?_, fun hkeep => ?_⟩
    · rw [hover]
      exact congrArg Host.Outcome.next (if_neg (by show ¬ s.seam.keep = true; rw [hkeep]; decide))
    · rw [hover]
      exact congrArg Host.Outcome.next (if_pos hkeep)
  case unravelling =>
    intro s h
    refine congrArg Host.Outcome.next (if_neg ?_)
    rcases h with h | h <;> simp [h]
  case copied =>
    intro s hstate
    have hstate' : (s.rebasteCopy []).bstate = 6 := hstate
    refine ⟨s.rebasteCopy [], ?_, rfl, rfl, rfl, rfl, rfl⟩
    show execRebasteDone [] s = _
    simp only [execRebasteDone, hstate, hstate', if_true]
  case notCopying =>
    intro s hstate
    exact if_neg hstate
  case crc =>
    intro s c hcrc
    show execLiveCrcDone s = _
    simp only [execLiveCrcDone, hcrc]
  case noCrc =>
    intro s hcrc
    show execLiveCrcDone s = _
    simp only [execLiveCrcDone, hcrc]

end Sys2Proof.Machine
end

section
/-!
PROOF. Line drive (R366 to R391) and alarm operation (R392 to R425).
-/

namespace Sys2Proof.Machine

/-! ### Short circuits, sensing and supervision of a line -/

theorem lineChStat_ne_flags (n : Fin 16) : R.LINE_CH_STAT n ≠ R.LINE_FLAGS := by
  revert n
  decide

section
variable {s : State}

/-- A trip of a channel that no STOP or DISABLE is ending: the channel waits, or is LOCKED. -/
theorem State.lineTrip_of_running {n : Nat} (hstop : (s.lineCh n).stopAt = none) {u : State} {r : List Nat}
    (hr : r = (s.lineCh n).retries.filter (fun e => s.edge < e + 57600000))
    (hu : u = (((((s.setLineCh n { s.lineCh n with
      st := if 8 ≤ r.length then 3 else 2, limited := [], retries := r, waitFrom := s.edge }).lineRetries n).lineSync n).count
        (R.LINE_CH_TRIP_CNT n)).flag R.LINE_FLAGS F.LINE_FLAGS_TRIP).raise FS.LINE_OCP_TRIP n 0) :
    s.lineTrip n = if 8 ≤ r.length then (u.flag R.LINE_FLAGS F.LINE_FLAGS_LOCK).raise FS.LINE_OCP_LOCK n 0 else u := by
  simp only [State.lineTrip, hstop, Option.isSome_none, Bool.false_eq_true, if_false, ← hr]
  subst hu
  by_cases hlock : 8 ≤ r.length
  · simp only [hlock, hstop, if_true]
  · simp only [hlock, hstop, if_false, Nat.reduceEqDiff]

theorem exec_ocpLimitedPeriod_of_switching {n : Fin 16} (hsw : s.gates n = .switching) {l : List Nat}
    (hl : l = s.edge :: (s.lineCh n).limited.filter (fun e => s.edge < e + 96)) :
    exec (.ocpLimitedPeriod n) s =
      let u := ((s.setLineCh n { s.lineCh n with limited := l }).count (R.LINE_CH_OCP_CNT n)).flag R.LINE_FLAGS F.LINE_FLAGS_OCP
      .next (if 32 ≤ l.length then u.lineTrip n else u) := by
  show execOcpLimitedPeriod n s = _
  simp only [execOcpLimitedPeriod, hsw, ne_eq, not_true_eq_false, if_false, ← hl]

theorem exec_supervisionResult_of_measured {n : Fin 16} {mag : Nat} {ph : Int} {ef : BitVec 12} (hrun : (s.lineCh n).st = 1)
    (hhold : s.holdBits (s.lineCh n) = 0) (hv : s.bit (R.LINE_CH_STAT n) F.LINE_CH_STAT_VS_LOSS = false)
    (hi : s.bit (R.LINE_CH_STAT n) F.LINE_CH_STAT_IS_LOSS = false) {u : State}
    (hu : u = s.wrN (R.LINE_CH_ZMAG n) (wrapN 16 ph * 2 ^ 16 + min 65535 mag))
    (hear : u.fld (R.LINE_CH_CFG n) F.LINE_CH_CFG_EF_SEL ≠ 31) :
    exec (.supervisionResult n (some (mag, ph, ef))) s =
      .next ((u.wrN (R.LINE_CH_EF n) ef.toNat).lineClassify n (min 65535 mag) ef.toNat) := by
  show execSupervisionResult n (some (mag, ph, ef)) s = _
  simp only [execSupervisionResult, hrun, hhold, hv, hi, ne_eq, not_true_eq_false, decide_false, Bool.or_self,
    Bool.false_eq_true, if_false, ← hu, hear]

/-- A loss that is not shown yet is shown in its bit of LINE_CH_STAT. -/
theorem exec_senseLoss_of_clear {n : Fin 16} {vsns : Bool} {f : Fld}
    (hf : f = if vsns then F.LINE_CH_STAT_VS_LOSS else F.LINE_CH_STAT_IS_LOSS) (hhi : f.hi < 32)
    (hclear : s.bit (R.LINE_CH_STAT n) f = false) :
    Raises (.senseLoss n vsns) s FS.LINE_SENSE_LOSS n 0 fun u => OnlyRegs [R.LINE_CH_STAT n, R.LINE_FLAGS] s u ∧
      u.rd (R.LINE_CH_STAT n) = f.put (s.rd (R.LINE_CH_STAT n)) 1 := by
  refine ⟨(s.setBit (R.LINE_CH_STAT n) f true).flag R.LINE_FLAGS F.LINE_FLAGS_SENSE_LOSS, ?_,
    ((OnlyRegs.refl _ s).setBit _ _ _ (by simp)).flag _ _ (by simp), ?_⟩
  · show execSenseLoss n vsns s = _
    simp only [execSenseLoss, ← hf, hclear, Bool.false_eq_true, if_false]
  · rw [State.rd_flag_ne _ _ (lineChStat_ne_flags n), State.rd_setBit _ _ _ _ hhi]
    rfl

end

/-- Settles O20: a limited period and a trip, OCP_N and the retry; the two losses, a calibration pass, a measured period. -/
theorem lineFaultsAndSensing : Obligations.LineFaultsAndSensing := by
  unfold Obligations.LineFaultsAndSensing
  refine ⟨⟨?limited, ?idle, ?trip, ?assert, ?notTripped, ?retry, ?early⟩,
    ⟨?vsLoss, ?isLoss, ?lossShown, ?calibrated, ?calError, ?measured, ?notMeasured, fun n s => rfl⟩⟩
  case limited =>
    intro n s l hsw hl
    refine ⟨_, rfl, fun hfew => ?_, fun hmany => ?_⟩
    · rw [exec_ocpLimitedPeriod_of_switching hsw hl]
      exact congrArg Host.Outcome.next (if_neg (Nat.not_le.2 hfew))
    · rw [exec_ocpLimitedPeriod_of_switching hsw hl]
      exact congrArg Host.Outcome.next (if_pos hmany)
  case idle =>
    intro n s hsw
    exact if_pos hsw
  case trip =>
    intro n s u r hstop hr hu
    refine ⟨fun hfew => ?_, fun hmany => ?_⟩
    · exact (State.lineTrip_of_running hstop hr hu).trans (if_neg (Nat.not_le.2 hfew))
    · exact (State.lineTrip_of_running hstop hr hu).trans (if_pos hmany)
  case assert =>
    intro n s htrip
    exact if_pos htrip
  case notTripped =>
    intro n s htrip
    refine ⟨if_neg htrip, ?_⟩
    show execOcpRetry n s = _
    simp only [execOcpRetry, htrip, decide_false, Bool.false_and, Bool.false_eq_true, if_false]
  case retry =>
    intro n s htrip hover
    show execOcpRetry n s = _
    simp only [execOcpRetry, htrip, hover, decide_true, Bool.and_self, if_true]
  case early =>
    intro n s hwait
    show execOcpRetry n s = _
    simp only [execOcpRetry, Nat.not_le.2 hwait, decide_false, Bool.and_false, Bool.false_eq_true, if_false]
  case vsLoss =>
    intro n s hclear
    exact exec_senseLoss_of_clear rfl (by decide) hclear
  case isLoss =>
    intro n s hclear
    exact exec_senseLoss_of_clear rfl (by decide) hclear
  case lossShown =>
    intro n s hshown
    exact if_pos hshown
  case calibrated =>
    intro n ofs ratio s hol hoh hrl hrh
    refine ⟨s.setBit (R.LINE_CH_STAT n) F.LINE_CH_STAT_CAL_ERR false, ?_, (OnlyRegs.refl _ s).setBit _ _ _ (by simp),
      State.rd_setBit _ _ _ _ (by decide)⟩
    have ho : ¬ 30000 < ofs.natAbs := by omega
    have hr : ¬ 30000 < ratio.natAbs := by omega
    show execCalibrationPass n ofs ratio s = _
    simp only [execCalibrationPass, ho, hr, decide_false, Bool.or_self, Bool.false_eq_true, if_false]
  case calError =>
    intro n ofs ratio s hlarge
    refine ⟨(s.setBit (R.LINE_CH_STAT n) F.LINE_CH_STAT_CAL_ERR true).flag R.LINE_FLAGS F.LINE_FLAGS_CAL_ERR, if_pos ?_,
      ((OnlyRegs.refl _ s).setBit _ _ _ (by simp)).flag _ _ (by simp), ?_⟩
    · simp only [Bool.or_eq_true, decide_eq_true_eq]
      omega
    · rw [State.rd_flag_ne _ _ (lineChStat_ne_flags n), State.rd_setBit _ _ _ _ (by decide)]
      rfl
  case measured =>
    intro n mag ph ef s u hrun hhold hv hi hu hear
    exact exec_supervisionResult_of_measured hrun hhold hv hi hu hear
  case notMeasured =>
    intro n m s h
    cases m with
    | none => rfl
    | some m =>
      refine if_pos ?_
      rcases h with h | h <;> simp [h]

/-! ### Commands and configuration of a line -/

/-- Settles O21, clause by clause from the definitions of the commands. -/
theorem lineCommands : Obligations.LineCommands := by
  unfold Obligations.LineCommands
  refine ⟨fun n s => ⟨rfl, rfl⟩, fun n s => rfl, ?ctrl, ?ctrlIgnored, ?apply⟩
  case ctrl =>
    rintro v s u hdisabled hk rfl
    have hany : s.line.chs.any (fun e => decide (e.2.st ≠ 0)) = false := by simpa using hdisabled
    show Host.Outcome.next (State.ccuConfigChange s (s.lineCtrlWrite v) R.LINE_CTRL) = _
    simp only [State.lineCtrlWrite, hany, Nat.not_lt.2 hk, Bool.and_false, Bool.false_eq_true, if_false]
  case ctrlIgnored =>
    rintro v s u e he hon hk hregion rfl
    have hany : s.line.chs.any (fun e => decide (e.2.st ≠ 0)) = true :=
      List.any_eq_true.2 ⟨e, he, decide_eq_true hon⟩
    have hregion' : F.LINE_CTRL_REGION.of v.toNat ≠ F.LINE_CTRL_REGION.of (s.rd R.LINE_CTRL) := hregion
    show Host.Outcome.next (State.ccuConfigChange s (s.lineCtrlWrite v) R.LINE_CTRL) = _
    simp only [State.lineCtrlWrite, hany, hk, hregion', ne_eq, not_false_eq_true, decide_true, Bool.true_or, Bool.and_self,
      if_true]
  case apply =>
    rintro n s u rfl
    refine ⟨fun hok => ?_, fun hbad => ?_⟩
    · exact congrArg Host.Outcome.next (if_neg (fun h => h hok))
    · exact congrArg Host.Outcome.next (if_pos hbad)

/-! ### Alarm inputs and actions -/

section
variable {s : State}

theorem State.changeReplace_of_none (h : s.alarm.change = none) : s.changeReplace = s := by
  simp only [State.changeReplace, h]

theorem State.alarmAct_of_none (hchange : s.alarm.change = none) (hlater : ∀ e ∈ s.alarm.acts, s.msc < e.due) :
    s.alarmAct = s := by
  have hnone : s.alarm.acts.filter (fun e => decide (e.due ≤ s.msc)) = [] := by simpa using hlater
  simp only [State.alarmAct, State.changeReplace_of_none hchange, hnone, List.getLast?_nil]

/-- One due trigger that is no release: no refused release, and its own set of active patterns. -/
theorem State.alarmAct_one {e : AlarmAct} {u : State} (hchange : s.alarm.change = none) (hacts : s.alarm.acts = [e])
    (hdue : e.due ≤ s.msc) (hundo : e.undo = none) (hu : u = { s with alarm := { s.alarm with acts := [] } })
    (hboot : s.mode ≠ .boot) :
    s.alarmAct =
      if e.active ≠ 0 && s.mode ≠ .alarm then
        u.alarmEnter e.active (if e.on && e.trigger < 32 then Cause.alarmInput else Cause.alarmCommand) s.msc
      else if e.active ≠ 0 then
        let v : State := { u with alarm := { u.alarm with acted := e.active } }
        if v.governOf e.active ≠ v.alarm.govern || (e.trigger = 33 && v.patOf (v.governOf e.active) ≠ v.alarm.ducking) then
          v.changeBegin (v.governOf e.active) s.msc
        else v
      else if s.mode = .alarm then ({ u with alarm := { u.alarm with acted := 0 } } : State).alarmExit s.msc
      else { u with alarm := { u.alarm with acted := 0 } } := by
  subst hu
  have hdues : s.alarm.acts.filter (fun e => decide (e.due ≤ s.msc)) = [e] := by simp [hacts, hdue]
  have hrest : s.alarm.acts.filter (fun e => decide (s.msc < e.due)) = [] := by simp [hacts, Nat.not_lt.2 hdue]
  have hrefused : [e].filterMap (fun e => e.undo) = [] := by simp [hundo]
  simp only [State.alarmAct, State.changeReplace_of_none hchange, hdues, hrest, hrefused, List.getLast?_singleton,
    List.isEmpty_nil, Bool.not_true, Bool.and_false, Bool.false_eq_true, if_false, List.foldl_nil, ite_self, List.any_cons,
    List.any_nil, Bool.or_false, State.mode_mk, hboot]

end

/-- Settles O22: inputs by their enable, debounce time and state; one due action by what is active; the changeover. -/
theorem alarmInputsAndOperation : Obligations.AlarmInputsAndOperation := by
  unfold Obligations.AlarmInputsAndOperation
  refine ⟨⟨?held, ?notHeld, ?qualified, fun s a q => rfl, ?unpaired, ?partner, ?earlier, ?cfg, ?cfgIgnored⟩,
    ⟨?offBlock, ?acts, ?notDue, ?replaced, ?notYet, ?noChange⟩⟩
  case held =>
    intro a e s hen hdb
    have hdb' : s.inputDb a ≤ e := hdb
    refine ⟨fun hst => ⟨?_, ?_⟩, fun hst => ⟨?_, ?_⟩⟩
    · exact congrArg Host.Outcome.next (if_pos (by simp [hen, hdb', hst]))
    · exact congrArg Host.Outcome.next (if_neg (by simp [hst]))
    · exact congrArg Host.Outcome.next (if_pos (by simp [hen, hdb', hst]))
    · exact congrArg Host.Outcome.next (if_neg (by simp [hst]))
  case notHeld =>
    intro a e s h
    have hoff : (s.bit (R.ALARM_IN_CFG a) F.ALARM_IN_CFG_EN && decide (s.inputDb a ≤ e)) = false := by
      unfold State.inputDb
      rcases h with h | h
      · rw [h, Bool.false_and]
      · rw [decide_eq_false (Nat.not_le.2 h), Bool.and_false]
    refine ⟨?_, ?_⟩
    · exact congrArg Host.Outcome.next (if_neg (by rw [hoff]; simp))
    · exact congrArg Host.Outcome.next (if_neg (by rw [hoff]; simp))
  case qualified =>
    rintro s u a q rfl hboot
    refine ⟨fun hlatch => ?_, fun hlatch => ?_⟩
    · simp only [State.inputQualify, hlatch, hboot, decide_false, Bool.or_self, Bool.false_eq_true, if_false,
        State.alarmTrigger, actionSample]
    · simp only [State.inputQualify, hlatch, Bool.true_or, if_true]
  case unpaired =>
    intro a b q s hsolo
    exact if_pos (by rw [hsolo]; decide)
  case partner =>
    intro a q s hpaired hfree hen hst
    have hany : s.alarm.acts.any (fun e => decide (e.trigger = a.val) && decide (e.on = true)) = false := by
      simp only [List.any_eq_false, Bool.and_eq_true, decide_eq_true_eq, not_and]
      exact fun e he h => absurd h (hfree e he)
    show execPartnerAlarmMessage a true q s = _
    simp only [execPartnerAlarmMessage, hpaired, hany, hen, hst, Bool.not_true, Bool.false_eq_true, decide_false,
      Bool.or_self, if_false, if_true]
  case earlier =>
    intro a q e s hpaired hacts htrigger hon
    show execPartnerAlarmMessage a true q s = _
    simp only [execPartnerAlarmMessage, hpaired, hacts, htrigger, hon, List.any_cons, List.any_nil, List.map_cons,
      List.map_nil, decide_true, Bool.and_self, Bool.or_false, Bool.not_true, Bool.false_eq_true, if_false, if_true,
      actionSample]
  case cfg =>
    intro a v s hmode hlow hhigh
    have hopen : (decide (s.mode = .boot) || decide (s.mode = .commission)) = true := by
      rcases hmode with h | h <;> simp [h]
    show Host.Outcome.next (s.alarmInCfg a v) = _
    simp only [State.alarmInCfg, hopen, hlow, hhigh, decide_true, Bool.and_self, if_true]
  case cfgIgnored =>
    intro a v s hboot hcom
    exact congrArg Host.Outcome.next (if_neg (by simp [hboot, hcom]))
  case offBlock =>
    intro s h
    exact congrArg Host.Outcome.next (if_neg h)
  case acts =>
    intro s u e hblock hchange hacts hdue hundo hu hboot
    have hexec : exec .alarmAction s = .next s.alarmAct := congrArg Host.Outcome.next (if_pos hblock)
    rw [hexec, State.alarmAct_one hchange hacts hdue hundo hu hboot]
    refine ⟨fun hactive hmode => ?_, fun hactive hmode htrigger => ⟨_, rfl, ?_⟩, fun hactive hmode => ?_,
      fun hactive hmode => ?_⟩
    · simp only [hactive, hmode, ne_eq, not_false_eq_true, decide_true, Bool.and_self, if_true]
    · simp only [hactive, hmode, htrigger, ne_eq, not_false_eq_true, not_true_eq_false, decide_true, decide_false,
        Bool.and_false, Bool.false_and, Bool.or_false, Bool.false_eq_true, if_false, if_true, decide_eq_true_eq]
    · simp only [hactive, hmode, ne_eq, not_true_eq_false, decide_false, Bool.and_false, Bool.false_eq_true, if_false, if_true]
    · simp only [hactive, hmode, ne_eq, not_true_eq_false, decide_false, Bool.false_and, Bool.false_eq_true, if_false]
  case notDue =>
    intro s hchange hlater
    exact congrArg Host.Outcome.next ((ite_congr rfl (fun _ => State.alarmAct_of_none hchange hlater) (fun _ => rfl)).trans
      (ite_self s))
  case replaced =>
    intro s at_ g hchange hover
    show Host.Outcome.next s.changeReplace = _
    simp only [State.changeReplace, hchange, hover, if_true]
  case notYet =>
    intro s at_ g hchange hwait
    show Host.Outcome.next s.changeReplace = _
    simp only [State.changeReplace, hchange, Nat.not_le.2 hwait, if_false]
  case noChange =>
    intro s hchange
    exact congrArg Host.Outcome.next (State.changeReplace_of_none hchange)

/-! ### Messages and fallback -/

/-- Settles O23, by the state of the player, of the copy and of the fade. -/
theorem messagesAndFallback : Obligations.MessagesAndFallback := by
  unfold Obligations.MessagesAndFallback
  refine ⟨?ends, ?notPlaying, ?anew, ?noGap, ?copied, ?noCopy, ?applied, ?noFade, ?notYet⟩
  case ends =>
    intro p s v rest hvoices hst hends hsettled
    have hexec : exec (.playerMessageEnd p) s = if (s.player p).reps = 1 then .next (s.setPlayer p {}) else
        .next (s.setPlayer p { s.player p with
          st := 2, reps := (s.player p).reps - 1, gapEnd := v.ends + 96 * (s.player p).gap }) := by
      show execPlayerMessageEnd p s = _
      simp only [execPlayerMessageEnd, hvoices, hst, hends, hsettled, decide_true, Bool.and_self, if_true]
    exact ⟨fun h => hexec.trans (if_pos h), fun h => hexec.trans (if_neg h)⟩
  case notPlaying =>
    intro p s hst
    show execPlayerMessageEnd p s = _
    cases hvoices : (s.player p).voices with
    | nil => simp only [execPlayerMessageEnd, hvoices]
    | cons v rest =>
      simp only [execPlayerMessageEnd, hvoices, hst, decide_false, Bool.false_and, Bool.false_eq_true, if_false]
  case anew =>
    intro p s v rest hvoices hst hgap
    show execPlayerGapEnd p s = _
    simp only [execPlayerGapEnd, hvoices, hst, hgap, decide_true, Bool.and_self, if_true]
  case noGap =>
    intro p s hst
    show execPlayerGapEnd p s = _
    cases hvoices : (s.player p).voices with
    | nil => simp only [execPlayerGapEnd, hvoices]
    | cons v rest =>
      simp only [execPlayerGapEnd, hvoices, hst, decide_false, Bool.false_and, Bool.false_eq_true, if_false]
  case copied =>
    rintro k s m u hwaits rfl hmsg hfits
    show Host.Outcome.next (s.msgCopy k) = _
    simp only [State.msgCopy, hwaits, Bool.not_true, Bool.false_eq_true, if_false, hmsg, Nat.not_lt.2 hfits]
  case noCopy =>
    intro k s hidle
    exact congrArg Host.Outcome.next (if_pos (by rw [hidle]; decide))
  case applied =>
    intro s f hfade hres hover hblock
    show execFallbackApply s = _
    simp only [execFallbackApply, hfade, hres, hover, hblock, decide_true, Bool.and_self, if_true]
  case noFade =>
    intro s hfade
    show execFallbackApply s = _
    simp only [execFallbackApply, hfade]
  case notYet =>
    intro s f hfade h
    show execFallbackApply s = _
    rcases h with h | h
    · simp only [execFallbackApply, hfade, Nat.not_le.2 h, decide_false, Bool.and_false, Bool.false_and, Bool.false_eq_true,
        if_false]
    · simp only [execFallbackApply, hfade, h, decide_false, Bool.and_false, Bool.false_eq_true, if_false]

end Sys2Proof.Machine
end

section
/-!
PROOF. Twin operation: the pair (R431 to R443, R449 to R453), duty and the commands of TWIN_CMD (R428, R429, R444, R445, R456).
-/

namespace Sys2Proof.Machine

theorem State.twin_setFld (s : State) (a : Nat) (f : Fld) (v : Nat) : (s.setFld a f v).twin = s.twin := rfl

theorem State.msc_setFld (s : State) (a : Nat) (f : Fld) (v : Nat) : (s.setFld a f v).msc = s.msc := rfl

section
variable {s : State}

theorem State.isStandby_of_standby (h : s.baseMode = .standby) : s.isStandby = true := decide_eq_true h

theorem State.isStandby_of_other (h : s.baseMode ≠ .standby) : s.isStandby = false := decide_eq_false h

/-! ### Joining a pair -/

theorem exec_linkTrained_of_link {l : BitVec 2} (hstate : s.tstate = 1) (hlanes : l ≠ 0#2)
    (hrole : s.duty = true ∨ s.baseMode = .standby) : exec (.linkTrained l true) s =
      .next ((({ s with twin := { s.twin with locked := false } } : State).setTstate 2).setFld R.TWIN_STATUS
        F.TWIN_STATUS_LANES l.toNat) := by
  have hpairs : s.pairs = true := by
    rcases hrole with h | h
    · simp only [State.pairs, h, Bool.true_or]
    · simp only [State.pairs, State.isStandby_of_standby h, Bool.or_true]
  show execLinkTrained l true s = _
  simp only [execLinkTrained, hstate, hlanes, hpairs, ne_eq, not_false_eq_true, decide_true, Bool.and_self, if_true]

theorem exec_linkTrained_of_not_link {l : BitVec 2} (h : s.tstate ≠ 1 ∨ l = 0#2) : exec (.linkTrained l true) s = .next s := by
  refine if_neg ?_
  rcases h with h | h <;> simp [h]

/-- MSC and time base of the pair, at a block start of PAIR state CLOCK. -/
theorem exec_mscTransfer_of_clock {m : DWord} {tb : Fin 8} {a : Bool} (hstate : s.tstate = 2) (hblock : s.msc % 8 = 0) :
    exec (.mscTransfer m tb a) s = if s.isStandby then
        .next (if s.twin.locked && !s.twin.mscRefused then s.mscTransfer m.toNat tb else s)
      else .next (if s.duty && a then s.setTstate 3 else s) := by
  show execMscTransfer m tb a s = _
  simp only [execMscTransfer, hstate, hblock, ne_eq, not_true_eq_false, decide_false, Bool.or_self, Bool.false_eq_true, if_false]

theorem exec_mscTransfer_of_locked {m : DWord} {tb : Fin 8} {a : Bool} (hstate : s.tstate = 2) (hblock : s.msc % 8 = 0)
    (hstandby : s.baseMode = .standby) (hlocked : s.twin.locked = true) (hrefused : s.twin.mscRefused = false) :
    exec (.mscTransfer m tb a) s = .next (s.mscTransfer m.toNat tb) := by
  rw [exec_mscTransfer_of_clock hstate hblock, State.isStandby_of_standby hstandby, hlocked, hrefused]
  rfl

theorem exec_settleEnd_of_settled {n : Nat} (hstate : s.tstate = 4) (hn : s.fld R.TWIN_CFG F.TWIN_CFG_SETTLE ≤ n) :
    exec (.settleEnd n) s = .next s.enterPaired := by
  show execSettleEnd n s = _
  simp only [execSettleEnd, hstate, hn, decide_true, Bool.and_self, if_true]

/-! ### Reports and copies -/

/-- A report of the partner while the pair is at least in CLOCK. -/
theorem exec_healthReport_of_joined {t : Fin 8} {c h : Bool} {n : BitVec 16} (hstate : 2 ≤ s.tstate) :
    exec (.healthReport t c h n) s =
      let u := (s.wrN R.TWIN_HEALTH (n.toNat + t.val * 2 ^ 16 + (if c = true then 2 ^ 30 else 0) +
        (if h = true then 2 ^ 31 else 0))).wrN R.TWIN_HEALTH_AGE 0
      .next (({ u with twin := { u.twin with staleRaised := false } } : State).followPartner t) := by
  show execHealthReport t c h n s = _
  simp only [execHealthReport, Nat.not_lt.2 hstate, if_false]

/-- Both lanes are lost while the engine follows no partner's clock: the pair is SOLO. -/
theorem State.linkLost_of_own_clock {raw : Int} (hjoined : s.tstate ≠ 0) (hown : s.baseMode ≠ .standby ∨ s.tstate < 2) :
    s.linkLost raw = (({ (s.leavePaired.setTstate 0).setFld R.TWIN_STATUS F.TWIN_STATUS_LANES 0 with
      twin := { ((s.leavePaired.setTstate 0).setFld R.TWIN_STATUS F.TWIN_STATUS_LANES 0).twin with locked := false } } :
        State).flag R.TWIN_FLAGS F.TWIN_FLAGS_LINK_DOWN).raise FS.TWIN_LINK_DOWN 0 0 := by
  have hfollows : (s.isStandby && decide (2 ≤ s.tstate)) = false := by
    rcases hown with h | h
    · rw [State.isStandby_of_other h, Bool.false_and]
    · rw [decide_eq_false (Nat.not_le.2 h), Bool.and_false]
  simp only [State.linkLost, hjoined, hfollows, Bool.false_eq_true, if_false]

/-- The item is a word of LIVE. -/
def CopyItem.ofLive : CopyItem → Bool
  | .slot l _ _ _ => l
  | .desc l _ _ => l
  | .dmap l _ _ => l
  | _ => false

/-- An item of LIVE is copied late in a block. -/
theorem CopyItem.late_of_live (i : CopyItem) (h : i.ofLive = true) : i.late = true := by
  cases i with
  | slot | desc | dmap => rfl
  | _ => exact absurd h Bool.false_ne_true

theorem exec_perBlockCopyApply_of_standby {items : List CopyItem} (hpaired : s.paired = true) (hblock : s.msc % 8 = 0)
    (hstandby : s.baseMode = .standby) (hlive : items.any CopyItem.ofLive = false) :
    exec (.perBlockCopyApply items none) s =
      let t := items.foldl State.takeItem s
      .next { t with twin := { t.twin with unchecked := t.twin.unchecked || items.any CopyItem.late } } := by
  have hnow : ¬ (!s.paired || decide (s.msc % 8 ≠ 0)) = true := by simp [hpaired, hblock]
  have htakes : ¬ (!s.isStandby) = true := by simp [State.isStandby_of_standby hstandby]
  have hkeeps : ¬ items.any CopyItem.ofLive = true := by simp only [hlive, Bool.false_eq_true, not_false_eq_true]
  exact (if_neg hnow).trans ((if_neg htakes).trans (congrArg (fun t : State => Host.Outcome.next
    { t with twin := { t.twin with unchecked := t.twin.unchecked || items.any CopyItem.late } }) (if_neg hkeeps)))

theorem State.compareCrc_of_equal {k c : Nat} (h : s.twin.destCrcs.find? (fun e => e.1 = k) = some (k, c)) :
    s.compareCrc k c = s.count R.TWIN_CHECK_CNT := by
  simp only [State.compareCrc, h, if_true]

end

/-- Settles O24: the joining of a pair state by state, then reports, requests, losses of lanes and copies. -/
theorem twinPair : Obligations.TwinPair := by
  unfold Obligations.TwinPair
  refine ⟨⟨?detected, ?notSolo, ?trained, ?notTrained, ?partnerNot, ?timeout, ?again, ?lock, ?noLock, ?transfer, ?duty,
    ?noTransfer, ?copied, ?notCopying, ?settled, ?exposed, ?notSettled⟩,
    ⟨?report, ?noReport, ?follow, ?stale, ?fresh, ?revert, ?noRevert, ?handover, ?noHandover, ?lane, ?noLane, ?both, ?solo,
    ?items, ?baste, fun s k c h => State.compareCrc_of_equal h, ?noCopy⟩⟩
  case detected =>
    intro s h
    exact congrArg Host.Outcome.next (if_pos h)
  case notSolo =>
    intro s h
    exact congrArg Host.Outcome.next (if_neg h)
  case trained =>
    intro l s hstate hlanes hrole
    exact exec_linkTrained_of_link hstate hlanes hrole
  case notTrained =>
    intro l s h
    exact exec_linkTrained_of_not_link h
  case partnerNot =>
    intro l s
    exact if_neg (by simp)
  case timeout =>
    intro n s hstate
    exact ⟨fun h => congrArg Host.Outcome.next (if_pos (by simp [hstate, h])),
      fun h => congrArg Host.Outcome.next (if_neg (by simp [h]))⟩
  case again =>
    intro n s hstate
    refine ⟨fun h => ?_, fun h => ?_⟩
    · show execLinkRetry n s = _
      simp only [execLinkRetry, hstate, h, decide_true, Bool.and_self, if_true]
    · show execLinkRetry n s = _
      simp only [execLinkRetry, Nat.not_le.2 h, decide_false, Bool.and_false, Bool.false_eq_true, if_false]
  case lock =>
    intro s hstandby hstate
    exact congrArg Host.Outcome.next (if_pos (by simp [State.isStandby_of_standby hstandby, hstate]))
  case noLock =>
    intro s h
    refine congrArg Host.Outcome.next (if_neg ?_)
    rcases h with h | h
    · simp [State.isStandby_of_other h]
    · simp [h]
  case transfer =>
    intro m tb a s hstate hblock hstandby hlocked hrefused
    have hexec := exec_mscTransfer_of_locked (m := m) (tb := tb) (a := a) hstate hblock hstandby hlocked hrefused
    refine ⟨fun hfirst => ⟨_, rfl, ?_⟩, fun hlater heq => ?_, fun hlater hne => ?_⟩
    · exact hexec.trans (congrArg Host.Outcome.next (if_pos hfirst))
    · exact hexec.trans (congrArg Host.Outcome.next ((if_neg hlater).trans (if_pos heq)))
    · exact hexec.trans (congrArg Host.Outcome.next ((if_neg hlater).trans (if_neg hne)))
  case duty =>
    intro m tb s hstate hblock hstandby hduty
    refine ⟨?_, ?_⟩ <;>
      rw [exec_mscTransfer_of_clock hstate hblock, State.isStandby_of_other hstandby, hduty] <;> rfl
  case noTransfer =>
    intro m tb a s h
    refine if_pos ?_
    rcases h with h | h <;> simp [h]
  case copied =>
    intro s h
    exact congrArg Host.Outcome.next (if_pos h)
  case notCopying =>
    intro s h
    exact congrArg Host.Outcome.next (if_neg h)
  case settled =>
    intro n s hstate hn hother
    rw [exec_settleEnd_of_settled hstate hn]
    exact congrArg Host.Outcome.next (if_pos (by rw [State.isStandby_of_other hother]; rfl))
  case exposed =>
    intro n m s hstate hn hstandby hfrom
    refine ⟨_, rfl, ?_⟩
    have htwin : (s.setTstate 5).twin = s.twin := State.twin_setFld _ _ _ _
    have hmsc : (s.setTstate 5).msc = s.msc := State.msc_setFld _ _ _ _
    have hafter : ∀ a v, ((s.setTstate 5).wrN a v).twin = s.twin := fun a v => by
      simp only [State.wrN, State.wr, htwin]
    rw [exec_settleEnd_of_settled hstate hn]
    simp only [State.enterPaired, State.isStandby_of_standby hstandby, htwin, hmsc, hfrom, hafter, Bool.not_true,
      Bool.false_eq_true, if_false]
  case notSettled =>
    intro n s h
    refine congrArg Host.Outcome.next (if_neg ?_)
    rcases h with h | h
    · simp [h]
    · simp [Nat.not_le.2 h]
  case report =>
    intro t c h n s hstate
    exact ⟨_, rfl, exec_healthReport_of_joined hstate⟩
  case noReport =>
    intro t c h n s hstate
    exact if_pos hstate
  case follow =>
    intro s hstate
    refine ⟨?_, ?_, ?_⟩ <;> simp [State.followPartner, hstate]
  case stale =>
    intro s hold hmax
    refine ⟨fun hnew => ⟨_, congrArg Host.Outcome.next (if_pos (by simp [hold, hmax, hnew])), rfl⟩, fun hshown => ?_⟩
    exact congrArg Host.Outcome.next (if_neg (by simp [hshown]))
  case fresh =>
    intro s hyoung
    exact congrArg Host.Outcome.next (if_neg (by simp only [Nat.not_le.2 (Nat.lt_succ_of_le hyoung), decide_false,
      Bool.false_and, Bool.false_eq_true, not_false_eq_true]))
  case revert =>
    intro n s hstandby hrevert hprefer hstate hhealthy hn
    have hrole : s.fld R.TWIN_CFG F.TWIN_CFG_PREFER = s.role := hprefer
    exact congrArg Host.Outcome.next (if_pos (by simp [State.isStandby_of_standby hstandby, hrevert, hrole, hstate, hhealthy, hn]))
  case noRevert =>
    intro n s h
    refine congrArg Host.Outcome.next (if_neg ?_)
    rcases h with h | h | h
    · simp [State.isStandby_of_other h]
    · simp [h]
    · simp [Nat.not_le.2 h]
  case handover =>
    intro s hduty hmode hstate
    exact congrArg Host.Outcome.next (if_pos (by simp [hduty, hmode, hstate]))
  case noHandover =>
    intro s h
    refine congrArg Host.Outcome.next (if_neg ?_)
    rcases h with h | h | h <;> simp [h]
  case lane =>
    intro l s hlanes
    refine ⟨_, if_neg (fun h => h hlanes), ((OnlyRegs.refl _ s).setFld _ _ _ (by decide)).flag _ _ (by decide), ?_⟩
    rw [State.rd_flag_ne _ _ (by decide), State.rd_setFld _ _ _ _ (by decide)]
  case noLane =>
    intro l s hlanes
    exact if_pos hlanes
  case both =>
    rintro raw s v hjoined hown rfl
    exact congrArg Host.Outcome.next (State.linkLost_of_own_clock hjoined hown)
  case solo =>
    intro raw s hsolo
    exact congrArg Host.Outcome.next (if_pos hsolo)
  case items =>
    rintro items s t hpaired hblock hstandby rfl hearly
    have hlate : items.any CopyItem.late = false := List.any_eq_false.2 (fun i hi => by rw [hearly i hi]; decide)
    have hlive : items.any CopyItem.ofLive = false := List.any_eq_false.2 (fun i hi hl =>
      Bool.false_ne_true ((hearly i hi).symm.trans (i.late_of_live hl)))
    rw [exec_perBlockCopyApply_of_standby hpaired hblock hstandby hlive, hlate]
    simp only [Bool.or_false]
  case baste =>
    intro k w g s hpaired hblock hstandby
    refine ⟨_, exec_perBlockCopyApply_of_standby hpaired hblock hstandby rfl, rfl, Sparse.get_set_same _ _ _ _, ?_, rfl, rfl⟩
    exact Bool.or_true _
  case noCopy =>
    intro items crc s h
    refine if_pos ?_
    rcases h with h | h <;> simp [h]

/-! ### Duty and TWIN_CMD -/

/-- Settles O25: each input or command under the condition in which it acts, and under the ones in which it does not. -/
theorem dutyAndTwinCommands : Obligations.DutyAndTwinCommands := by
  unfold Obligations.DutyAndTwinCommands
  refine ⟨?deassert, ?wasLow, ?assert, ?dual, ?takeover, ?stays, ?watchdog, ?runs, ?resync, ?noResync, ?release, ?noRelease,
    ?selftest, ?noSelftest, ?testEnd, ?noTest⟩
  case deassert =>
    intro s h
    exact congrArg Host.Outcome.next (if_pos h)
  case wasLow =>
    intro s h
    exact congrArg Host.Outcome.next (if_neg (by rw [h]; decide))
  case assert =>
    rintro s u rfl
    refine ⟨fun hduty hrole => ?_, fun h => ?_⟩
    · exact congrArg Host.Outcome.next (if_pos (Bool.and_eq_true_iff.2 ⟨hduty, hrole⟩))
    · refine congrArg Host.Outcome.next (if_neg ?_)
      rw [Bool.and_eq_true_iff]
      rintro ⟨hduty, hrole⟩
      rcases h with h | h
      · exact Bool.false_ne_true (h.symm.trans hduty)
      · exact Bool.false_ne_true (h.symm.trans hrole)
  case dual =>
    intro s hmode
    simp only [State.dualDuty, hmode]
  case takeover =>
    intro raw s hin hduty hrelease hmode
    refine congrArg Host.Outcome.next (if_pos ?_)
    rcases hmode with ⟨hstandby, hlost⟩ | hfallback
    · simp [State.takesDuty, hin, hduty, hrelease, State.isStandby_of_standby hstandby, hlost]
    · simp [State.takesDuty, hin, hduty, hrelease, hfallback]
  case stays =>
    intro raw s h
    refine congrArg Host.Outcome.next (if_neg ?_)
    rcases h with h | h <;> simp [State.takesDuty, h]
  case watchdog =>
    intro n s hn hduty
    exact congrArg Host.Outcome.next (if_pos (by simp [hn, hduty]))
  case runs =>
    intro n s h
    refine congrArg Host.Outcome.next (if_neg ?_)
    rcases h with h | h
    · simp [Nat.not_le.2 h]
    · simp [h]
  case resync =>
    intro s hlow hhigh
    exact congrArg Host.Outcome.next (if_pos (by simp [hlow, hhigh]))
  case noResync =>
    intro s h
    refine congrArg Host.Outcome.next (if_neg ?_)
    simp only [Bool.and_eq_true, decide_eq_true_eq]
    omega
  case release =>
    intro s hduty hready hrelease
    exact congrArg Host.Outcome.next (if_pos (by simp [hduty, hready, hrelease]))
  case noRelease =>
    intro s h
    refine congrArg Host.Outcome.next (if_neg ?_)
    rcases h with h | h <;> simp [h]
  case selftest =>
    intro s hstandby hstate
    exact congrArg Host.Outcome.next (if_pos (by simp [State.isStandby_of_standby hstandby, hstate]))
  case noSelftest =>
    intro s h
    refine congrArg Host.Outcome.next (if_neg ?_)
    simp only [State.isStandby, Bool.and_eq_true, Bool.or_eq_true, decide_eq_true_eq]
    rintro ⟨hstandby, hstate⟩
    exact h.elim (fun h => h hstandby) (fun h => by omega)
  case testEnd =>
    intro p s hstate hstandby
    exact congrArg Host.Outcome.next (if_pos (by simp [hstate, State.isStandby_of_standby hstandby]))
  case noTest =>
    intro p s hstate
    exact congrArg Host.Outcome.next ((if_neg (by simp [hstate])).trans (if_neg hstate))

end Sys2Proof.Machine
end

section
/-!
PROOF. Precision time (R267 to R290).
-/

namespace Sys2Proof.Machine

section
variable {s : State}

/-! ### Increments, steps and the tick -/

theorem incOk_iff {v : Nat} : incOk v = true ↔ v = 0 ∨ (1998 * 2 ^ 32 ≤ 1000 * v ∧ 1000 * v ≤ 2002 * 2 ^ 32) := by
  simp [incOk]

theorem State.tbApply_of_ok {n v : Nat}
    (hv : v = (s.shadowOf (R.PTP_TB_INC_LO n)).toNat + (s.shadowOf (R.PTP_TB_INC_HI n)).toNat % 256 * 2 ^ 32)
    (hok : incOk v = true) : s.tbApply n = s.setTb n { s.tb n with
      inc := some (s.shadowOf (R.PTP_TB_INC_LO n), s.shadowOf (R.PTP_TB_INC_HI n)) } := by
  simp only [State.tbApply, ← hv, hok, if_true]

theorem State.tbApply_of_refused {n v : Nat}
    (hv : v = (s.shadowOf (R.PTP_TB_INC_LO n)).toNat + (s.shadowOf (R.PTP_TB_INC_HI n)).toNat % 256 * 2 ^ 32)
    (hbad : ¬ incOk v = true) (hnone : (s.tb n).inc = none) :
    s.tbApply n = ((s.dropShadows [R.PTP_TB_INC_LO n, R.PTP_TB_INC_HI n]).flag R.PTP_FLAGS F.PTP_FLAGS_APPLY_ERR).raise
      FS.PTP_APPLY_ERR 0 0 := by
  simp only [State.tbApply, ← hv, hbad, hnone, Bool.false_eq_true, if_false, State.reloadShadows, List.foldl_nil]

theorem State.tickTb_of_no_inc {n : Nat} (hnone : (s.tb n).inc = none) : s.tickTb n = s.setTb n { s.tb n with
    inc := none, ticked := (s.tb n).step.isSome,
    time := ((s.tb n).time + (if s.bit R.PTP_STATUS F.PTP_STATUS_TICK_DEG = true then 20 else 1) * s.tbInc n) %
      (2 ^ 48 * (1000000000 * 2 ^ 32)) } := by
  simp only [State.tickTb, hnone, State.tickDeg, tbModulus, secUnit]

theorem State.tbStep_of_free {n : Nat} (h : (s.tb n).step = none) : s.tbStep n = (s.setTb n { s.tb n with
    step := some ((s.reg (R.PTP_TB_STEP_SEC n)).toInt, (s.reg (R.PTP_TB_STEP_NS n)).toInt), ticked := false }).setBit
      (R.PTP_TB_STAT n) F.PTP_TB_STAT_STEP_PEND true := by
  simp only [State.tbStep, h, Option.isSome_none, Bool.false_eq_true, if_false]

theorem State.tbStep_of_pending {n : Nat} {v : Int × Int} (h : (s.tb n).step = some v) :
    s.tbStep n = s.flag R.PTP_FLAGS F.PTP_FLAGS_STEP_BUSY := by
  simp only [State.tbStep, h, Option.isSome_some, if_true]

/-- A step in range whose time base has ticked moves the time, the epoch and the count. -/
theorem exec_stepApply_in_range {n : Fin 8} {sec ns now : Int} {u v w : State} (hstep : (s.tb n).step = some (sec, ns))
    (hticked : (s.tb n).ticked = true) (hu : u = s.setBit (R.PTP_TB_STAT n) F.PTP_TB_STAT_STEP_PEND false)
    (hnow : now = ((s.tb n).time : Int) + (sec * 1000000000 + ns) * (2 ^ 32 : Nat)) (hlow : -999999999 ≤ ns)
    (hhigh : ns ≤ 999999999) (hpos : 0 ≤ now) (hmax : now < (2 ^ 48 * (1000000000 * 2 ^ 32) : Nat))
    (hv : v = u.setTb n { s.tb n with step := none, ticked := false, time := now.toNat })
    (hw : w = ((v.setFld (R.PTP_TB_STAT n) F.PTP_TB_STAT_EPOCH (v.epoch n + 1)).count (R.PTP_TB_STEP_CNT n)).flag
      R.PTP_FLAGS F.PTP_FLAGS_STEP_DONE) (hanchor : w.anchoredTb ≠ some n.val) :
    exec (.stepApply n) s = .next (w.raise FS.PTP_STEP 0 0) := by
  have hns : ¬ 999999999 < ns.natAbs := by omega
  show execStepApply n s = _
  simp only [execStepApply, hstep, hticked, nsUnit, secUnit, tbModulus, ← hnow, hns, Int.not_lt.2 hpos, Int.not_le.2 hmax,
    decide_false, Bool.or_self, Bool.false_eq_true, if_false, ← hu, ← hv, ← hw, hanchor, Bool.false_and]

theorem exec_stepApply_out_of_range {n : Fin 8} {sec ns : Int} {u : State} (hstep : (s.tb n).step = some (sec, ns))
    (hticked : (s.tb n).ticked = true) (hu : u = s.setBit (R.PTP_TB_STAT n) F.PTP_TB_STAT_STEP_PEND false)
    (hbad : 999999999 < ns ∨ ns < -999999999) :
    exec (.stepApply n) s = .next (((u.setTb n { s.tb n with step := none, ticked := false }).flag R.PTP_FLAGS
      F.PTP_FLAGS_STEP_ERR).raise FS.PTP_STEP_ERR 0 0) := by
  have hns : 999999999 < ns.natAbs := by omega
  show execStepApply n s = _
  simp only [execStepApply, hstep, hticked, hns, decide_true, Bool.true_or, if_true, ← hu]

theorem exec_stepApply_of_idle {n : Fin 8} (h : (s.tb n).step = none ∨ (s.tb n).ticked = false) :
    exec (.stepApply n) s = .next s := by
  show execStepApply n s = _
  rcases h with h | h
  · simp only [execStepApply, h]
  · cases hstep : (s.tb n).step <;> simp only [execStepApply, h, hstep]

/-- The map offset captured is the exact difference and a free value within 1 ns. -/
theorem State.captureMap_map (n : Nat) : ((s.captureMap n).tb n).map =
    rdiv ((s.msc * 1000000000 * 65536 : Nat) : Int) 96000 - (((s.tb n).time / 2 ^ 16 : Nat) : Int) +
      (((s.freeVal % 131073 : Nat) : Int) - 65536) := by
  show (Sparse.get tbDefault (Sparse.set tbDefault s.ptp.tbs n _) n).map = _
  rw [Sparse.get_set_same]

@[simp] theorem State.tb_setTb (n : Nat) (t : TimeBase) : (s.setTb n t).tb n = t := Sparse.get_set_same _ _ _ _

theorem State.tbTimeRead_eq (n : Nat) : s.tbTimeRead n = (s.setTb n { s.tb n with timeLatch := some (s.tb n).time },
    BitVec.ofNat 32 ((s.tb n).time % (1000000000 * 2 ^ 32) / 2 ^ 32)) := by
  simp only [State.tbTimeRead, secUnit, nsUnit]

/-! ### Transmit timestamps -/

theorem answerWord_rd (r : State × Word) (a : Nat) : (answerWord r).rd a = r.1.rd a := rfl

theorem answerWord_reg (r : State × Word) (a : Nat) : (answerWord r).reg a = r.1.reg a := rfl

@[simp] theorem State.txQueue_setTxQueue (p : Nat) (q : List TxStamp) : (s.setTxQueue p q).txQueue p = q :=
  Sparse.get_set_same _ _ _ _

theorem State.txtsRead_of_cons {p : Nat} {e : TxStamp} {q : List TxStamp} (hq : s.txQueue p = e :: q) :
    s.txtsRead p = (((s.setTxQueue p q).wrN (R.PTP_TXTS_NS p) e.ns).wr64 (R.PTP_TXTS_SEC_LO p) (R.PTP_TXTS_SEC_HI p) e.sec,
      BitVec.ofNat 32 (2 ^ 31 + (if e.abort then 2 ^ 30 else 0) + e.tb * 2 ^ 24 + e.epoch * 2 ^ 20 + e.id)) := by
  simp only [State.txtsRead, hq]

end

/-- The four registers of one transmit timestamp queue are apart. -/
theorem txts_apart (p : Fin 4) : R.PTP_TXTS_NS p ≠ R.PTP_TXTS_SEC_LO p ∧ R.PTP_TXTS_NS p ≠ R.PTP_TXTS_SEC_HI p ∧
    R.PTP_TXTS_SEC_LO p ≠ R.PTP_TXTS_SEC_HI p := by
  revert p
  decide

/-- What the head of the queue loads: its time, in the registers of the queue. -/
theorem State.loadStamp_spec (s : State) (p : Fin 4) (ns sec : Nat) (u : State)
    (hu : u = (s.wrN (R.PTP_TXTS_NS p) ns).wr64 (R.PTP_TXTS_SEC_LO p) (R.PTP_TXTS_SEC_HI p) sec) :
    u.rd (R.PTP_TXTS_NS p) = ns % 2 ^ 32 ∧ u.rd (R.PTP_TXTS_SEC_LO p) = sec % 2 ^ 32 ∧
    OnlyRegs [R.PTP_TXTS_STAT p, R.PTP_TXTS_NS p, R.PTP_TXTS_SEC_LO p, R.PTP_TXTS_SEC_HI p] s u := by
  obtain ⟨hlo, hhi, hsec⟩ := txts_apart p
  subst hu
  refine ⟨?_, ?_, ?_⟩
  · rw [State.wr64, State.rd_wrN_ne _ _ hhi, State.rd_wrN_ne _ _ hlo, State.rd_wrN_self]
  · rw [State.wr64, State.rd_wrN_ne _ _ hsec, State.rd_wrN_self, Nat.mod_mod]
  · exact ((OnlyRegs.refl _ s).wr _ _ (by simp)).wr64 _ _ _ (by simp) (by simp)

/-- Settles O26: increments, ticks, steps and captures by the state of the time base, and the latched reads. -/
theorem timeBasesAndReads : Obligations.TimeBasesAndReads := by
  unfold Obligations.TimeBasesAndReads
  refine ⟨⟨?inc, ?tick, fun s n h => State.tickTb_of_no_inc h, ?step, ?busy, ?applied, ?refused,
    fun n s h => exec_stepApply_of_idle h, ?capture, ?noCapture, ?map⟩,
    ⟨?timeRead, ?mapRead, ?head, ?empty, ?push, ?full⟩⟩
  case inc =>
    intro n s v hv
    refine ⟨fun hok => congrArg Host.Outcome.next (State.tbApply_of_ok hv (incOk_iff.2 hok)), fun h0 hbad hnone => ?_⟩
    refine congrArg Host.Outcome.next (State.tbApply_of_refused hv (fun hok => ?_) hnone)
    rcases incOk_iff.1 hok with h | h
    · exact h0 h
    · omega
  case tick =>
    intro s hdeg
    have hdeg' : s.tickDeg = false := hdeg
    show execTimeBaseTick s = _
    simp only [execTimeBaseTick, hdeg', Bool.false_and, Bool.false_eq_true, if_false]
  case step =>
    intro n s h
    exact congrArg Host.Outcome.next (State.tbStep_of_free h)
  case busy =>
    intro n v s h
    exact congrArg Host.Outcome.next (State.tbStep_of_pending h)
  case applied =>
    intro n sec ns s u v now hstep hticked hu hnow hlow hhigh hpos hmax hv w hw hanchor
    exact exec_stepApply_in_range hstep hticked hu hnow hlow hhigh hpos hmax hv hw hanchor
  case refused =>
    intro n sec ns s u hstep hticked hu hbad
    exact exec_stepApply_out_of_range hstep hticked hu hbad
  case capture =>
    rintro s u v hblock rfl rfl
    exact if_neg (fun h => h hblock)
  case noCapture =>
    intro s h
    exact if_pos h
  case map =>
    intro s n
    exact ⟨_, by omega, by omega, State.captureMap_map n⟩
  case timeRead =>
    intro n s
    refine ⟨_, congrArg (fun r => Host.Outcome.next (answerWord r)) (State.tbTimeRead_eq n), rfl, ?_, ?_, rfl, rfl⟩
    · exact congrArg TimeBase.timeLatch (State.tb_setTb n _)
    · exact (congrArg TimeBase.time (State.tb_setTb (s := s) n { s.tb n with timeLatch := some (s.tb n).time }) :)
  case mapRead =>
    intro n s
    refine ⟨_, rfl, rfl, ?_, ?_, rfl, rfl⟩
    · exact congrArg TimeBase.mapLatch (State.tb_setTb n _)
    · exact (congrArg TimeBase.map (State.tb_setTb (s := s) n { s.tb n with mapLatch := some (s.tb n).map }) :)
  case head =>
    intro p s e q hq
    obtain ⟨hns, hsec, hload⟩ := (s.setTxQueue p q).loadStamp_spec p e.ns e.sec _ rfl
    have hqueue : OnlyRegs [R.PTP_TXTS_STAT p, R.PTP_TXTS_NS p, R.PTP_TXTS_SEC_LO p, R.PTP_TXTS_SEC_HI p]
        { s with ptp := { s.ptp with queues := Sparse.set (fun _ => []) s.ptp.queues p q } } (s.setTxQueue p q) :=
      (OnlyRegs.refl _ _).setFld _ _ _ (by simp)
    refine ⟨_, congrArg (fun r => Host.Outcome.next (answerWord r)) (State.txtsRead_of_cons hq), rfl, ?_, (answerWord_rd _ _).trans hns,
      (answerWord_rd _ _).trans hsec, fun a ha => (answerWord_reg _ a).trans ((hload.2 a ha).trans (hqueue.2 a ha)), ?_⟩
    · exact (s.txQueue_setTxQueue p q :)
    · exact hload.mem.trans hqueue.mem
  case empty =>
    intro p s hq
    show Host.Outcome.next (answerWord (s.txtsRead p)) = _
    simp only [State.txtsRead, hq, answerWord]
  case push =>
    intro s p e hroom
    exact if_pos hroom
  case full =>
    intro s p e hlen hshown
    simp only [State.pushStamp, Nat.not_lt.2 hlen, hshown, if_false, if_true]

end Sys2Proof.Machine
end

section
/-!
PROOF. The Stream Engine: links, flow groups, frames and packets (R284, R296 to R317).
-/

namespace Sys2Proof.Machine

section
variable {s : State}

/-! ### Links and legs -/

theorem exec_linkUp_of_lock {p : Fin 4} {ms : Nat} (hms : 10 ≤ ms) (hmode : s.fld (R.NET_PORT_CFG p) F.NET_PORT_CFG_MODE ≠ 0)
    (hlock : s.bit R.BELL_STATUS F.BELL_STATUS_NET_LOCK = true) :
    exec (.linkUp p ms) s = .next ((s.setBit (R.NET_PORT_STAT p) F.NET_PORT_STAT_BLOCK_LOCK true).setBit (R.NET_PORT_STAT p)
      F.NET_PORT_STAT_LINK true) := by
  show execLinkUp p ms s = _
  simp only [execLinkUp, hms, hmode, hlock, ne_eq, not_false_eq_true, decide_true, Bool.and_self, if_true]

/-- The entries of the frames in flight are pushed as aborted, and a link that was up is raised. -/
theorem exec_linkDown_eq (p : Fin 4) (req : List (Fin 8 × BitVec 16)) (s : State) : exec (.linkDown p req) s =
    let u := req.foldl (fun (t : State) (r : Fin 8 × BitVec 16) => t.abortStamp p r.1.val r.2.toNat)
      ((s.setBit (R.NET_PORT_STAT p) F.NET_PORT_STAT_BLOCK_LOCK false).setBit (R.NET_PORT_STAT p) F.NET_PORT_STAT_LINK false)
    .next (if s.linkUp p then (u.setBitAt R.NET_FLAGS (9 + p) true).raise FS.NET_LINK_DOWN p 0 else u) := by
  show Host.Outcome.next (s.linkDown p (req.map _)) = _
  simp only [State.linkDown, List.foldl_map]

theorem exec_legDown_of_late {f : Fin 1024} {u : State} (hrun : (s.rxFlow f).st = 3)
    (hup : s.bit (R.NET_RXF_STAT f) F.NET_RXF_STAT_LEG_A_UP = true)
    (hlate : 4 * (s.rxFmt f).packetTime ≤ s.msc - (s.rxFlow f).legA)
    (hu : u = (s.setBit (R.NET_RXF_STAT f) F.NET_RXF_STAT_LEG_A_UP false).flag R.NET_FLAGS F.NET_FLAGS_LEG_DOWN) :
    exec (.legDown f false) s = .next (if u.bit (R.NET_RXF_STAT f) F.NET_RXF_STAT_LEG_B_UP = true then
      u.raise FS.NET_LEG_DOWN f 0 else u) := by
  show execLegDown f false s = _
  simp only [execLegDown, hrun, hup, hlate, Bool.false_eq_true, if_false, decide_true, Bool.true_or, Bool.and_self, if_true, ← hu]

/-! ### Flow groups -/

theorem State.netApply_rx_of_ok {f : Nat} (hok : s.rxCheck f = 0) : s.netApply false f =
    let v := (s.wrN R.NET_APPLY_RESULT f).takeConfig (rxGroup f)
    v.putRx f { v.rxFlow f with st := if (v.rxFmt f).ch = 0 then 0 else 1 } := by
  simp only [State.netApply, hok, ne_eq, not_true_eq_false, Bool.false_eq_true, if_false, Nat.zero_mul, Nat.zero_add]

theorem State.netApply_tx_of_ok {f : Nat} (hok : s.txCheck f = 0) : s.netApply true f =
    let v := (s.wrN R.NET_APPLY_RESULT (2 ^ 23 + f)).takeConfig (txGroup f)
    (v.putTx f { v.txFlow f with st := if (v.txFmt f).ch = 0 then 0 else 1 }).syncLoads := by
  simp only [State.netApply, hok, ne_eq, not_true_eq_false, if_false, if_true, Nat.zero_mul, Nat.zero_add]

theorem State.netApply_rx_of_refused {f : Nat} (hbad : s.rxCheck f ≠ 0) : s.netApply false f =
    (((s.wrN R.NET_APPLY_RESULT (s.rxCheck f * 2 ^ 24 + f)).dropShadows (rxGroup f)).flag R.NET_FLAGS
      F.NET_FLAGS_APPLY_ERR).raise FS.NET_APPLY_ERR f 0 := by
  simp only [State.netApply, hbad, ne_eq, not_false_eq_true, Bool.false_eq_true, if_false, if_true, Nat.add_zero,
    State.reloadShadows, List.foldl_nil]

theorem State.netApply_tx_of_refused {f : Nat} (hbad : s.txCheck f ≠ 0) : s.netApply true f =
    (((s.wrN R.NET_APPLY_RESULT (s.txCheck f * 2 ^ 24 + 2 ^ 23 + f)).dropShadows (txGroup f)).flag R.NET_FLAGS
      F.NET_FLAGS_APPLY_ERR).raise FS.NET_APPLY_ERR (65536 + f) 0 := by
  simp only [State.netApply, hbad, ne_eq, not_false_eq_true, if_true, State.reloadShadows, List.foldl_nil]

/-! ### Frames -/

section
variable {p : Fin 4} {fr : Frame} {sub : Nat} {full : Bool}

theorem exec_frameReceive_lost (h : s.linkUp p = false ∨ 1 < fr.tags) : exec (.frameReceive p fr sub full) s = .next s := by
  refine if_pos ?_
  rcases h with h | h <;> simp [h]

/-- A frame that is too long, or whose check fails, on a link that is up. -/
theorem exec_frameReceive_bad (hlink : s.linkUp p = true) (htags : fr.tags ≤ 1)
    (hbad : fr.fcsOk = false ∨ fr.fragment = true ∨ fr.badSum = true ∨ 9022 < fr.size) :
    exec (.frameReceive p fr sub full) s = .next (s.count (R.NET_PORT_RXERR_CNT p)) := by
  have hhere : ¬ (!s.linkUp p || decide (1 < fr.tags)) = true := by simp [hlink, htags]
  have hsize : 9022 < fr.size → (if s.bit (R.NET_PORT_CFG p) F.NET_PORT_CFG_JUMBO then 9022 else 1522) < fr.size := by
    intro h
    split <;> omega
  refine (if_neg hhere).trans (if_pos ?_)
  simp only [Bool.or_eq_true, decide_eq_true_eq, Bool.not_eq_true']
  rcases hbad with h | h | h | h
  · exact .inl (.inl (.inr h))
  · exact .inl (.inr h)
  · exact .inr h
  · exact .inl (.inl (.inl (hsize h)))

/-- Where a good frame goes: to the flow that matches, or to Shepherd. -/
theorem exec_frameReceive_good (hlink : s.linkUp p = true) (htags : fr.tags ≤ 1) (hsize : fr.size ≤ 1522)
    (hfcs : fr.fcsOk = true) (hfrag : fr.fragment = false) (hsum : fr.badSum = false) :
    execFrameReceive p fr sub full s = match fr.udp with
      | some (src, dst, port, r) => match s.streamMatch p src dst port with
        | some (f, legB) => .next (s.streamPacket p f legB r)
        | none => .next (s.hostFrame p fr sub full)
      | none => .next (s.hostFrame p fr sub full) := by
  have hfits : ¬ (if s.bit (R.NET_PORT_CFG p) F.NET_PORT_CFG_JUMBO then 9022 else 1522) < fr.size := by
    split <;> omega
  have hhere : ¬ (!s.linkUp p || decide (1 < fr.tags)) = true := by simp [hlink, htags]
  have hgood : ¬ (decide ((if s.bit (R.NET_PORT_CFG p) F.NET_PORT_CFG_JUMBO then 9022 else 1522) < fr.size) || !fr.fcsOk ||
      fr.fragment || fr.badSum) = true := by
    simp only [hfits, hfcs, hfrag, hsum, decide_false, Bool.not_true, Bool.or_self, Bool.false_eq_true, not_false_eq_true]
  exact (if_neg hhere).trans (if_neg hgood)

end

theorem State.hostFrame_of_room {p sub tb : Nat} {fr : Frame} (hfw : s.boot.fwRuns = false) (htb : tb = s.rxTb p fr.domain) :
    s.hostFrame p fr sub false = { s with net := { s.net with host := s.net.host ++ [⟨p, tb, s.epoch tb,
      (s.stamp tb sub (s.portAdj (R.PTP_PORT_RX_ADJ p))).1, (s.stamp tb sub (s.portAdj (R.PTP_PORT_RX_ADJ p))).2⟩] } } := by
  simp only [State.hostFrame, hfw, Bool.false_eq_true, if_false, Bool.not_false, if_true, ← htb]

theorem State.streamPacket_of_format {p f : Nat} {l : Bool} {r : Rtp} (hpad : r.padding = false)
    (hbad : s.formatBad f r = true) : s.streamPacket p f l r =
      ((s.count (R.NET_PORT_RXERR_CNT p)).flag R.NET_FLAGS F.NET_FLAGS_FORMAT).raise FS.NET_RX_FORMAT f 0 := by
  simp only [State.streamPacket, hpad, hbad, Bool.false_eq_true, if_false, if_true]

/-! ### Packets of a transmit flow -/

section
variable {f : Fin 1024} {p : TxPacket} {rest : List TxPacket}

/-- A packet formed for leg A alone, at its edge in an engine that drives its outputs. -/
theorem exec_txPacketReady_of_legA (hformed : (s.txFlow f).formed = p :: rest) (hready : p.readyAt ≤ s.msc)
    (hdrives : s.drives = true) (hrel : s.releasing = false) (ha : p.legA = true) (hb : p.legB = false) :
    exec (.txPacketReady f) s = .next (((s.putTx f { s.txFlow f with
      formed := rest,
      ready := if s.legBlocked f false then (s.txFlow f).ready else
        (s.txFlow f).ready ++ [{ p with legA := true, legB := false }] }).countBy (R.NET_TXF_DROP_CNT f)
          (if s.legBlocked f false then 1 else 0)).txSettle f) := by
  show execTxPacketReady f s = _
  simp only [execTxPacketReady, hformed, Nat.not_lt.2 hready, hdrives, hrel, ha, hb]
  cases s.legBlocked f false <;> rfl

end

end

/-- Settles O27: links, legs and groups; frames by what is wrong with them and by whom they are for; packets. -/
theorem networkStreams : Obligations.NetworkStreams := by
  unfold Obligations.NetworkStreams
  refine ⟨⟨?up, ?notUp, ?down, ?leg, ?legStays, ?rxApply, ?txApply, ?rxRefused, ?txRefused⟩,
    ⟨?lost, ?bad, ?good, ?full, ?queued, ?padding, fun s p f l r hpad hbad => State.streamPacket_of_format hpad hbad,
    ?stamped, ?stream, ?noLink, ?ready, ?silent, ?noneFormed, ?discard, ?noneReady⟩⟩
  case up =>
    intro p ms s hms hmode hlock
    refine ⟨_, exec_linkUp_of_lock hms hmode hlock, ((OnlyRegs.refl _ s).setBit _ _ _ (by simp)).setBit _ _ _ (by simp), ?_⟩
    rw [State.rd_setBit _ _ _ _ (by decide), State.rd_setBit _ _ _ _ (by decide)]
    rfl
  case notUp =>
    intro p ms s h
    refine if_neg ?_
    rcases h with h | h
    · simp [Nat.not_le.2 h]
    · simp [h]
  case down =>
    rintro p req s u rfl
    rw [exec_linkDown_eq]
    exact ⟨fun hup => congrArg Host.Outcome.next (if_pos hup),
      fun hdown => congrArg Host.Outcome.next (if_neg (fun hup => Bool.false_ne_true (hdown.symm.trans hup)))⟩
  case leg =>
    intro f s u hrun hup hlate hu
    exact exec_legDown_of_late hrun hup hlate hu
  case legStays =>
    intro f s hlate
    show execLegDown f true s = _
    simp only [execLegDown, if_true, Nat.not_le.2 hlate, decide_false, Bool.and_false, Bool.false_eq_true, if_false]
  case rxApply =>
    rintro f s u v hok rfl rfl
    exact congrArg Host.Outcome.next (State.netApply_rx_of_ok hok)
  case txApply =>
    rintro f s u v hok rfl rfl
    exact congrArg Host.Outcome.next (State.netApply_tx_of_ok hok)
  case rxRefused =>
    intro f s hbad
    exact congrArg Host.Outcome.next (State.netApply_rx_of_refused hbad)
  case txRefused =>
    intro f s hbad
    exact congrArg Host.Outcome.next (State.netApply_tx_of_refused hbad)
  case lost =>
    intro p fr sub full s h
    exact exec_frameReceive_lost h
  case bad =>
    intro p fr sub full s hlink htags hbad
    exact exec_frameReceive_bad hlink htags hbad
  case good =>
    intro p fr sub full s hlink htags hsize hfcs hfrag hsum
    have hexec := exec_frameReceive_good (sub := sub) (full := full) hlink htags hsize hfcs hfrag hsum
    refine ⟨fun a b c r f l hudp hmatch => hexec.trans ?_, fun a b c r hudp hmatch => hexec.trans ?_,
      fun hudp => hexec.trans ?_⟩
    · simp only [hudp, hmatch]
    · simp only [hudp, hmatch]
    · simp only [hudp]
  case full =>
    intro s p fr sub
    exact if_pos rfl
  case queued =>
    intro s p fr sub tb hfw htb
    exact State.hostFrame_of_room hfw htb
  case padding =>
    intro s p f l r hpad
    exact if_pos hpad
  case stamped =>
    intro p tb id sub s hlink
    exact if_neg (by show ¬ (!s.linkUp p) = true; rw [show s.linkUp p = true from hlink]; decide)
  case stream =>
    intro p f l sub s hlink hleg
    refine (if_neg (by show ¬ (!s.linkUp p) = true; rw [show s.linkUp p = true from hlink]; decide)).trans ?_
    exact congrArg Host.Outcome.next (if_pos hleg)
  case noLink =>
    intro p w sub s hlink
    exact if_pos (by show (!s.linkUp p) = true; rw [show s.linkUp p = false from hlink]; rfl)
  case ready =>
    intro f s p rest hformed hready hdrives hrel ha hb
    refine ⟨fun hopen => ?_, fun hblocked => ?_⟩
    · rw [exec_txPacketReady_of_legA hformed hready hdrives hrel ha hb, hopen]
      rfl
    · rw [exec_txPacketReady_of_legA hformed hready hdrives hrel ha hb, hblocked]
      rfl
  case silent =>
    intro f s p rest hformed hready hdrives
    show execTxPacketReady f s = _
    simp only [execTxPacketReady, hformed, Nat.not_lt.2 hready, hdrives, if_false, Bool.not_false, Bool.true_or, if_true]
  case noneFormed =>
    intro f s hformed
    show execTxPacketReady f s = _
    simp only [execTxPacketReady, hformed]
  case discard =>
    intro f s p rest hready hlate
    show execTxPacketDiscard f s = _
    simp only [execTxPacketDiscard, hready, Nat.not_lt.2 hlate, if_false]
  case noneReady =>
    intro f s hready
    show execTxPacketDiscard f s = _
    simp only [execTxPacketDiscard, hready]

end Sys2Proof.Machine
end

section
/-!
PROOF. Local ports: groups and frames (R330 to R333, R345, R346), receivers, converters and clocks (R333 to R357).
-/

namespace Sys2Proof.Machine

section
variable {s : State}

/-! ### Groups -/

theorem State.portApply_of_refused {q : LocalPort} (hbad : (s.portCheck q).1 ≠ 0) : s.portApply q =
    (((s.wrN R.PORT_APPLY_RESULT ((s.portCheck q).1 * 2 ^ 24 + (s.portCheck q).2 * 2 ^ 16 + q.kind * 2 ^ 8 +
      q.index)).reloadShadows (q.mainGroup ++ q.csGroup) ((s.lport q).pend ++ (s.lport q).csPend)).flag R.PORT_FLAGS
        F.PORT_FLAGS_APPLY_ERR).raise FS.PORT_APPLY_ERR q.unit 0 := by
  have hport : ∀ a v, (s.wrN a v).lport q = s.lport q := fun a v => rfl
  simp only [State.portApply, hbad, hport, ne_eq, not_false_eq_true, if_true]

/-- An accepted group of a transmitter: taken at once with EN = 0, else captured for its frame boundary. -/
theorem State.portApply_atx_of_ok {k : Fin 32} (hok : (s.portCheck (.atx k)).1 = 0) {u : State}
    (hu : u = s.wrN R.PORT_APPLY_RESULT ((s.portCheck (.atx k)).1 * 2 ^ 24 + (s.portCheck (.atx k)).2 * 2 ^ 16 +
      (LocalPort.atx k).kind * 2 ^ 8 + (LocalPort.atx k).index)) :
    s.portApply (.atx k) =
      let v := if ((LocalPort.atx k).cfg (u.sh (LocalPort.atx k).cfgAddr)).en then
          u.putPort (.atx k) { s.lport (.atx k) with
            st := if (s.lport (.atx k)).st = 0 then 1 else (s.lport (.atx k)).st
            pend := (LocalPort.atx k).mainGroup.map (fun a => (a, u.shadowOf a))
            csPend := (LocalPort.atx k).csGroup.map (fun a => (a, u.shadowOf a)) }
        else ((u.takeConfig ((LocalPort.atx k).mainGroup ++ (LocalPort.atx k).csGroup)).putPort (.atx k) {}).wrN
          (R.PORT_ATX_STAT k) 0
      (v.setFld R.PORT_STATUS F.PORT_STATUS_ASRC_USED (v.asrcUsed none)).directOverride [] := by
  have hwrite : ∀ a v, (s.wrN a v).lport (.atx k) = s.lport (.atx k) := fun a v => rfl
  have hport : u.lport (.atx k) = s.lport (.atx k) := by rw [hu, hwrite]
  unfold State.portApply
  dsimp only
  rw [← hu]
  simp only [hok, hport, ne_eq, not_true_eq_false, if_false]
  cases ((LocalPort.atx k).cfg (u.sh (LocalPort.atx k).cfgAddr)).en <;>
    simp only [Bool.not_true, Bool.not_false, Bool.false_eq_true, if_false, if_true]

theorem exec_portGroupTakeEffect_atx {k : Fin 32} (hrun : (s.lport (.atx k)).st ≠ 0) (hpend : (s.lport (.atx k)).pend ≠ []) :
    exec (.portGroupTakeEffect (.atx k) false) s = .next ((s.activateConfig (s.lport (.atx k)).pend).putPort (.atx k)
      { s.lport (.atx k) with pend := [] }) := by
  have hwaits : ¬ ((s.lport (.atx k)).pend.isEmpty || false) = true := by simpa using hpend
  exact (if_neg hrun).trans (if_neg hwaits)

theorem exec_portGroupTakeEffect_cs {q : LocalPort} (hrun : (s.lport q).st ≠ 0) (hpend : (s.lport q).csPend ≠ [])
    (hblock : s.blockFrame q = true) :
    exec (.portGroupTakeEffect q true) s = .next ((s.activateConfig (s.lport q).csPend).putPort q
      { s.lport q with csPend := [] }) := by
  have hwaits : ¬ ((s.lport q).csPend.isEmpty || !s.blockFrame q) = true := by simpa [hblock] using hpend
  exact (if_neg hrun).trans ((if_pos rfl).trans (if_neg hwaits))

/-! ### Frames and rates -/

/-- The port is OFF or has no clock. -/
def State.portIdle (s : State) (q : LocalPort) : Bool := decide ((s.lport q).st = 0) || !s.portLive q

theorem State.portIdle_iff {q : LocalPort} : s.portIdle q = true ↔ (s.lport q).st = 0 ∨ s.portLive q = false := by
  simp [State.portIdle]

theorem State.portIdle_of_runs {q : LocalPort} (hrun : (s.lport q).st ≠ 0) (hlive : s.portLive q = true) :
    ¬ s.portIdle q = true := by
  simp [State.portIdle, hrun, hlive]

/-- The frame of a synchronous TDM port that did not slip. -/
theorem exec_localFrameReceive_tdm {p : Fin 16} {ts : Nat} {ws : List RxWord} {c : PortCfg} {x : LPort}
    {a : Nat × (Nat × Nat) × Bool} (hc : c = s.portCfg (.tdm p)) (hx : x = s.lport (.tdm p)) (hrun : x.st ≠ 0)
    (hlive : s.portLive (.tdm p) = true) (hsync : c.asrc = false) (ha : a = assign x.anchor c.hi ts) (hslip : a.2.2 = false) :
    exec (.localFrameReceive (.tdm p) ts ws) s = .next (s.setPort (.tdm p) ((List.range (min 32 c.slots)).foldl
      (fun (y : LPort) i => match ws[i]? with
        | some w => y.setRxCh i ((y.rxCh i).enter (a.1 + (if c.hi = true then 16 else 32))
          (some (fromExternal c.bits (Machine.sext c.bits w.bits.toNat))) false false)
        | none => y) { x with anchor := some a.2.1 })) := by
  subst hc hx ha
  refine (if_neg (State.portIdle_of_runs hrun hlive)).trans ?_
  simp only [hsync, hslip, Bool.false_and, Bool.false_eq_true, if_false] <;> rfl

theorem exec_localFrameReceive_idle {q : LocalPort} (ts : Nat) (ws : List RxWord) (h : s.portIdle q = true) :
    exec (.localFrameReceive q ts ws) s = .next s := if_pos h

theorem exec_rateMeasure_idle {q : LocalPort} (rate : Nat) (h : s.portIdle q = true) :
    exec (.rateMeasure q rate) s = .next s := if_pos h

/-- The measured rate of a receiver on the synchronous path. -/
theorem exec_rateMeasure_arx {r : Fin 32} {rate : Nat} (hrun : (s.lport (.arx r)).st ≠ 0)
    (hlive : s.portLive (.arx r) = true) (hsync : (s.portCfg (.arx r)).asrc = false) {off : Bool}
    (hoff : off = decide (16 * (s.portCfg (.arx r)).rate < 1000 * ((rate : Int) - (16 * (s.portCfg (.arx r)).rate : Nat)).natAbs)) :
    exec (.rateMeasure (.arx r) rate) s =
      let u := s.wrN (R.PORT_ARX_RATE r) rate
      let v := u.setBit (R.PORT_ARX_STAT r) F.PORT_ARX_STAT_RATE_ERR off
      .next (if off && !u.rateErr (.arx r) then
        (v.flag R.PORT_FLAGS F.PORT_FLAGS_RATE_ERR).raise FS.PORT_RATE_ERR (LocalPort.arx r).unit 0 else v) := by
  subst hoff
  refine (if_neg (State.portIdle_of_runs hrun hlive)).trans ?_
  simp only [hsync, Bool.false_eq_true, if_false]

end

theorem assign_near {m k j ts : Nat} {hi : Bool} (hk : k = if hi then 1 else 2) (hlow : ((m + k * j : Nat) : Int) - 4 ≤ (ts / 256 : Nat))
    (hhigh : ((ts / 256 : Nat) : Int) ≤ (m + k * j : Nat) + 4) : assign (some (m, j)) hi ts = (m + k * j, (m, j + 1), false) := by
  have hnear : ¬ 4 < (((m + k * j : Nat) : Int) - ((ts / 256 : Nat) : Int)).natAbs := by omega
  simp only [assign, ← hk, hnear, if_false]

theorem assign_far {m k j ts : Nat} {hi : Bool} (hk : k = if hi then 1 else 2) (hfar : m + k * j + 4 < ts / 256) :
    assign (some (m, j)) hi ts = (ts / 256, (ts / 256, 1), true) := by
  have hfar' : 4 < (((m + k * j : Nat) : Int) - ((ts / 256 : Nat) : Int)).natAbs := by omega
  simp only [assign, ← hk, hfar', if_true]

/-- Settles O28: the group of a port refused, taken or waiting; frames, rates and the position of a frame. -/
theorem portGroupsAndFrames : Obligations.PortGroupsAndFrames := by
  unfold Obligations.PortGroupsAndFrames
  refine ⟨?refused, ?accepted, ?main, ?cs, ?off, ?frame, ?idle, ?atx, ?rate, fun hi ts => rfl,
    fun m j ts hlow hhigh => assign_near rfl hlow hhigh, fun m j ts hfar => assign_far rfl hfar⟩
  case refused =>
    intro q s hbad
    exact congrArg Host.Outcome.next (State.portApply_of_refused hbad)
  case accepted =>
    intro k s u v hok hu
    have happly := State.portApply_atx_of_ok hok hu
    refine ⟨fun hoff hv => ?_, fun hon hv => ?_⟩
    · subst hv
      refine congrArg Host.Outcome.next (happly.trans ?_)
      simp only [hoff, Bool.false_eq_true, if_false]
    · subst hv
      refine congrArg Host.Outcome.next (happly.trans ?_)
      simp only [hon, if_true]
  case main =>
    intro k s hrun hpend
    exact exec_portGroupTakeEffect_atx hrun hpend
  case cs =>
    intro q s hrun hpend hblock
    exact exec_portGroupTakeEffect_cs hrun hpend hblock
  case off =>
    intro q b s hoff
    exact if_pos hoff
  case frame =>
    intro p ts ws s c x a hc hx hrun hlive hsync ha hslip
    exact exec_localFrameReceive_tdm hc hx hrun hlive hsync ha hslip
  case idle =>
    intro q ts ws rate s h
    exact ⟨exec_localFrameReceive_idle ts ws (State.portIdle_iff.2 h), exec_rateMeasure_idle rate (State.portIdle_iff.2 h)⟩
  case atx =>
    intro k ts ws rate s
    exact ⟨ite_self _, ite_self _⟩
  case rate =>
    rintro r rate s u hrun hlive hsync rfl
    refine ⟨fun hnear => ?_, fun hfar hfirst => ?_⟩
    · rw [exec_rateMeasure_arx hrun hlive hsync (decide_eq_false (Nat.not_lt.2 hnear)).symm]
      rfl
    · rw [exec_rateMeasure_arx hrun hlive hsync (decide_eq_true hfar).symm]
      simp only [hfirst, Bool.not_false, Bool.and_self, if_true]

/-! ### Reads of the channel status -/

theorem State.latchOf_latchHi_self (s : State) (a : Nat) (v : Word) : (s.latchHi a v).latchOf a = some v := by
  simp [State.latchOf, State.latchHi]

theorem State.latchOf_latchHi_ne (s : State) {a b : Nat} (v : Word) (h : b ≠ a) :
    (s.latchHi a v).latchOf b = s.latchOf b := by
  have hcons : ((a, v) :: s.latch.filter (fun e => decide (e.1 ≠ a))).find? (fun e => decide (e.1 = b)) =
      s.latch.find? (fun e => decide (e.1 = b)) := by
    rw [List.find?_cons_of_neg (by simp [h.symm]), List.find?_filter]
    refine congrArg (fun p => s.latch.find? p) (funext fun e => ?_)
    by_cases heq : e.1 = b <;> simp [heq, h]
  exact congrArg (Option.map (·.2)) hcons

theorem State.latchOf_foldl_latchHi (s : State) (at_ : Nat → Nat) (val : Nat → Word)
    (hinj : ∀ v w, at_ v = at_ w → v = w) (l : List Nat) {w : Nat} (hw : w ∈ l ∨ s.latchOf (at_ w) = some (val w)) :
    (l.foldl (fun (t : State) i => t.latchHi (at_ i) (val i)) s).latchOf (at_ w) = some (val w) := by
  induction l generalizing s with
  | nil => exact hw.resolve_left List.not_mem_nil
  | cons i l ih =>
    refine ih (s.latchHi (at_ i) (val i)) ?_
    by_cases heq : w = i
    · exact .inr (by rw [heq, State.latchOf_latchHi_self])
    · rw [State.latchOf_latchHi_ne _ _ (fun h => heq (hinj _ _ h))]
      exact hw.imp_left fun h => (List.mem_cons.1 h).resolve_left heq

theorem State.foldl_latchHi_keeps (s : State) (at_ : Nat → Nat) (val : Nat → Word) (l : List Nat) :
    (l.foldl (fun (t : State) i => t.latchHi (at_ i) (val i)) s).regs = s.regs ∧
    (l.foldl (fun (t : State) i => t.latchHi (at_ i) (val i)) s).mem = s.mem := by
  induction l generalizing s with
  | nil => exact ⟨rfl, rfl⟩
  | cons i l ih => exact ih (s.latchHi (at_ i) (val i))

theorem arxGroupAddr_injective (r : Nat) (g : Fin 4) {v w : Nat} (h : arxGroupAddr r g v = arxGroupAddr r g w) : v = w := by
  match g with
  | 0 => simp only [arxGroupAddr, R.PORT_ARX_CS_A] at h; omega
  | 1 => simp only [arxGroupAddr, R.PORT_ARX_CS_B] at h; omega
  | 2 => simp only [arxGroupAddr, R.PORT_ARX_UB_A] at h; omega
  | 3 => simp only [arxGroupAddr, R.PORT_ARX_UB_B] at h; omega

/-- The latches of a read of word 0, before CS_NEW is cleared. -/
def State.csLatched (s : State) (r : Nat) (g : Fin 4) : State :=
  [1, 2, 3, 4, 5].foldl (fun (t : State) w => t.latchHi (arxGroupAddr r g w) (s.reg (arxGroupAddr r g w))) s

theorem State.csLatch_eq (s : State) (r : Nat) (g : Fin 4) : s.csLatch r g =
    if g = 0 then (s.csLatched r g).setBit (R.PORT_ARX_STAT r) F.PORT_ARX_STAT_CS_NEW false else s.csLatched r g := rfl

theorem State.csLatched_spec (s : State) (r : Nat) (g : Fin 4) :
    (∀ w, 1 ≤ w → w ≤ 5 → (s.csLatched r g).latchOf (arxGroupAddr r g w) = some (s.reg (arxGroupAddr r g w))) ∧
    (∀ a, (s.csLatched r g).reg a = s.reg a) ∧ (s.csLatched r g).mem = s.mem := by
  obtain ⟨hregs, hmem⟩ := s.foldl_latchHi_keeps (arxGroupAddr r g) (fun w => s.reg (arxGroupAddr r g w)) [1, 2, 3, 4, 5]
  refine ⟨fun w hlow hhigh => ?_, fun a => congrArg (fun m => Sparse.get resetAt m a) hregs, hmem⟩
  exact s.latchOf_foldl_latchHi _ (fun w => s.reg (arxGroupAddr r g w)) (fun _ _ => arxGroupAddr_injective r g) _
    (.inl (by simp only [List.mem_cons, List.not_mem_nil]; omega))

/-- The five other words of the group are latched; only group CS_A touches a register, CS_NEW. -/
theorem State.csLatch_spec (s : State) (r : Nat) (g : Fin 4) :
    (∀ w, 1 ≤ w → w ≤ 5 → (s.csLatch r g).latchOf (arxGroupAddr r g w) = some (s.reg (arxGroupAddr r g w))) ∧
    RegsBut [R.PORT_ARX_STAT r] s (s.csLatch r g) ∧ (s.csLatch r g).mem = s.mem ∧
    (g = 0 → (s.csLatch r g).rd (R.PORT_ARX_STAT r) = F.PORT_ARX_STAT_CS_NEW.put (s.rd (R.PORT_ARX_STAT r)) 0) := by
  obtain ⟨hlatch, hregs, hmem⟩ := s.csLatched_spec r g
  rw [State.csLatch_eq]
  split
  · refine ⟨hlatch, fun a ha => ?_, hmem, fun _ => ?_⟩
    · exact (State.reg_setFld_ne _ _ _ (List.ne_of_not_mem_cons ha)).trans (hregs a)
    · rw [State.rd_setBit _ _ _ _ (by decide), State.rd, hregs]
      rfl
  · exact ⟨hlatch, fun a _ => hregs a, hmem, fun h0 => absurd h0 ‹_›⟩

/-- Settles O29: each event of a receiver, a converter or a clock under the condition in which it acts, and under the others. -/
theorem receiversAndClocks : Obligations.ReceiversAndClocks := by
  unfold Obligations.ReceiversAndClocks
  refine ⟨?lock, ?lockOff, ?unlock, ?unlocked, ?block, ?broken, ?csRead, ?asrcLock, ?asrcStays, ?asrcUnlock, ?asrcFree,
    ?clkLoss, ?clkSync, ?clkReturn, ?clkThere, ?tdmLoss, ?tdmReturn, ?tdmOff⟩
  case lock =>
    intro r s hrun
    exact if_neg hrun
  case lockOff =>
    intro r s hoff
    exact if_pos hoff
  case unlock =>
    intro r s hlock
    exact ⟨_, rfl, if_neg (by rw [hlock]; decide)⟩
  case unlocked =>
    intro r w a b c d s hlock
    exact ⟨if_pos (by rw [hlock]; rfl), if_pos (by rw [hlock]; rfl)⟩
  case block =>
    intro r a b c d s hlock
    exact (if_neg (by rw [hlock]; decide)).trans (if_neg (by decide))
  case broken =>
    intro r a b c d s hlock
    exact (if_neg (by rw [hlock]; decide)).trans (if_pos rfl)
  case csRead =>
    intro r g s
    obtain ⟨hlatch, hregs, hmem, hnew⟩ := s.csLatch_spec r g
    exact ⟨_, rfl, rfl, hlatch, hregs, hmem, hnew⟩
  case asrcLock =>
    intro q s hrun hasrc hlive hfree
    exact if_neg (by simp [hrun, hasrc, hlive, hfree])
  case asrcStays =>
    intro q s h
    refine if_pos ?_
    rcases h with h | h <;> simp [h]
  case asrcUnlock =>
    intro q s hlock
    exact if_neg (by rw [hlock]; decide)
  case asrcFree =>
    intro q s hlock
    exact if_pos (by rw [hlock]; rfl)
  case clkLoss =>
    intro k s hrun hasrc hfirst
    refine (if_neg (by simp [hrun, hasrc])).trans ?_
    exact congrArg Host.Outcome.next (if_neg (by rw [hfirst]; decide))
  case clkSync =>
    intro k s hsync
    exact if_pos (by simp [hsync])
  case clkReturn =>
    intro k s hlost
    exact if_pos hlost
  case clkThere =>
    intro k s hthere
    exact if_neg (by rw [hthere]; decide)
  case tdmLoss =>
    intro p s hrun hslave hclk
    exact if_neg (by simp [hrun, hslave, hclk])
  case tdmReturn =>
    intro p s hrun
    exact if_neg hrun
  case tdmOff =>
    intro p s hoff
    exact ⟨if_pos (by simp [hoff]), if_pos hoff⟩

end Sys2Proof.Machine
end

section
/-!
PROOF. Configuration of folds (R478, R479).
-/

namespace Sys2Proof.Machine

/-! ### The rows of a fold's words -/

/-- The row of a word of a fold in the register tables. -/
def FoldWord.row (w : FoldWord) : RegSpec :=
  (regSpec? (w.addr 0)).getD ⟨0, 0, 0, 0, 0, .ro, 0, 0, 0, false, false⟩

theorem regSpec?_foldCfg (f : Fin 128) : regSpec? (R.FOLD_CFG f) = some FoldWord.cfg.row := by
  revert f
  decide

theorem regSpec?_foldWord (f : Fin 128) (w : FoldWord) (hw : ∀ k, w ≠ .key k) : regSpec? (w.addr f) = some w.row := by
  revert f
  cases w with
  | key k => exact absurd rfl (hw k)
  | cfg => decide
  | ringCfg => decide
  | cringLo => decide
  | cringHi => decide
  | rringLo => decide
  | rringHi => decide

theorem regSpec?_foldKey (f : Fin 128) (k : Fin 8) : regSpec? (R.FOLD_KEY f k) = some (FoldWord.key k).row := by
  revert f k
  decide

theorem index_foldWord (f : Fin 128) (w : FoldWord) (hw : ∀ k, w ≠ .key k) : (w.row.index (w.addr f)).1 = f.val := by
  revert f
  cases w with
  | key k => exact absurd rfl (hw k)
  | cfg => decide
  | ringCfg => decide
  | cringLo => decide
  | cringHi => decide
  | rringLo => decide
  | rringHi => decide

theorem index_foldKey (f : Fin 128) (k : Fin 8) : (FoldWord.key k).row.index (R.FOLD_KEY f k) = (f.val, k.val) := by
  revert f k
  decide

/-- The six words but the key are RW registers with a rule of their own. -/
theorem State.rwWrite_foldWord (s : State) (w : FoldWord) (hw : ∀ k, w ≠ .key k) (a i j v msk : Nat) (m : Master)
    (addr hwv : Nat) : s.rwWrite w.row a i j v msk m addr hwv = s.foldCfgWrite i w v msk m addr := by
  cases w with
  | key k => exact absurd rfl (hw k)
  | cfg => rfl
  | ringCfg => rfl
  | cringLo => rfl
  | cringHi => rfl
  | rringLo => rfl
  | rringHi => rfl

theorem FoldWord.row_acc (w : FoldWord) : w.row.acc = match w with | .key _ => .wo | _ => .rw := by
  cases w with
  | key k => revert k; decide
  | cfg => rfl
  | ringCfg => rfl
  | cringLo => rfl
  | cringHi => rfl
  | rringLo => rfl
  | rringHi => rfl

theorem State.woWrite_foldKey (s : State) (k : Fin 8) (i v msk : Nat) (m : Master) (addr : Nat) :
    s.woWrite (FoldWord.key k).row.addr i k v msk m addr = s.foldCfgWrite i (.key k) v msk m addr := by
  have haddr : (FoldWord.key k).row.addr = R.FOLD_KEY 0 0 := by
    revert k
    decide
  rw [haddr]
  have h : s.woWrite (R.FOLD_KEY 0 0) i k v msk m addr = s.foldCfgWrite i (.key (Fin.ofNat 8 k)) v msk m addr := rfl
  rw [h]
  simp

/-- A write that reaches a word of a fold is judged by the rules of folds. -/
theorem State.writeReg_foldWord (s : State) (f : Fin 128) (w : FoldWord) (v msk : Nat) (m : Master) (addr hwv : Nat) :
    s.writeReg (w.addr f) v msk m addr hwv = s.foldCfgWrite f w v msk m addr := by
  by_cases hw : ∀ k, w ≠ .key k
  · have hacc : w.row.acc = .rw := by
      rw [FoldWord.row_acc]
      cases w with
      | key k => exact absurd rfl (hw k)
      | _ => rfl
    simp only [State.writeReg, regSpec?_foldWord f w hw, hacc, index_foldWord f w hw, State.rwWrite_foldWord s w hw]
  · obtain ⟨k, rfl⟩ := Classical.not_forall_not.1 hw
    have hacc : (FoldWord.key k).row.acc = .wo := FoldWord.row_acc _
    show s.writeReg (R.FOLD_KEY f k) v msk m addr hwv = _
    simp only [State.writeReg, regSpec?_foldKey, hacc, index_foldKey, State.woWrite_foldKey]

/-- The words of folds lie in a window of their own, which is not copied to the partner (R437). -/
theorem foldWord_page (f : Fin 128) (w : FoldWord) : w.addr f / 0x100000 = 0x40C ∧ w.addr f % 4 = 0 := by
  have hf := f.isLt
  cases w with
  | key k =>
    have hk := k.isLt
    simp only [FoldWord.addr, R.FOLD_KEY]
    omega
  | cfg => simp only [FoldWord.addr, R.FOLD_CFG]; omega
  | ringCfg => simp only [FoldWord.addr, R.FOLD_RING_CFG]; omega
  | cringLo => simp only [FoldWord.addr, R.FOLD_CRING_LO]; omega
  | cringHi => simp only [FoldWord.addr, R.FOLD_CRING_HI]; omega
  | rringLo => simp only [FoldWord.addr, R.FOLD_RRING_LO]; omega
  | rringHi => simp only [FoldWord.addr, R.FOLD_RRING_HI]; omega

theorem copiedReg_foldWord (f : Fin 128) (w : FoldWord) : copiedReg (w.addr f) = false := by
  simp [copiedReg, (foldWord_page f w).1]

theorem State.busWrite_foldWord {s : State} {m : Master} {f : Fin 128} {w : FoldWord}
    (ht : s.targetFor m (m.regAddr (w.addr f)) = .reg (w.addr f)) (hlock : s.MayWrite m) (v msk hwv : Nat) :
    s.busWrite m (m.regAddr (w.addr f)) v msk hwv = (s.foldCfgWrite f w v msk m (m.regAddr (w.addr f)), false) := by
  have hcopied : (Target.reg (w.addr f)).copied = false := copiedReg_foldWord f w
  have hview : (decide (m = .bar0) && s.bit R.SYS_VIEW_LOCK F.SYS_VIEW_LOCK_BAR0_RO) = false := by
    by_cases hm : m = .bar0
    · rw [hlock hm, Bool.and_false]
    · rw [decide_eq_false hm, Bool.false_and]
  simp only [State.busWrite, m.regAddr_aligned (foldWord_page f w).2, ht, hview, hcopied, Bool.false_and, Bool.false_eq_true,
    reduceCtorEq, if_false, State.putTarget, State.writeReg_foldWord]

/-! ### What a write does -/

section
variable {s : State} {f : Fin 128} {v msk a : Nat} {m : Master}

/-- LS_LOCK refuses a write of FOLD_CFG that ends a LIFE-SAFETY fold, or makes a fold one or no longer one. -/
def State.lsRefuses (s : State) (f new : Nat) : Bool :=
  s.bit R.FOLD_CTRL F.FOLD_CTRL_LS_LOCK && (if s.foldEn f then decide (s.foldClass f = 3) && !decide (F.FOLD_CFG_EN.of new = 1)
    else decide (F.FOLD_CFG_CLASS.of new = 3) != decide (s.foldClass f = 3))

theorem State.foldCfgWrite_cfg {r : RegSpec} {new : Nat} (hr : regSpec? (R.FOLD_CFG f) = some r)
    (hnew : new = rwWord r f (s.rd (R.FOLD_CFG f)) v msk) : s.foldCfgWrite f .cfg v msk m a =
      if s.lsRefuses f new then s.violate a m 4
      else State.ccuConfigChange s (if s.foldEn f then
          if F.FOLD_CFG_EN.of new = 1 then s.flag R.FOLD_FLAGS F.FOLD_FLAGS_CFG_IGN
          else (s.flag R.FOLD_FLAGS F.FOLD_FLAGS_CFG_IGN).disableFold f
        else if F.FOLD_CFG_EN.of new = 1 then (s.wrN (R.FOLD_CFG f) (F.FOLD_CFG_EN.put new 0)).enableFold f
        else s.wrN (R.FOLD_CFG f) (F.FOLD_CFG_EN.put new 0)) (R.FOLD_CFG f) := by
  subst hnew
  simp only [State.foldCfgWrite, FoldWord.addr, hr, State.lsRefuses, decide_true, Bool.true_or, if_true, Bool.true_and,
    Bool.false_and, Bool.or_false]
  by_cases hf : s.foldEn f = true <;> by_cases hen : F.FOLD_CFG_EN.of (rwWord r f (s.rd (R.FOLD_CFG f)) v msk) = 1 <;> simp [hf, hen]

theorem State.foldCfgWrite_enabled {w : FoldWord} (hen : s.foldEn f = true)
    (hlock : s.bit R.FOLD_CTRL F.FOLD_CTRL_LS_LOCK = false) (hw : w ≠ .cfg) : s.foldCfgWrite f w v msk m a =
      State.ccuConfigChange s (s.flag R.FOLD_FLAGS F.FOLD_FLAGS_CFG_IGN) (w.addr f) := by
  simp only [State.foldCfgWrite, hen, hlock, hw, Bool.false_and, Bool.false_eq_true, if_false, if_true, decide_false]

theorem State.foldCfgWrite_key (k : Fin 8) : s.foldCfgWrite f (.key k) v msk m a =
    if s.bit R.FOLD_CTRL F.FOLD_CTRL_LS_LOCK = true ∧ s.foldClass f = 3 then s.violate a m 4
    else State.ccuConfigChange s (if s.foldEn f then s.flag R.FOLD_FLAGS F.FOLD_FLAGS_CFG_IGN
      else s.wrN (R.FOLD_KEY f k) (mergeBits (s.rd (R.FOLD_KEY f k)) v msk)) (R.FOLD_KEY f k) := by
  simp [State.foldCfgWrite, FoldWord.addr]

/-! ### A fold that is disabled -/

theorem State.fold_setFold (s : State) (f : Nat) (x : Fold) : (s.setFold f x).fold f = x := Sparse.get_set_same _ _ _ _

theorem State.fold_setBit (s : State) (a : Nat) (g : Fld) (b : Bool) (f : Nat) : (s.setBit a g b).fold f = s.fold f := rfl

theorem State.reg_setFold (s : State) (f : Nat) (x : Fold) (a : Nat) : (s.setFold f x).reg a = s.reg a := rfl

/-- With nothing outstanding a fold that closes starts anew but for its tokens. -/
theorem State.closeFold_of_done {f : Nat} (hclosing : (s.fold f).closing = true) (htaken : (s.fold f).taken = [])
    (hwaiting : (s.fold f).waiting = []) : s.closeFold f =
      ((((s.setFold f { ({} : Fold) with tokens := (s.fold f).tokens, tokAt := (s.fold f).tokAt }).wrN (R.FOLD_CHEAD f) 0).wrN
        (R.FOLD_RTAIL f) 0).wrN (R.FOLD_RHEAD f) 0).setBit (R.FOLD_STAT f) F.FOLD_STAT_RING_ERR false := by
  simp only [State.closeFold, hclosing, htaken, hwaiting, List.isEmpty_nil, Bool.and_self, if_true]

theorem State.syncFold_only (s : State) (f : Nat) : OnlyRegs [R.FOLD_STAT f, R.FOLD_STATUS] s (s.syncFold f) := by
  unfold State.syncFold
  exact ((((OnlyRegs.refl _ s).setFld _ _ _ (by simp)).setBit _ _ _ (by simp)).setBit _ _ _ (by simp)).setFld _ _ _ (by simp)

theorem OnlyRegs.shep {A : List Nat} {s t : State} (h : OnlyRegs A s t) : t.shep = s.shep := by rw [h.1]

theorem OnlyRegs.fold {A : List Nat} {s t : State} (h : OnlyRegs A s t) (f : Nat) : t.fold f = s.fold f := by
  rw [State.fold, h.shep, State.fold]

end

/-- The addresses of a fold's registers are apart from each other and from the shared ones. -/
theorem foldRegs_apart (f : Fin 128) :
    R.FOLD_CFG f ∉ [R.FOLD_CHEAD f, R.FOLD_RTAIL f, R.FOLD_RHEAD f, R.FOLD_STAT f, R.FOLD_STATUS] ∧
    R.FOLD_CHEAD f ∉ [R.FOLD_RTAIL f, R.FOLD_RHEAD f, R.FOLD_STAT f, R.FOLD_STATUS] ∧
    R.FOLD_RTAIL f ∉ [R.FOLD_RHEAD f, R.FOLD_STAT f, R.FOLD_STATUS] ∧ R.FOLD_RHEAD f ∉ [R.FOLD_STAT f, R.FOLD_STATUS] := by
  revert f
  decide

/-- The fold as `closeFold` leaves it in the four registers of its rings and its status. -/
theorem State.closedRings_spec (s : State) (f : Fin 128) (u : State) (hu : u = (((((s.wrN (R.FOLD_CHEAD f) 0).wrN
      (R.FOLD_RTAIL f) 0).wrN (R.FOLD_RHEAD f) 0).setBit (R.FOLD_STAT f) F.FOLD_STAT_RING_ERR false).syncFold f)) :
    u.reg (R.FOLD_CFG f) = s.reg (R.FOLD_CFG f) ∧ u.rd (R.FOLD_CHEAD f) = 0 ∧ u.rd (R.FOLD_RTAIL f) = 0 ∧
    u.rd (R.FOLD_RHEAD f) = 0 ∧ u.fold f = s.fold f := by
  obtain ⟨hcfg, hchead, hrtail, hrhead⟩ := foldRegs_apart f
  have htail : ∀ t : State, OnlyRegs [R.FOLD_STAT f, R.FOLD_STATUS] t ((t.setBit (R.FOLD_STAT f) F.FOLD_STAT_RING_ERR
      false).syncFold f) := fun t => ((OnlyRegs.refl _ t).setBit _ _ _ (by simp)).trans (State.syncFold_only _ f)
  simp only [List.mem_cons, List.not_mem_nil, or_false, not_or] at hcfg hchead hrtail hrhead
  obtain ⟨hc1, hc2, hc3, hc4, hc5⟩ := hcfg
  obtain ⟨hh2, hh3, hh4, hh5⟩ := hchead
  obtain ⟨ht3, ht4, ht5⟩ := hrtail
  subst hu
  refine ⟨?_, ?_, ?_, ?_, ?_⟩
  · rw [(htail _).2 _ (by simp [hc4, hc5]), State.reg_wrN_ne _ _ hc3, State.reg_wrN_ne _ _ hc2, State.reg_wrN_ne _ _ hc1]
  · rw [State.rd, (htail _).2 _ (by simp [hh4, hh5]), ← State.rd, State.rd_wrN_ne _ _ hh3, State.rd_wrN_ne _ _ hh2,
      State.rd_wrN_zero]
  · rw [State.rd, (htail _).2 _ (by simp [ht4, ht5]), ← State.rd, State.rd_wrN_ne _ _ ht3, State.rd_wrN_zero]
  · rw [State.rd, (htail _).2 _ (by simp [hrhead.1, hrhead.2]), ← State.rd, State.rd_wrN_zero]
  · rw [(htail _).fold]
    rfl

theorem State.disableFold_spec {s : State} {f : Fin 128} (htaken : (s.fold f).taken = []) (hwaiting : (s.fold f).waiting = []) :
    (s.disableFold f).foldEn f = false ∧ (s.disableFold f).rd (R.FOLD_CHEAD f) = 0 ∧
    (s.disableFold f).rd (R.FOLD_RTAIL f) = 0 ∧ (s.disableFold f).rd (R.FOLD_RHEAD f) = 0 ∧
    ((s.disableFold f).fold f).notices = [] ∧ ((s.disableFold f).fold f).subs = [] := by
  have hfold : ((s.setBit (R.FOLD_CFG f) F.FOLD_CFG_EN false).setFold f { (s.setBit (R.FOLD_CFG f) F.FOLD_CFG_EN
      false).fold f with closing := true, subs := [] }).fold f = { s.fold f with closing := true, subs := [] } := by
    rw [State.fold_setFold, State.fold_setBit]
  unfold State.disableFold
  dsimp only
  rw [State.closeFold_of_done (by rw [hfold]) (by rw [hfold, htaken]) (by rw [hfold, hwaiting])]
  obtain ⟨hcfg, hchead, hrtail, hrhead, hkept⟩ := State.closedRings_spec _ f _ rfl
  refine ⟨?_, hchead, hrtail, hrhead, ?_, ?_⟩
  · rw [State.reg_setFold, State.reg_setFold] at hcfg
    exact (State.bit_congr hcfg F.FOLD_CFG_EN).trans (State.bit_setBit s _ _ _ rfl (by decide))
  · rw [hkept, State.fold_setFold]
  · rw [hkept, State.fold_setFold]

/-- Settles O30: a write by the word it names, by EN and by LS_LOCK, and what a disabled fold loses. -/
theorem foldConfiguration : Obligations.FoldConfiguration := by
  unfold Obligations.FoldConfiguration
  refine ⟨?reaches, ?ignored, ?enabled, ?disabled, ?key, ?locked, ?lockedKey, ?disable⟩
  case reaches =>
    rintro m f w v en s a rfl ht hlock
    refine ⟨_, ?_, rfl⟩
    show execFoldCfgWrite m f w v en s = _
    simp only [execFoldCfgWrite, State.busWrite_foldWord ht hlock]
  case ignored =>
    intro s f w v msk m a hen hlock hw
    exact State.foldCfgWrite_enabled hen hlock hw
  case enabled =>
    intro s f v msk m a r new hen hlock hr hnew
    have hrefuses : s.lsRefuses f new = false := by rw [State.lsRefuses, hlock, Bool.false_and]
    rw [State.foldCfgWrite_cfg hr hnew, hrefuses]
    refine ⟨fun h1 => ?_, fun h0 => ?_⟩
    · simp only [hen, h1, Bool.false_eq_true, if_false, if_true]
    · simp only [hen, h0, Bool.false_eq_true, if_false, if_true, Nat.zero_ne_one]
  case disabled =>
    intro s f v msk m a r new hen hlock hr hnew
    have hrefuses : s.lsRefuses f new = false := by rw [State.lsRefuses, hlock, Bool.false_and]
    rw [State.foldCfgWrite_cfg hr hnew, hrefuses]
    refine ⟨fun h1 => ?_, fun h0 => ?_⟩
    · simp only [hen, h1, Bool.false_eq_true, if_false, if_true]
    · simp only [hen, h0, Bool.false_eq_true, if_false, Nat.zero_ne_one]
  case key =>
    intro s f k v msk m a hen hlock
    simp only [State.foldCfgWrite_key, hen, hlock, Bool.false_eq_true, false_and, if_false]
  case locked =>
    intro s f v msk m a r new hlock hr hnew
    rw [State.foldCfgWrite_cfg hr hnew]
    refine ⟨fun hen hcls h0 => ?_, fun hen hcls hnew3 => ?_, fun hen hcls hnew3 => ?_⟩
    · exact if_pos (by simp [State.lsRefuses, hlock, hen, hcls, h0])
    · exact if_pos (by simp [State.lsRefuses, hlock, hen, hcls, hnew3])
    · exact if_pos (by simp [State.lsRefuses, hlock, hen, hcls, hnew3])
  case lockedKey =>
    intro s f k v msk m a hlock hcls
    rw [State.foldCfgWrite_key]
    exact if_pos ⟨hlock, hcls⟩
  case disable =>
    rintro s t f htaken hwaiting rfl
    exact State.disableFold_spec htaken hwaiting

end Sys2Proof.Machine
end

section
/-!
PROOF. Rings and datagrams (R477 to R485, R491), the intake of commands and their replies (R488 to R495).
-/

namespace Sys2Proof.Machine

/-! ### Settings of a fold under writes elsewhere -/

theorem foldCfg_ne_rings (f : Nat) : R.FOLD_CFG f ≠ R.FOLD_RHEAD f ∧ R.FOLD_CFG f ≠ R.FOLD_RTAIL f ∧
    R.FOLD_CFG f ≠ R.FOLD_CMD_CNT f := by
  simp only [R.FOLD_CFG, R.FOLD_RHEAD, R.FOLD_RTAIL, R.FOLD_CMD_CNT]
  omega

section
variable {s t : State}

theorem State.foldEn_congr {f : Nat} (h : t.reg (R.FOLD_CFG f) = s.reg (R.FOLD_CFG f)) : t.foldEn f = s.foldEn f :=
  State.bit_congr h _

theorem State.foldUdp_congr {f : Nat} (h : t.reg (R.FOLD_CFG f) = s.reg (R.FOLD_CFG f)) : t.foldUdp f = s.foldUdp f :=
  State.bit_congr h _

theorem State.foldClass_congr {f : Nat} (h : t.reg (R.FOLD_CFG f) = s.reg (R.FOLD_CFG f)) : t.foldClass f = s.foldClass f :=
  State.fld_congr h _

/-- Whether the rings are served depends on the mode and on the firmware. -/
theorem State.ringServed_congr (hmode : t.reg R.SYS_MODE = s.reg R.SYS_MODE) (hboot : t.boot = s.boot) :
    t.ringServed = s.ringServed := by
  have hm : t.mode = s.mode := congrArg Mode.ofCode (State.fld_congr hmode _)
  have hres : t.fbRes = s.fbRes := State.bit_congr hmode _
  unfold State.ringServed
  rw [hm, hres, hboot]

theorem State.ringServed_setFld {a : Nat} (g : Fld) (v : Nat) (h : R.SYS_MODE ≠ a) :
    (s.setFld a g v).ringServed = s.ringServed := State.ringServed_congr (State.reg_setFld_ne _ _ _ h) rfl

/-! ### Command rings -/

theorem State.doorbellFold_of_unserved {f tail : Nat} {ps : List Hdr}
    (h : s.foldEn f = false ∨ s.foldUdp f = true ∨ s.ringServed = false) : s.doorbellFold f tail ps = s := by
  refine if_pos ?_
  rcases h with h | h | h <;> simp [h]

theorem State.doorbellFold_of_served {f tail : Nat} {ps : List Hdr} (hen : s.foldEn f = true) (hring : s.foldUdp f = false)
    (hserved : s.ringServed = true) : s.doorbellFold f tail ps =
      if 2 ^ s.fld (R.FOLD_RING_CFG f) F.FOLD_RING_CFG_CSIZE ≤ tail then s.ringError f
      else (s.setFold f { s.fold f with ctail := tail }).readRing f ps := by
  refine if_neg ?_
  simp [hen, hring, hserved]

/-- One packet at the head of a command ring. -/
theorem State.readRing_cons {f : Nat} {h : Hdr} {l : List Hdr} {size head avail : Nat}
    (hsize : size = 2 ^ s.fld (R.FOLD_RING_CFG f) F.FOLD_RING_CFG_CSIZE) (hhead : head = s.fld (R.FOLD_CHEAD f) F.FOLD_CHEAD_SLOT)
    (havail : avail = ((s.fold f).ctail + size - head) % size) : s.readRing f (h :: l) =
      if s.bit (R.FOLD_STAT f) F.FOLD_STAT_RING_ERR || s.bit (R.FOLD_STAT f) F.FOLD_STAT_RPL_FULL || avail = 0 then s
      else if avail < slotsOf h.length || size < head + slotsOf h.length then s.ringError f
      else ((s.setFld (R.FOLD_CHEAD f) F.FOLD_CHEAD_SLOT ((head + slotsOf h.length) % size)).intake f 0 h).1.readRing f l := by
  subst hsize hhead havail
  rfl

theorem slotsOf_iff {n k : Nat} : slotsOf n = k ↔ 64 * k < 16 + n + 64 ∧ 16 + n ≤ 64 * k := by
  unfold slotsOf
  omega

theorem State.rheadWrite_eq {f v : Nat} {ps : List Hdr} {u : State} (hu : u = s.setFld (R.FOLD_RHEAD f) F.FOLD_RHEAD_SLOT v)
    (hne : R.SYS_MODE ≠ R.FOLD_RHEAD f) : s.rheadWrite f v ps =
      if s.foldUdp f then u else (u.drainFold f).readRing f (if s.foldEn f && s.ringServed then ps else []) := by
  have hcfg : u.reg (R.FOLD_CFG f) = s.reg (R.FOLD_CFG f) := by
    rw [hu, State.reg_setFld_ne _ _ _ (foldCfg_ne_rings f).1]
  have hserved : u.ringServed = s.ringServed := by rw [hu, State.ringServed_setFld _ _ hne]
  unfold State.rheadWrite
  rw [← hu]
  dsimp only
  rw [State.foldUdp_congr hcfg, State.foldEn_congr hcfg, hserved]

theorem State.readRing_nil {f : Nat} : s.readRing f [] = s := rfl

/-! ### Datagrams -/

/-- A datagram that no fold of UDP with this tag takes. -/
theorem State.datagram_of_refused {port ip sp n : Nat} {bytes packet : List Byte} {h : Hdr}
    (hn : n = bytes.length - 16) (hpacket : packet = bytes.take n) (hh : h = hdrOf packet) (hserved : s.served = true)
    (hport : s.fld R.FOLD_NET F.FOLD_NET_PORTS / 2 ^ port % 2 = 1) (hfold : h.fold < 128)
    (hbad : s.foldEn h.fold = false ∨ s.foldUdp h.fold = false ∨ bytes.drop n ≠ s.dweulTag h.fold packet) :
    s.datagram port ip sp bytes = s.authFail h.fold := by
  subst hn hpacket hh
  unfold State.datagram
  simp only [hserved, hport, hfold, Bool.not_true, decide_true, decide_false, Bool.false_or, Bool.or_self, Bool.false_eq_true,
    if_false, if_true, Nat.one_ne_zero]
  refine if_pos ?_
  rcases hbad with h | h | h <;> simp [h]

/-- A datagram of the fold's key: its peer is noted, and its SEQ decides. -/
theorem State.datagram_of_accepted {port ip sp n : Nat} {bytes packet : List Byte} {h : Hdr} {u : State}
    (hn : n = bytes.length - 16) (hpacket : packet = bytes.take n) (hh : h = hdrOf packet) (hserved : s.served = true)
    (hport : s.fld R.FOLD_NET F.FOLD_NET_PORTS / 2 ^ port % 2 = 1) (hfold : h.fold < 128) (hen : s.foldEn h.fold = true)
    (hudp : s.foldUdp h.fold = true) (hauth : h.flags / 4 % 2 = 1) (hlen : 32 ≤ bytes.length)
    (htag : bytes.drop n = s.dweulTag h.fold packet)
    (hu : u = (s.wrN (R.FOLD_PEER_IP h.fold) ip).wrN (R.FOLD_PEER_PORT h.fold) sp) :
    s.datagram port ip sp bytes =
      match (s.fold h.fold).window h.seq with
      | some x => if 16 + h.length ≠ packet.length then
          (u.setFold h.fold x).reply h.fold port (replyOf h.fold h 8 4 false [])
        else ((u.setFold h.fold x).intake h.fold port h).1
      | none => match (if (s.fold h.fold).high < h.seq + 64 then (s.fold h.fold).last.find? (fun r => r.seq = h.seq) else none) with
        | some r => { u with out := { u.out with replies := u.out.replies ++ [r] } }
        | none => u.count (R.FOLD_ERR_CNT h.fold) := by
  have hfoldof : ∀ a b v w, ((s.wrN a v).wrN b w).fold h.fold = s.fold h.fold := fun a b v w => rfl
  subst hn hpacket hh hu
  unfold State.datagram
  simp only [hserved, hport, hfold, hen, hudp, hauth, Nat.not_lt.2 hlen, htag, hfoldof, Bool.not_true, decide_true, decide_false,
    Bool.or_self, Bool.false_eq_true, if_false, if_true, Nat.one_ne_zero, ne_eq, not_true_eq_false] <;> rfl

end

/-- A SEQ above the highest moves the window, whose lowest bit is the highest SEQ. -/
theorem Fold.window_of_higher {x : Fold} {q : Nat} (h : x.high < q) : ∃ y, x.window q = some y ∧ y.high = q ∧ y.seen % 2 = 1 := by
  refine ⟨_, if_pos h, rfl, ?_⟩
  have heven : x.seen * 2 ^ (q - x.high) % 2 ^ 64 % 2 = 0 := by
    rw [Nat.mod_mod_of_dvd _ (by decide), Nat.mul_mod, Nat.pow_mod]
    simp [Nat.zero_pow (Nat.sub_pos_of_lt h)]
  dsimp only
  split <;> omega

theorem Fold.window_of_new {x : Fold} {q : Nat} (hle : q ≤ x.high) (hpos : 1 ≤ q) (hnear : x.high < q + 64)
    (hnew : x.seen / 2 ^ (x.high - q) % 2 = 0) : x.window q = some { x with seen := x.seen + 2 ^ (x.high - q) } := by
  simp only [Fold.window, Nat.not_lt.2 hle, hnear, hnew, hpos, decide_true, Bool.and_self, if_true, if_false]

theorem Fold.window_of_old {x : Fold} {q : Nat} (hle : q ≤ x.high)
    (hold : x.high ≥ q + 64 ∨ x.seen / 2 ^ (x.high - q) % 2 = 1) : x.window q = none := by
  refine (if_neg (Nat.not_lt.2 hle)).trans (if_neg ?_)
  rcases hold with h | h
  · simp [Nat.not_lt.2 h]
  · simp [h]

theorem sysMode_ne_foldRhead (f : Fin 128) : R.SYS_MODE ≠ R.FOLD_RHEAD f := by
  revert f
  decide

/-- Settles O31: doorbells, the reading of a ring, the reply head and the bulk fetch; datagrams by their tag and SEQ. -/
theorem foldRingsAndDatagrams : Obligations.FoldRingsAndDatagrams := by
  unfold Obligations.FoldRingsAndDatagrams
  refine ⟨⟨?unserved, ?doorbell, ?ring, fun n k => slotsOf_iff, ?rhead, ?fetch⟩, ?datagram⟩
  case unserved =>
    intro f tail ps s h
    exact congrArg Host.Outcome.next (State.doorbellFold_of_unserved h)
  case doorbell =>
    intro f tail ps s hen hring hserved
    have hbell := State.doorbellFold_of_served (tail := tail.toNat) (ps := ps) hen hring hserved
    refine ⟨fun hout => ?_, fun hin => ?_⟩
    · exact congrArg Host.Outcome.next (hbell.trans (if_pos hout))
    · exact congrArg Host.Outcome.next (hbell.trans (if_neg (Nat.not_le.2 hin)))
  case ring =>
    intro s f h l size head avail hsize hhead havail
    rw [State.readRing_cons hsize hhead havail]
    refine ⟨fun hstop => ?_, fun herr hfull hsome hfits hend => ?_, fun herr hfull hsome hmisfit => ?_⟩
    · refine if_pos ?_
      rcases hstop with h | h | h <;> simp [h]
    · refine (if_neg (by simp [herr, hfull, hsome])).trans (if_neg ?_)
      simp [Nat.not_lt.2 hfits, Nat.not_lt.2 hend]
    · refine (if_neg (by simp [herr, hfull, hsome])).trans (if_pos ?_)
      simpa using hmisfit
  case rhead =>
    intro f v ps s u hu
    have hwrite := State.rheadWrite_eq (ps := ps) hu (sysMode_ne_foldRhead f)
    refine ⟨fun hudp => ?_, fun hring hen hserved => ?_, fun hring hshut => ?_⟩
    · exact congrArg Host.Outcome.next (hwrite.trans (if_pos hudp))
    · refine congrArg Host.Outcome.next (hwrite.trans ?_)
      simp only [hring, hen, hserved, Bool.and_self, Bool.false_eq_true, if_false, if_true]
    · refine congrArg Host.Outcome.next (hwrite.trans ?_)
      have hnone : (s.foldEn f && s.ringServed) = false := by
        rcases hshut with h | h <;> simp [h]
      simp only [hring, hnone, Bool.false_eq_true, if_false, State.readRing_nil]
  case fetch =>
    intro f seq ok s
    show Host.Outcome.next (s.fetchDone f seq.toNat ok) = _
    simp only [State.fetchDone, Bool.and_eq_true, decide_eq_true_eq]
  case datagram =>
    intro port ip sp bytes s n packet h hn hpacket hh
    refine ⟨fun hshut => ?_, fun hserved hport hfold hbad => ?_,
      fun hserved hport hfold hen hudp hauth hlen htag u hu => ⟨fun x hx hfit => ?_, fun r hnone hnear hlast => ?_,
        fun hnone hlast => ?_⟩,
      fun x q hq => Fold.window_of_higher hq, fun x q hle hpos hnear hnew => Fold.window_of_new hle hpos hnear hnew,
      fun x q hle hold => Fold.window_of_old hle hold⟩
    · refine congrArg Host.Outcome.next (if_pos ?_)
      rcases hshut with h | h <;> simp [h]
    · exact congrArg Host.Outcome.next (State.datagram_of_refused hn hpacket hh hserved hport hfold hbad)
    all_goals
      refine congrArg Host.Outcome.next
        ((State.datagram_of_accepted hn hpacket hh hserved hport hfold hen hudp hauth hlen htag hu).trans ?_)
    · simp only [hx, hfit, ne_eq, not_true_eq_false, if_false]
    · simp only [hnone, hnear, hlast, if_true]
    · simp only [hnone, hlast, ite_self]

/-! ### Intake -/

section
variable {s : State} {f : Nat} {h : Hdr}

theorem State.intake_of_bad {port : Nat} (hbad : s.badHeader f h ≠ 0) :
    s.intake f port h = (s.reply f port (replyOf f h 8 (s.badHeader f h) false []), false) := if_pos hbad

theorem State.intake_of_busy {port : Nat} (hgood : s.badHeader f h = 0) (hbusy : s.busyDetail f h ≠ 0) :
    s.intake f port h = (if s.busyDetail f h = 2 then
      (s.reply f port (replyOf f h 1 (s.busyDetail f h) false [])).rateEvent f
      else s.reply f port (replyOf f h 1 (s.busyDetail f h) false []), false) :=
  (if_neg (fun hbad => hbad hgood)).trans (if_pos hbusy)

theorem State.foldClass_count : (s.count (R.FOLD_CMD_CNT f)).foldClass f = s.foldClass f :=
  State.foldClass_congr (State.reg_wrN_ne _ _ (foldCfg_ne_rings f).2.2)

theorem State.foldUdp_count : (s.count (R.FOLD_CMD_CNT f)).foldUdp f = s.foldUdp f :=
  State.foldUdp_congr (State.reg_wrN_ne _ _ (foldCfg_ne_rings f).2.2)

theorem State.foldClass_setFold (x : Fold) (k : Nat) : (s.setFold k x).foldClass f = s.foldClass f := rfl

/-- A command over UDP that passes both steps of intake, with an opcode of R500. -/
theorem State.intake_of_taken {port : Nat} {x : Fold} {u : State} (hgood : s.badHeader f h = 0) (hfree : s.busyDetail f h = 0)
    (hop : h.opcode ∈ opcodes) (hudp : s.foldUdp f = true) (hrate : s.fld (R.FOLD_RATE f) F.FOLD_RATE_RATE ≠ 0)
    (hx : x = { s.fold f with taken := (s.fold f).taken ++ [⟨h, port, false, false⟩], tokens := s.tokens f - 96000,
                              tokAt := s.edge })
    (hu : u = (s.count (R.FOLD_CMD_CNT f)).setFold f x) :
    s.intake f port h = ((if s.foldClass f = 3 then { u with shep := { u.shep with lsq := u.shep.lsq ++ [f] } }
      else { u with shep := { u.shep with genq := u.shep.genq ++ [f] } } : State).syncFold f, true) := by
  have hcls : u.foldClass f = s.foldClass f := by rw [hu, State.foldClass_setFold, State.foldClass_count]
  have hedge : (s.count (R.FOLD_CMD_CNT f)).edge = s.edge := rfl
  subst hx
  simp only [State.intake, hgood, hfree, ne_eq, not_true_eq_false, if_false, List.contains_iff_mem.2 hop, Bool.not_true,
    Bool.false_eq_true, State.foldUdp_count, hudp, Bool.and_false, hrate, hedge, ← hu, hcls]

theorem State.intake_of_unknown {port : Nat} (hgood : s.badHeader f h = 0) (hfree : s.busyDetail f h = 0)
    (hop : h.opcode ∉ opcodes) (hrate : s.fld (R.FOLD_RATE f) F.FOLD_RATE_RATE = 0) :
    s.intake f port h = (((s.count (R.FOLD_CMD_CNT f)).setFold f { s.fold f with tokens := s.tokens f, tokAt := s.edge }).reply
      f port (replyOf f h 7 0 false []), false) := by
  have hnone : opcodes.contains h.opcode = false := by
    rw [← Bool.not_eq_true, List.contains_iff_mem]
    exact hop
  have hedge : (s.count (R.FOLD_CMD_CNT f)).edge = s.edge := rfl
  simp only [State.intake, hgood, hfree, ne_eq, not_true_eq_false, if_false, hnone, Bool.not_false, if_true, hrate, hedge]

/-- BUSY while the fold has room: the LIFE-SAFETY queue, the rate, then the load state. -/
theorem State.busyDetail_of_credit
    (hroom : (s.fold f).taken.length + (s.fold f).waiting.length < s.fld (R.FOLD_CFG f) F.FOLD_CFG_CREDIT) :
    s.busyDetail f h =
      if s.foldClass f = 3 && decide (64 ≤ s.shep.lsq.length) then 1
      else if s.fld (R.FOLD_RATE f) F.FOLD_RATE_RATE ≠ 0 && s.tokens f < 96000 then 2
      else if !decide (s.foldClass f = 3) && decide (1 ≤ s.load) && decide (h.opcode / 256 = 0x0C) then 3
      else if !decide (s.foldClass f = 3) && decide (2 ≤ s.load) then 4
      else 0 := if_neg (Nat.not_le.2 hroom)

/-! ### Answers and replies -/

theorem State.answer_of_taken {u : State} {a : Ans} {e : Taken} {rest : List Taken} (htaken : (s.fold f).taken = e :: rest)
    (hu : u = s.setFold f { s.fold f with taken := rest }) :
    s.answer f h a = State.reply { u with shep := { u.shep with lsq := u.shep.lsq.erase f, genq := u.shep.genq.erase f } }
      f e.port ⟨f, h.opcode, h.seq, h.flags % 32 + 256 + (if a.late = true then 1024 else 0), h.group, a.status, a.detail,
        a.results⟩ := by
  subst hu
  simp only [State.answer, htaken, List.drop_one, List.tail_cons, replyOf]

theorem State.reply_udp {port : Nat} {r : Reply} (hudp : s.foldUdp f = true) (hbusy : r.status ≠ 1) (hbad : r.status ≠ 8) :
    s.reply f port r =
      let q := if s.udpLimit port < r.length then { r with status := 2, detail := 1, results := [] } else r
      let u := s.setFold f { s.fold f with last := (q :: (s.fold f).last).take 4 }
      (State.closeFold { u with out := { u.out with replies := u.out.replies ++ [q] } } f).syncFold f := by
  simp only [State.reply, hbusy, hbad, if_false, hudp, if_true]

theorem State.reply_ring {port : Nat} {r : Reply} (hring : s.foldUdp f = false) (hbusy : r.status ≠ 1) (hbad : r.status ≠ 8) :
    s.reply f port r = (s.setFold f { s.fold f with waiting := (s.fold f).waiting ++ [r] }).drainFold f := by
  simp only [State.reply, hbusy, hbad, if_false, hring, Bool.false_eq_true]

/-- A REJECTED reply without results fits every limit. -/
theorem State.udpLimit_ge (port : Nat) : ¬ s.udpLimit port < 4 := by
  unfold State.udpLimit
  split <;> omega

theorem State.reply_too_long {port : Nat} {r : Reply} (hudp : s.foldUdp f = true) (hok : r.status = 0)
    (hlong : s.udpLimit port < r.length) :
    s.reply f port r = s.reply f port { r with status := 2, detail := 1, results := [] } := by
  have hshort : Reply.length { r with status := 2, detail := 1, results := [] } = 4 := by
    simp only [Reply.length, List.length_nil]
  rw [State.reply_udp hudp (by rw [hok]; decide) (by rw [hok]; decide),
    State.reply_udp (r := { r with status := 2, detail := 1, results := [] }) hudp (Nat.succ_ne_self 1) (by show 2 ≠ 8; decide),
    hshort]
  simp only [hlong, if_true, State.udpLimit_ge, if_false]

/-! ### The reply ring -/

/-- With room for n slots the ring keeps one slot free when they are taken. -/
theorem State.used_lt_of_ringRoom {n size tail : Nat} (hsize : size = 2 ^ s.fld (R.FOLD_RING_CFG f) F.FOLD_RING_CFG_RSIZE)
    (htail : tail = s.fld (R.FOLD_RTAIL f) F.FOLD_RTAIL_SLOT) (hroom : s.ringRoom f n = true)
    (hhead : s.fld (R.FOLD_RHEAD f) F.FOLD_RHEAD_SLOT < size) :
    (tail + size - s.fld (R.FOLD_RHEAD f) F.FOLD_RHEAD_SLOT) % size + n < size := by
  simp only [State.ringRoom, ← hsize, ← htail, Nat.mod_eq_of_lt hhead, decide_eq_true_eq] at hroom
  have htakes : n ≤ ringTakes size tail n := by
    unfold ringTakes
    split <;> omega
  omega

/-- A packet that fits before the ring's end needs no filling packet. -/
theorem State.ringWrite_of_fits {r : Reply} {size tail : Nat}
    (hsize : size = 2 ^ s.fld (R.FOLD_RING_CFG f) F.FOLD_RING_CFG_RSIZE)
    (htail : tail = s.fld (R.FOLD_RTAIL f) F.FOLD_RTAIL_SLOT) (hfits : tail + slotsOf r.length ≤ size) :
    s.ringWrite f r =
      let u := s.setFld (R.FOLD_RTAIL f) F.FOLD_RTAIL_SLOT ((tail + slotsOf r.length) % size)
      { u with out := { u.out with replies := u.out.replies ++ [r],
                                   msix := u.out.msix ++ (if s.bit (R.FOLD_CFG f) F.FOLD_CFG_IRQ_EN = true then [f] else []) } } := by
  have htakes : ringTakes size tail (slotsOf r.length) = slotsOf r.length := if_neg (Nat.not_lt.2 hfits)
  have hirq : ∀ v, (s.setFld (R.FOLD_RTAIL f) F.FOLD_RTAIL_SLOT v).bit (R.FOLD_CFG f) F.FOLD_CFG_IRQ_EN =
      s.bit (R.FOLD_CFG f) F.FOLD_CFG_IRQ_EN :=
    fun v => State.bit_congr (State.reg_setFld_ne _ _ _ (foldCfg_ne_rings f).2.1) _
  simp only [State.ringWrite, ← hsize, ← htail, htakes, Nat.sub_self, if_true, List.append_nil, Nat.add_zero, hirq]

end

/-- Settles O32: intake by its steps in order, the answer of a command, and its reply over UDP or in the ring. -/
theorem intakeAndAnswers : Obligations.IntakeAndAnswers := by
  unfold Obligations.IntakeAndAnswers
  refine ⟨⟨?bad, ?busy, ?rate, ?credit, ?load, ?taken, ?unknown, ?header⟩,
    ⟨?answer, ?udp, ?long, ?ring, ?drain, ?room, ?write⟩⟩
  case bad =>
    intro s f port h hbad
    exact State.intake_of_bad hbad
  case busy =>
    intro s f port h hgood hbusy hnot2
    rw [State.intake_of_busy hgood hbusy, if_neg hnot2]
  case rate =>
    intro s f port h hgood hbusy
    rw [State.intake_of_busy hgood (by rw [hbusy]; decide), if_pos hbusy, hbusy]
  case credit =>
    intro s f h hfull
    exact if_pos hfull
  case load =>
    intro s f h hroom
    rw [State.busyDetail_of_credit hroom]
    refine ⟨fun hrate htok hcls => ?_, fun hrate hcls hload hop => ?_, fun hrate hcls hload hop => ?_, fun hrate hcls hq => ?_⟩
    · simp [hcls, hrate, htok]
    · simp [hcls, hrate, hload, hop]
    · simp [hcls, hrate, hload, hop]
    · simp [hcls, hrate, Nat.not_le.2 hq]
  case taken =>
    intro s f port h x u hgood hfree hop hudp hrate hx hu
    rw [State.intake_of_taken hgood hfree hop hudp hrate hx hu]
    exact ⟨fun hcls => by rw [if_pos hcls], fun hcls => by rw [if_neg hcls]⟩
  case unknown =>
    intro s f port h hgood hfree hop hrate
    exact State.intake_of_unknown hgood hfree hop hrate
  case header =>
    intro s f h
    refine ⟨fun hv => if_pos hv, fun hv hf => ?_, fun hv hf he => ?_, fun hv hf he hlen => ?_⟩
    · simp only [State.badHeader, hv, hf, ne_eq, not_true_eq_false, not_false_eq_true, if_false, if_true]
    · simp only [State.badHeader, hv, hf, he, ne_eq, not_true_eq_false, not_false_eq_true, if_false, if_true]
    · have hlong : (decide (4080 < h.length) || decide (h.length % 4 ≠ 0)) = true := by
        rcases hlen with h | h <;> simp [h]
      simp only [State.badHeader, hv, hf, he, hlong, Bool.true_or, ne_eq, not_true_eq_false, if_false, if_true]
  case answer =>
    intro s u f h a e rest htaken hu
    exact State.answer_of_taken htaken hu
  case udp =>
    intro s f port r hudp hbusy hbad hfits
    refine ⟨_, rfl, ?_⟩
    rw [State.reply_udp hudp hbusy hbad, if_neg (Nat.not_lt.2 hfits)]
  case long =>
    intro s f port r hudp hok hlong
    exact State.reply_too_long hudp hok hlong
  case ring =>
    intro s f port r hring hbusy hbad
    exact State.reply_ring hring hbusy hbad
  case drain =>
    intro s f r l
    exact ⟨fun hroom => if_pos hroom, fun hfull => if_neg (by rw [hfull]; decide)⟩
  case room =>
    intro s f n size tail hsize htail hroom _ hhead
    exact State.used_lt_of_ringRoom hsize htail hroom hhead
  case write =>
    intro s f r size tail hsize htail hfits
    exact ⟨_, rfl, State.ringWrite_of_fits hsize htail hfits⟩

end Sys2Proof.Machine
end

section
/-!
PROOF. The life of Shepherd's command service (R496, R502 to R504).
-/

namespace Sys2Proof.Machine

section
variable {s : State}

/-! ### Backlog and load -/

theorem loadStep_spec (n : Nat) : (loadStep 0 n = 1 ↔ 1000 < n) ∧ (loadStep 0 n = 0 ↔ n ≤ 1000) ∧
    (loadStep 1 n = 2 ↔ 4000 < n) ∧ (loadStep 1 n = 0 ↔ n < 500) ∧ (loadStep 2 n = 1 ↔ n < 2000) ∧
    (loadStep 2 n = 2 ↔ 2000 ≤ n) := by
  have h0 : loadStep 0 n = if 1000 < n then 1 else 0 := rfl
  have h1 : loadStep 1 n = if 4000 < n then 2 else if n < 500 then 0 else 1 := rfl
  have h2 : loadStep 2 n = if n < 2000 then 1 else 2 := rfl
  rw [h0, h1, h2]
  grind

theorem State.shepherdFrame_eq {b n : Nat} (hb : b < 2 ^ 24) (hn : n = if s.shep.genq = [] then 0 else b) :
    s.shepherdFrame b =
      let u := (s.wrN R.FOLD_BACKLOG n).setFld R.FOLD_STATUS F.FOLD_STATUS_LOAD (loadStep s.load n)
      if loadStep s.load n = 2 ∧ s.load ≠ 2 then (u.flag R.FOLD_FLAGS F.FOLD_FLAGS_OVERLOAD).raise FS.FOLD_OVERLOAD 0 0
      else u := by
  have hmod : n % 2 ^ 24 = n := Nat.mod_eq_of_lt (by rw [hn]; split <;> omega)
  have hload : (s.wrN R.FOLD_BACKLOG n).load = s.load := State.fld_congr (State.reg_wrN_ne _ _ (by decide)) _
  have hn' : (if s.shep.genq.isEmpty = true then 0 else b) = n := by
    rw [hn]
    simp only [List.isEmpty_iff]
  unfold State.shepherdFrame
  dsimp only
  rw [hn', hmod, hload]
  simp only [Bool.and_eq_true, decide_eq_true_eq]

/-! ### Telemetry -/

/-- What a refresh keeps of its set: the words, and for KIND 8 the restarted peaks. -/
def State.telemTaken (s : State) (sel : Nat) : State :=
  let t : State := { s with shep := { s.shep with
    telem := Sparse.set telemDefault s.shep.telem sel (8 * (s.msc / 8), s.telemWords sel) } }
  if selKind sel = 8 then
    { t with shep := { t.shep with telemPeak := t.shep.telemPeak.filter (fun e => e.1 / 16 ≠ selIndex sel) } }
  else t

/-- While the load state or a restart holds the notices back, a refresh only keeps its set. -/
theorem State.telemRefresh_of_quiet {sel : Nat} (h : s.load ≠ 0 ∨ s.served = false) : s.telemRefresh sel = s.telemTaken sel := by
  have hload : (s.telemTaken sel).load = s.load := by
    unfold State.telemTaken
    dsimp only
    split <;> rfl
  have hserved : (s.telemTaken sel).served = s.served := by
    unfold State.telemTaken
    dsimp only
    split <;> rfl
  refine if_neg ?_
  show ¬ (decide ((s.telemTaken sel).load = 0) && (s.telemTaken sel).served) = true
  rw [hload, hserved]
  rcases h with h | h <;> simp [h]

theorem State.telemPush_of_none {f sel : Nat} {set : Nat × List Word}
    (h : (s.fold f).subs.find? (fun u => u.sel = sel) = none) : s.telemPush f sel set = s := by
  simp only [State.telemPush, h]

theorem State.telemPush_of_early {f sel : Nat} {set : Nat × List Word} {v : Sub}
    (h : (s.fold f).subs.find? (fun u => u.sel = sel) = some v) (hearly : v.count + 1 < v.period) :
    s.telemPush f sel set = s.setFold f { s.fold f with
      subs := (s.fold f).subs.map (fun w => if w.sel = sel then { w with count := w.count + 1 } else w) } := by
  simp only [State.telemPush, h, Nat.not_le.2 hearly, if_false]

/-! ### Watchdog and restart -/

theorem State.shepWdog_eq {recent : List Nat}
    (hrecent : recent = s.shep.wdogs.filter (fun e => decide (s.edge < e + 960000))) : s.shepWdog =
      let u := State.raise { s with shep := { s.shep with restarting := true, wdogs := recent ++ [s.edge] } } FS.SHEP_WDOG 0 0
      if 2 ≤ recent.length then u.raise FS.SHEP_FATAL 0 0 else u := by
  subst hrecent
  simp only [State.shepWdog]

end

/-- Settles O33: the estimate and the load state, refreshes and subscriptions, then watchdog, trap and restart. -/
theorem shepherdService : Obligations.ShepherdService := by
  unfold Obligations.ShepherdService
  refine ⟨?frame, loadStep_spec, ?unserved, ?refresh, ?peaks, ?noSet, ?none, ?early, ?wdog, ?noWdog, ?trap, ?noTrap, ?restart,
    fun s f => rfl, ?fatal, ?noRestart⟩
  case frame =>
    intro b s n hserved hn
    refine ⟨_, rfl, ?_⟩
    refine congrArg Host.Outcome.next ((if_pos hserved).trans ?_)
    exact State.shepherdFrame_eq b.isLt hn
  case unserved =>
    intro b s hserved
    exact congrArg Host.Outcome.next (if_neg (by rw [hserved]; decide))
  case refresh =>
    intro sel s hok hkind hquiet
    refine congrArg Host.Outcome.next ((if_pos hok).trans ((State.telemRefresh_of_quiet hquiet).trans ?_))
    exact if_neg hkind
  case peaks =>
    intro sel s hok hkind hquiet
    refine congrArg Host.Outcome.next ((if_pos hok).trans ((State.telemRefresh_of_quiet hquiet).trans ?_))
    exact if_pos hkind
  case noSet =>
    intro sel s hok
    exact congrArg Host.Outcome.next (if_neg (by rw [hok]; decide))
  case none =>
    intro s f sel set h
    exact State.telemPush_of_none h
  case early =>
    intro s f sel set v h hearly
    exact State.telemPush_of_early h hearly
  case wdog =>
    intro ms s recent hruns hms hrecent
    refine ⟨_, rfl, ?_⟩
    refine congrArg Host.Outcome.next ((if_pos ?_).trans (State.shepWdog_eq hrecent))
    simp [hruns, hms]
  case noWdog =>
    intro ms s h
    refine congrArg Host.Outcome.next (if_neg ?_)
    rcases h with h | h
    · simp [h]
    · simp [Nat.not_le.2 h]
  case trap =>
    intro s hruns
    exact congrArg Host.Outcome.next (if_pos hruns)
  case noTrap =>
    intro s hruns
    exact congrArg Host.Outcome.next (if_neg (by rw [hruns]; decide))
  case restart =>
    intro s hruns hrestarting
    exact ⟨_, rfl, congrArg Host.Outcome.next (if_neg (by rw [hruns, hrestarting]; decide))⟩
  case fatal =>
    intro s hruns hrestarting
    exact congrArg Host.Outcome.next (if_neg (by rw [hruns, hrestarting]; decide))
  case noRestart =>
    intro ok s h
    refine congrArg Host.Outcome.next (if_pos ?_)
    rcases h with h | h <;> simp [h]

end Sys2Proof.Machine
end

section
/-!
PROOF. How a Needle core issues an instruction (R182, R184, R185, R197, R208, R209), and what the results of one
instruction are after its cycle.
-/

namespace Sys2Proof.Machine

section
variable {s : State} {c : Nat} {k k' : Core} {i : NI} {f : NI → Core → Option NRes}

/-! ### What does not issue, and what traps -/

theorem State.issue_of_not_issues (e : Ecc) (h : (s.core c).issues = false) : s.issue c e f = s := by
  simp [State.issue, h]

theorem State.issue_of_uncorrectable (a : Word) (h : (s.core c).issues = true) :
    s.issue c (.uncorrectable a) f = s.eccTrap c a := by
  simp [State.issue, h]

theorem State.issue_of_poisoned (h : (s.core c).issues = true) (hp : (0, (s.core c).pc) ∈ (s.core c).poison) :
    s.issue c .clean f = s.eccTrap c (needleEccAddr c 0 (s.core c).pc) := by
  simp [State.issue, h, hp]

theorem State.issue_of_reserved (h : (s.core c).issues = true) (hp : (s.core c).poison = [])
    (hd : decodeNeedle ((s.core c).fetch (s.core c).pc) ((s.core c).fetch ((s.core c).pc + 1)) = none) :
    s.issue c .clean f = s.trapCore c 1 := by
  simp [State.issue, h, hp, hd]

theorem State.issue_of_noSlot {r : NRes} (h : (s.core c).issues = true) (hp : (s.core c).poison = [])
    (hd : decodeNeedle ((s.core c).fetch (s.core c).pc) ((s.core c).fetch ((s.core c).pc + 1)) = some i)
    (hf : f i (s.core c) = some r) (hno : i.noSlot = true) (hslot : (s.core c).slots ≠ 0 ∨ (s.core c).rep ≠ 0) :
    s.issue c .clean f = s.trapCore c 2 := by
  simp [State.issue, h, hp, hd, hf, hno, hslot]

/-- Outside delay slots and REP, or when the instruction may stand there, an access that traps traps. -/
theorem State.issue_of_badAddr (h : (s.core c).issues = true) (hp : (s.core c).poison = [])
    (hd : decodeNeedle ((s.core c).fetch (s.core c).pc) ((s.core c).fetch ((s.core c).pc + 1)) = some i)
    (hf : f i (s.core c) = some .badAddr)
    (hno : (i.noSlot && ((s.core c).slots ≠ 0 || (s.core c).rep ≠ 0)) = false) :
    s.issue c .clean f = s.trapCore c 3 := by
  simp only [State.issue, h, hp, hd, hf, hno]
  simp

theorem State.issue_of_badWord {y a : Nat} (h : (s.core c).issues = true) (hp : (s.core c).poison = [])
    (hd : decodeNeedle ((s.core c).fetch (s.core c).pc) ((s.core c).fetch ((s.core c).pc + 1)) = some i)
    (hf : f i (s.core c) = some (.badWord y a))
    (hno : (i.noSlot && ((s.core c).slots ≠ 0 || (s.core c).rep ≠ 0)) = false) :
    s.issue c .clean f = s.eccTrap c (needleEccAddr c y a) := by
  simp only [State.issue, h, hp, hd, hf, hno]
  simp

theorem Issues.issue_badAddr (h : Issues s c k i) (hf : f i k = some .badAddr) : s.issue c .clean f = s.trapCore c 3 := by
  obtain ⟨rfl, hissues, -, hslots, hrep, hpoison, hdecode⟩ := h
  exact State.issue_of_badAddr hissues hpoison hdecode hf (by simp [hslots, hrep])

/-! ### Landing -/

theorem Core.land_pend (k : Core) (e : NPend) : (k.land e).pend = k.pend := by
  unfold Core.land
  split <;> rfl

theorem Core.foldl_land_pend (es : List NPend) (k : Core) : (es.foldl Core.land k).pend = k.pend := by
  induction es generalizing k with
  | nil => rfl
  | cons e es ih => rw [List.foldl_cons, ih, Core.land_pend]

theorem Core.cycle_pend (k : Core) :
    k.cycle.1.pend = (k.pend.filter (fun e => 1 < e.left)).map (fun e => { e with left := e.left - 1 }) := by
  have hleft : (fun e : NPend => !decide (e.left ≤ 1)) = fun e => decide (1 < e.left) := by
    funext e
    rw [← decide_not, decide_eq_decide]
    exact Nat.not_le
  unfold Core.cycle
  rw [Core.foldl_land_pend, hleft]

theorem Core.land_flags (k : Core) (g : FlagSet) (h : g.vals < 16) (left : Nat) (m : Bool) (stamp : Nat) :
    k.land ⟨.flags, g.vals + 16 * g.mask, left, m, stamp⟩ = { k with sr := applyFlags k.sr g } := by
  have hmask : (g.vals + 16 * g.mask) / 16 = g.mask := by omega
  have hvals : (g.vals + 16 * g.mask) % 16 = g.vals := by omega
  simp only [Core.land, hmask, hvals]

theorem Core.accM_postMac (k : Core) (n : Nat) (v : Int) : (k.postMac n v).accM n = sgnVal 72 (pattern 72 v) := by
  simp [Core.accM, Core.postMac, List.filter_append]

/-! ### Flags (R166) -/

theorem flagBit_lt (sr : Word) (g : FlagSet) (j : Nat) : flagBit sr g j < 2 := by
  unfold flagBit
  split <;> exact Nat.mod_lt _ (by decide)

theorem applyFlags_toNat (sr : Word) (g : FlagSet) : (applyFlags sr g).toNat = sr.toNat / 32 * 32 +
    (if g.mask / 8 % 2 = 1 && g.vals / 8 % 2 = 1 then 1 else sr.toNat / 16 % 2) * 16 + flagBit sr g 3 * 8 +
      flagBit sr g 2 * 4 + flagBit sr g 1 * 2 + flagBit sr g 0 := by
  have hsr := sr.isLt
  have h0 := flagBit_lt sr g 0
  have h1 := flagBit_lt sr g 1
  have h2 := flagBit_lt sr g 2
  have h3 := flagBit_lt sr g 3
  have hsv : (if g.mask / 8 % 2 = 1 && g.vals / 8 % 2 = 1 then 1 else sr.toNat / 16 % 2) < 2 := by split <;> omega
  unfold applyFlags
  rw [BitVec.toNat_ofNat]
  exact Nat.mod_eq_of_lt (by omega)

theorem applyFlags_bit (sr : Word) (g : FlagSet) {j : Nat} (hj : j < 4) :
    (applyFlags sr g).toNat / 2 ^ j % 2 = flagBit sr g j := by
  rw [applyFlags_toNat]
  have h0 := flagBit_lt sr g 0
  have h1 := flagBit_lt sr g 1
  have h2 := flagBit_lt sr g 2
  have h3 := flagBit_lt sr g 3
  obtain rfl | rfl | rfl | rfl : j = 0 ∨ j = 1 ∨ j = 2 ∨ j = 3 := by omega
  all_goals omega

theorem applyFlags_sv (sr : Word) (g : FlagSet) (h : sr.toNat / 16 % 2 = 1) : (applyFlags sr g).toNat / 16 % 2 = 1 := by
  rw [applyFlags_toNat]
  have h0 := flagBit_lt sr g 0
  have h1 := flagBit_lt sr g 1
  have h2 := flagBit_lt sr g 2
  have h3 := flagBit_lt sr g 3
  rw [h, ite_self]
  omega

theorem applyFlags_high (sr : Word) (g : FlagSet) : (applyFlags sr g).toNat / 32 = sr.toNat / 32 := by
  rw [applyFlags_toNat]
  have h0 := flagBit_lt sr g 0
  have h1 := flagBit_lt sr g 1
  have h2 := flagBit_lt sr g 2
  have h3 := flagBit_lt sr g 3
  have hsv : (if g.mask / 8 % 2 = 1 && g.vals / 8 % 2 = 1 then 1 else sr.toNat / 16 % 2) < 2 := by split <;> omega
  omega

end

/-- Settles O34: each condition of an issue is one of its branches, and a cycle filters and lands the results by the
cycles they have left. -/
theorem instructionIssue : Obligations.InstructionIssue := by
  unfold Obligations.InstructionIssue
  refine ⟨fun s c e f h => State.issue_of_not_issues e h, fun s c a f h => State.issue_of_uncorrectable a h, ?poisoned,
    ?reserved, ?traps, ?trap, Core.cycle_pend, ?lands, fun k f h => Core.land_flags k f h _ _ _,
    fun k n v => ⟨Core.accM_postMac k n v, rfl⟩, fun sr f j hj => applyFlags_bit sr f hj, applyFlags_sv, applyFlags_high⟩
  case poisoned => rintro s c f _ rfl h hp; exact State.issue_of_poisoned h hp
  case reserved => rintro s c f _ rfl h hp hd; exact State.issue_of_reserved h hp hd
  case traps =>
    rintro s c f _ i r rfl h hp hd hf
    refine ⟨fun hno hslot => State.issue_of_noSlot h hp hd hf hno hslot, ?_, ?_⟩
    · rintro hno rfl
      exact State.issue_of_badAddr h hp hd hf (by simp [hno])
    · rintro hno y a rfl
      exact State.issue_of_badWord h hp hd hf (by simp [hno])
  case trap =>
    intro s c n hc hn
    refine ⟨_, rfl, ?_⟩
    simp only [State.trapCore, hc, hn, if_true, if_false, Nat.mod_eq_of_lt hc]
  case lands =>
    intro k n v h
    simp [Core.cycle, h, Core.land]

end Sys2Proof.Machine
end

section
/-!
PROOF. One cycle behind an instruction that issues into an empty pipeline, and the ALU group with the immediates (R165,
R182, R193, R194, R216, R218, R219).
-/

namespace Sys2Proof.Machine

/-! ### What an instruction may leave on its way -/

/-- The core runs on, outside REP, and no store to an I/O register of it takes effect within the next cycle. -/
structure Core.RunsOn (k : Core) : Prop where
  running : k.st = .running
  norep : k.rep = 0
  noStore : ∀ e ∈ k.pend, ∀ a, e.loc = .nx a → 1 < e.left

section
variable {s : State} {c : Nat} {k k' : Core} {i : NI} {f : NI → Core → Option NRes}

theorem Issues.runsOn (h : Issues s c k i) : k.RunsOn := by
  have hst := h.running
  obtain ⟨-, -, hpend, -, hrep, -⟩ := h
  exact ⟨hst, hrep, by simp [hpend]⟩

theorem Issues.pend_nil (h : Issues s c k i) : k.pend = [] := h.2.2.1

theorem Issues.poison_nil (h : Issues s c k i) : k.poison = [] := h.2.2.2.2.2.1

theorem Core.RunsOn.post (h : k.RunsOn) {l : NLoc} {v left : Nat} (hl : ∀ a, l = .nx a → 1 < left) :
    (k.post l v left).RunsOn := by
  refine ⟨h.running, h.norep, fun e he => ?_⟩
  rcases List.mem_append.1 he with he | he
  · exact h.noStore e he
  · obtain rfl := List.mem_singleton.1 he
    exact hl

theorem Core.RunsOn.postD (h : k.RunsOn) (n : Nat) (w : Word) (left : Nat) : (k.postD n w left).RunsOn :=
  h.post (by simp)

theorem Core.RunsOn.postFlags (h : k.RunsOn) (g : FlagSet) : (k.postFlags g).RunsOn := h.post (by simp)

theorem Core.RunsOn.postMac (h : k.RunsOn) (n : Nat) (v : Int) : (k.postMac n v).RunsOn := by
  refine ⟨h.running, h.norep, fun e he => ?_⟩
  rcases List.mem_append.1 he with he | he
  · exact h.noStore e he
  · obtain rfl := List.mem_singleton.1 he
    simp

theorem Core.RunsOn.update (h : k.RunsOn) (old : Core) (o : MemOp) : (old.update k o).RunsOn := by
  unfold Core.update Core.postPtr
  split
  · exact h.post (by simp)
  · exact h

theorem Core.RunsOn.afterRead (h : k.RunsOn) (y : Bool) (a : Nat) : (k.afterRead y a).RunsOn := by
  unfold Core.afterRead
  split
  · exact ⟨h.running, h.norep, h.noStore⟩
  · exact h

theorem Core.writeWord_st (k : Core) (y : Bool) (a : Nat) (w : Word) : (k.writeWord y a w).st = k.st := by
  unfold Core.writeWord
  grind

theorem Core.writeWord_rep (k : Core) (y : Bool) (a : Nat) (w : Word) : (k.writeWord y a w).rep = k.rep := by
  unfold Core.writeWord
  grind

/-- A store to memory or to the output frame leaves nothing on its way. -/
theorem Core.writeWord_pend (k : Core) {y : Bool} {a : Nat} (w : Word) (h : y = true ∨ a < 0x8100) :
    (k.writeWord y a w).pend = k.pend := by
  unfold Core.writeWord
  grind

theorem Core.writeWord_nx (k : Core) {a : Nat} (w : Word) (h : 0x8100 ≤ a) (hp : k.poison = []) :
    k.writeWord false a w = { k with pend := k.pend ++ [⟨.nx a, w.toNat, 2, false, k.cyc⟩] } := by
  have h1 : ¬ a < 0x8000 := by omega
  have h2 : ¬ a < 0x8080 := by omega
  have h3 : ¬ a < 0x8100 := by omega
  simp [Core.writeWord, h1, h2, h3, hp]

theorem Core.writeWord_pend_nx (k : Core) {a : Nat} (w : Word) (h : 0x8100 ≤ a) :
    (k.writeWord false a w).pend = k.pend ++ [⟨.nx a, w.toNat, 2, false, k.cyc⟩] := by
  unfold Core.writeWord
  grind

theorem Core.RunsOn.writeWord (h : k.RunsOn) (y : Bool) (a : Nat) (w : Word) : (k.writeWord y a w).RunsOn := by
  refine ⟨(k.writeWord_st y a w).trans h.running, (k.writeWord_rep y a w).trans h.norep, fun e he => ?_⟩
  by_cases hnx : y = true ∨ a < 0x8100
  · rw [Core.writeWord_pend k w hnx] at he
    exact h.noStore e he
  · obtain ⟨hy, ha⟩ := not_or.1 hnx
    rw [Bool.eq_false_iff.2 hy, Core.writeWord_pend_nx k w (Nat.le_of_not_lt ha)] at he
    rcases List.mem_append.1 he with he | he
    · exact h.noStore e he
    · obtain rfl := List.mem_singleton.1 he
      simp

/-! ### The cycle behind an instruction -/

theorem Core.cycle_quiet (h : ∀ e ∈ k.pend, ∀ a, e.loc = .nx a → 1 < e.left) : k.cycle.2 = [] := by
  simp only [Core.cycle, List.filter_filter, List.filter_eq_nil_iff]
  intro e he
  have := h e he
  grind

theorem State.cycles_one_of_quiet (h : k.cycle.2 = []) : (s.setCore c k).cycles c 1 = s.setCore c k.cycle.1 := by
  simp [State.cycles, h]

theorem Core.advance_runsOn {old : Core} (w : Nat) (hk : k.RunsOn) (hrep : old.rep = 0) (hslots : old.slots = 0) :
    Core.advance old k w false = { k with pc := (old.pc + w) % 16384 } := by
  rw [Core.advance_straight k w hrep hslots, ← hk.norep]

/-- The results of an instruction that runs on, after its cycle. -/
theorem Issues.issue_after (h : Issues s c k i) (himm : ∀ n, i ≠ .repImm n) (hreg : ∀ n, i ≠ .repReg n)
    (hf : f i k = some (.ok k')) (hk : k'.RunsOn) : s.issue c .clean f = s.setCore c (k.after k') := by
  obtain ⟨rfl, hissues, -, hslots, hrep, hpoison, hdecode⟩ := h
  have hadvance := Core.advance_runsOn (nWidth ((s.core c).fetch (s.core c).pc)) hk hrep hslots
  have hquiet : (Core.cycle
      { k' with pc := ((s.core c).pc + nWidth ((s.core c).fetch (s.core c).pc)) % 16384 }).2 = [] :=
    Core.cycle_quiet hk.noStore
  have hcycles := State.cycles_one_of_quiet (s := s) (c := c) hquiet
  have hrunning : ¬ (k'.st = .waiting ∧ k'.wait ≠ .wait) := by simp [hk.running]
  simp [State.issue, hissues, hpoison, hdecode, hf, hslots, hrep, hrunning, hadvance, hcycles, Core.after]

/-! ### What the results of one instruction are after its cycle -/

theorem Core.after_postFlags (hp : k.pend = []) (g : FlagSet) :
    k.after (k.postFlags g) = { k.passed with pend := [k.flagsLeft g] } := by
  simp [Core.after, Core.cycle, Core.postFlags, Core.post, hp, Core.passed, Core.flagsLeft]

theorem Core.after_postD (hp : k.pend = []) (n : Nat) (w : Word) :
    k.after (k.postD n w 1) = { k.passed with d := k.d.setIfInBounds n w } := by
  simp [Core.after, Core.cycle, Core.postD, Core.post, hp, Core.passed, Core.land]

theorem Core.after_result (hp : k.pend = []) (n : Nat) (v : Int) (g : FlagSet) :
    k.after ((k.postD n (BitVec.ofInt 32 v) 1).postFlags g) = k.gives n v g := by
  unfold Core.gives
  generalize BitVec.ofInt 32 v = w
  simp [Core.after, Core.cycle, Core.postD, Core.post, Core.postFlags, hp, Core.passed, Core.land,
    Core.flagsLeft]

theorem Issues.issue_result (h : Issues s c k i) (himm : ∀ n, i ≠ .repImm n) (hreg : ∀ n, i ≠ .repReg n) {n : Nat}
    {v : Int} {g : FlagSet} (hf : f i k = some (k.result n v g)) :
    s.issue c .clean f = s.setCore c (k.gives n v g) := by
  rw [h.issue_after himm hreg hf ((h.runsOn.postD _ _ _).postFlags _), Core.after_result h.pend_nil]

theorem Issues.issue_flags (h : Issues s c k i) (himm : ∀ n, i ≠ .repImm n) (hreg : ∀ n, i ≠ .repReg n)
    {g : FlagSet} (hf : f i k = some (.ok (k.postFlags g))) :
    s.issue c .clean f = s.setCore c { k.passed with pend := [k.flagsLeft g] } := by
  rw [h.issue_after himm hreg hf (h.runsOn.postFlags _), Core.after_postFlags h.pend_nil]

theorem Issues.issue_postD (h : Issues s c k i) (himm : ∀ n, i ≠ .repImm n) (hreg : ∀ n, i ≠ .repReg n)
    {n : Nat} {w : Word} (hf : f i k = some (.ok (k.postD n w 1))) :
    s.issue c .clean f = s.setCore c { k.passed with d := k.d.setIfInBounds n w } := by
  rw [h.issue_after himm hreg hf (h.runsOn.postD _ _ _), Core.after_postD h.pend_nil]

end

/-! ### Saturation (R193) -/

theorem fit_of_inRange {e : Int} (h1 : -(2 ^ 31) ≤ e) (h2 : e < 2 ^ 31) : fit 32 true e = e ∧ outOfRange 32 e = false := by
  simp only [fit, satS, outOfRange, if_true, Bool.or_eq_false_iff, decide_eq_false_iff_not]
  omega

theorem fit_of_above {e : Int} (h : 2 ^ 31 ≤ e) : fit 32 true e = 2 ^ 31 - 1 ∧ outOfRange 32 e = true := by
  simp only [fit, satS, outOfRange, if_true, Bool.or_eq_true, decide_eq_true_eq]
  omega

theorem fit_of_below {e : Int} (h : e < -(2 ^ 31)) : fit 32 true e = -(2 ^ 31) ∧ outOfRange 32 e = true := by
  simp only [fit, satS, outOfRange, if_true, Bool.or_eq_true, decide_eq_true_eq]
  omega

/-- Settles O35: each instruction posts its result and its flags, of which the one cycle lands the result. -/
theorem aluInstructions : Obligations.AluInstructions := by
  unfold Obligations.AluInstructions
  rintro c s k dd da db sh n w _ _ v rfl rfl
  refine ⟨?add, ?sub, ?neg, ?abs, ?min, ?max, ?cmp, ?and, ?or, ?xor, ?not, ?shl, ?shr, ?lsr, ?rshr, ?shlv, ?shrv, ?mov,
    ?norm, ?addi, ?cmpi, ?ldi, ?ldi32, by decide, fun e => fit_of_inRange, fun e => fit_of_above, fun e => fit_of_below⟩
  case add => rintro h rfl; exact congrArg Host.Outcome.next (h.issue_result nofun nofun rfl)
  case sub => rintro h rfl; exact congrArg Host.Outcome.next (h.issue_result nofun nofun rfl)
  case neg =>
    rintro h rfl
    rw [← Int.zero_sub]
    exact congrArg Host.Outcome.next (h.issue_result nofun nofun rfl)
  case abs => rintro h rfl; exact congrArg Host.Outcome.next (h.issue_result nofun nofun rfl)
  case min => rintro h rfl; exact congrArg Host.Outcome.next (h.issue_result nofun nofun rfl)
  case max => rintro h rfl; exact congrArg Host.Outcome.next (h.issue_result nofun nofun rfl)
  case cmp => rintro h rfl; exact congrArg Host.Outcome.next (h.issue_flags nofun nofun rfl)
  case and => exact fun h => congrArg Host.Outcome.next (h.issue_result nofun nofun rfl)
  case or => exact fun h => congrArg Host.Outcome.next (h.issue_result nofun nofun rfl)
  case xor => exact fun h => congrArg Host.Outcome.next (h.issue_result nofun nofun rfl)
  case not => exact fun h => congrArg Host.Outcome.next (h.issue_result nofun nofun rfl)
  case shl => rintro h rfl; exact congrArg Host.Outcome.next (h.issue_result nofun nofun rfl)
  case shr => rintro h rfl; exact congrArg Host.Outcome.next (h.issue_result nofun nofun rfl)
  case lsr => exact fun h => congrArg Host.Outcome.next (h.issue_result nofun nofun rfl)
  case rshr => rintro h rfl; exact congrArg Host.Outcome.next (h.issue_result nofun nofun rfl)
  case shlv => rintro h rfl; exact congrArg Host.Outcome.next (h.issue_result nofun nofun rfl)
  case shrv => rintro h rfl; exact congrArg Host.Outcome.next (h.issue_result nofun nofun rfl)
  case mov => exact fun h => congrArg Host.Outcome.next (h.issue_postD nofun nofun rfl)
  case norm => exact fun h => congrArg Host.Outcome.next (h.issue_result nofun nofun rfl)
  case addi => rintro h rfl; exact congrArg Host.Outcome.next (h.issue_result nofun nofun rfl)
  case cmpi => rintro h rfl; exact congrArg Host.Outcome.next (h.issue_flags nofun nofun rfl)
  case ldi => exact fun h => congrArg Host.Outcome.next (h.issue_postD nofun nofun rfl)
  case ldi32 => exact fun h => congrArg Host.Outcome.next (h.issue_postD nofun nofun rfl)

end Sys2Proof.Machine
end

section
/-!
PROOF. Moves, address registers, loads and stores of a core (R167, R177, R182, R202, R211 to R216, R221, R226).
-/

namespace Sys2Proof.Machine

section
variable {s : State} {c : Nat} {k : Core} {i : NI} {f : NI → Core → Option NRes}

/-! ### One result posted -/

theorem Core.after_post_due (hp : k.pend = []) (l : NLoc) (v : Nat) :
    k.after (k.post l v 1) = k.passed.land ⟨l, v, 1, false, k.cyc⟩ := by
  simp [Core.after, Core.cycle, Core.post, hp, Core.passed]

theorem Core.after_post_late (hp : k.pend = []) (l : NLoc) (v : Nat) {left : Nat} (hl : 1 < left) :
    k.after (k.post l v left) = { k.passed with pend := [⟨l, v, left - 1, false, k.cyc⟩] } := by
  simp [Core.after, Core.cycle, Core.post, hp, Core.passed, Nat.not_le.2 hl]

theorem Issues.issue_post_due (h : Issues s c k i) (himm : ∀ n, i ≠ .repImm n) (hreg : ∀ n, i ≠ .repReg n)
    {l : NLoc} {v : Nat} (hl : ∀ a, l ≠ .nx a) (hf : f i k = some (.ok (k.post l v 1))) :
    s.issue c .clean f = s.setCore c (k.passed.land ⟨l, v, 1, false, k.cyc⟩) := by
  rw [h.issue_after himm hreg hf (h.runsOn.post fun a ha => absurd ha (hl a)), Core.after_post_due h.pend_nil]

theorem Issues.issue_post_late (h : Issues s c k i) (himm : ∀ n, i ≠ .repImm n) (hreg : ∀ n, i ≠ .repReg n)
    {l : NLoc} {v left : Nat} (hl : 1 < left) (hf : f i k = some (.ok (k.post l v left))) :
    s.issue c .clean f = s.setCore c { k.passed with pend := [⟨l, v, left - 1, false, k.cyc⟩] } := by
  rw [h.issue_after himm hreg hf (h.runsOn.post fun _ _ => hl), Core.after_post_late h.pend_nil l v hl]

/-! ### Address generation (R212, R213) -/

theorem Core.step_flat {n : Nat} (x : Int) (h : k.lReg n = 0) :
    (k.step n x : Int) = ((k.pReg n : Int) + x) % 65536 := by
  simp only [Core.step, wrapSum, h, if_true, pattern]
  omega

theorem Core.step_in_buffer {n : Nat} (x : Int) (h : k.lReg n ≠ 0) (hfit : k.bReg n + k.lReg n ≤ 65536) :
    k.bReg n ≤ k.step n x ∧ k.step n x < k.bReg n + k.lReg n := by
  have hlow := Int.emod_nonneg ((k.pReg n : Int) + x - (k.bReg n : Int)) (b := (k.lReg n : Int)) (by omega)
  have hhigh := Int.emod_lt_of_pos ((k.pReg n : Int) + x - (k.bReg n : Int)) (b := (k.lReg n : Int)) (by omega)
  simp only [Core.step, wrapSum, h, if_false, pattern]
  generalize ((k.pReg n : Int) + x - (k.bReg n : Int)) % (k.lReg n : Int) = r at hlow hhigh
  omega

/-! ### Accesses that trap -/

theorem Core.trapOf_none {y : Bool} {a : Nat} (r : Bool) (hp : k.poison = []) (h : badWord y a = false) :
    k.trapOf y a r = none := by
  cases r <;> simp [Core.trapOf, Core.trapOfWords, h, Core.poisoned, hp]

theorem Core.trapOf_bad {y : Bool} {a : Nat} (r : Bool) (h : badWord y a = true) : k.trapOf y a r = some .badAddr := by
  simp [Core.trapOf, Core.trapOfWords, h]

theorem Core.trapOfQuad_none {y : Bool} {as : List Nat} (r : Bool) (hp : k.poison = []) (h : badQuad y as = false) :
    k.trapOfQuad y as r = none := by
  cases r <;> simp [Core.trapOfQuad, Core.trapOfWords, h, Core.poisoned, hp]

theorem Core.trapOfQuad_bad {y : Bool} {as : List Nat} (r : Bool) (h : badQuad y as = true) :
    k.trapOfQuad y as r = some .badAddr := by
  simp [Core.trapOfQuad, Core.trapOfWords, h]

/-- A quad access that does not trap meets no I/O register (R215). -/
theorem lt_of_badQuad {y : Bool} {as : List Nat} (h : badQuad y as = false) {a : Nat} (ha : a ∈ as) :
    y = true ∨ a < 0x8100 := by
  have := List.any_eq_false.1 h a ha
  grind

/-! ### Loads -/

theorem Core.after_load (hp : k.pend = []) (o : MemOp) (a : Nat) (l : NLoc) (v : Nat) {left : Nat} (hl : 1 < left) :
    k.after (((k.update k o).afterRead o.y a).post l v left) =
      { ((k.pointed o).afterRead o.y a).passed with pend := [⟨l, v, left - 1, false, k.cyc⟩] } := by
  have hl' := Nat.not_le.2 hl
  unfold Core.update Core.pointed Core.postPtr Core.afterRead
  cases k.memPost o <;> split <;>
    simp [Core.after, Core.cycle, Core.post, hp, hl', Core.passed, Core.land, Core.fetch]

theorem Core.after_load_lr (hp : k.pend = []) (o : MemOp) (a v : Nat) :
    k.after (((k.update k o).afterRead o.y a).post .lr v 1) =
      { ((k.pointed o).afterRead o.y a).passed with lr := BitVec.ofNat 14 v } := by
  unfold Core.update Core.pointed Core.postPtr Core.afterRead
  cases k.memPost o <;> split <;>
    simp [Core.after, Core.cycle, Core.post, hp, Core.passed, Core.land, Core.fetch]

theorem Core.after_loadQuad (hp : k.pend = []) (o : MemOp) (r : Nat) (w : Nat → Word) :
    k.after ((List.range 4).foldl (fun t j => t.postD (r + j) (w j) 2) (k.update k o)) =
      { (k.pointed o).passed with pend := (List.range 4).map (fun j => ⟨.d (r + j), (w j).toNat, 1, false, k.cyc⟩) } := by
  unfold Core.update Core.pointed Core.postPtr
  cases k.memPost o <;>
    simp [Core.after, Core.cycle, Core.post, Core.postD, hp, Core.passed, Core.land, Core.fetch, List.range, List.range.loop]

theorem Core.load_ok {tag : Nat} (hp : k.poison = []) (o : MemOp) (h : badWord o.y (k.memAddr o) = false) (l : NLoc)
    (left : Nat) : k.load c tag o l left = .ok (((k.update k o).afterRead o.y (k.memAddr o)).post l
      (k.readWord c tag o.y (k.memAddr o)).toNat left) := by
  simp [Core.load, Core.trapOf_none true hp h]

theorem Core.load_bad {tag : Nat} (o : MemOp) (h : badWord o.y (k.memAddr o) = true) (l : NLoc) (left : Nat) :
    k.load c tag o l left = .badAddr := by
  simp [Core.load, Core.trapOf_bad true h]

theorem Issues.issue_load (h : Issues s c k i) (himm : ∀ n, i ≠ .repImm n) (hreg : ∀ n, i ≠ .repReg n) {tag left : Nat}
    {o : MemOp} {l : NLoc} (hf : f i k = some (k.load c tag o l left)) (hbad : badWord o.y (k.memAddr o) = false)
    (hl : 1 < left) : s.issue c .clean f = s.setCore c { ((k.pointed o).afterRead o.y (k.memAddr o)).passed with
      pend := [⟨l, (k.readWord c tag o.y (k.memAddr o)).toNat, left - 1, false, k.cyc⟩] } := by
  rw [Core.load_ok h.poison_nil o hbad] at hf
  rw [h.issue_after himm hreg hf (((h.runsOn.update k o).afterRead _ _).post fun _ _ => hl),
    Core.after_load h.pend_nil _ _ _ _ hl]

theorem Issues.issue_load_lr (h : Issues s c k i) (himm : ∀ n, i ≠ .repImm n) (hreg : ∀ n, i ≠ .repReg n) {tag : Nat}
    {o : MemOp} (hf : f i k = some (k.load c tag o .lr 1)) (hbad : badWord o.y (k.memAddr o) = false) :
    s.issue c .clean f = s.setCore c { ((k.pointed o).afterRead o.y (k.memAddr o)).passed with
      lr := BitVec.ofNat 14 (k.readWord c tag o.y (k.memAddr o)).toNat } := by
  rw [Core.load_ok h.poison_nil o hbad] at hf
  rw [h.issue_after himm hreg hf (((h.runsOn.update k o).afterRead _ _).post (by simp)), Core.after_load_lr h.pend_nil]

/-! ### Stores -/

/-- A store to memory looks at nothing but the memories. -/
theorem Core.writeWord_frame (t : Core) {y : Bool} {a : Nat} (w : Word) (h : y = true ∨ a < 0x8100)
    (p : Vector (BitVec 16) 8) (q : List NPend) :
    ({ t with p := p, pend := q }).writeWord y a w = { t.writeWord y a w with p := p, pend := q } := by
  unfold Core.writeWord
  grind

theorem Core.foldl_writeWord_frame {y : Bool} (p : Vector (BitVec 16) 8) (q : List NPend) (es : List (Nat × Word))
    (h : ∀ e ∈ es, y = true ∨ e.1 < 0x8100) (t : Core) :
    es.foldl (fun (t : Core) e => t.writeWord y e.1 e.2) { t with p := p, pend := q } =
      { es.foldl (fun (t : Core) e => t.writeWord y e.1 e.2) t with p := p, pend := q } := by
  induction es generalizing t with
  | nil => rfl
  | cons e es ih =>
    rw [List.foldl_cons, Core.writeWord_frame t e.2 (h e (by simp)), ih (fun e he => h e (by simp [he])), List.foldl_cons]

theorem Core.writeWord_fetch (k : Core) (y : Bool) (a : Nat) (w : Word) :
    (k.writeWord y a w).pmem = k.pmem ∧ (k.writeWord y a w).pc = k.pc := by
  unfold Core.writeWord
  grind

theorem Core.foldl_writeWord_fetch {y : Bool} (es : List (Nat × Word)) (k : Core) :
    (es.foldl (fun (t : Core) e => t.writeWord y e.1 e.2) k).pmem = k.pmem ∧
      (es.foldl (fun (t : Core) e => t.writeWord y e.1 e.2) k).pc = k.pc := by
  induction es generalizing k with
  | nil => exact ⟨rfl, rfl⟩
  | cons e es ih =>
    obtain ⟨hpmem, hpc⟩ := k.writeWord_fetch y e.1 e.2
    obtain ⟨hpmem', hpc'⟩ := ih (k.writeWord y e.1 e.2)
    exact ⟨hpmem'.trans hpmem, hpc'.trans hpc⟩

theorem Core.RunsOn.foldl_writeWord {y : Bool} (es : List (Nat × Word)) (h : k.RunsOn) :
    (es.foldl (fun (t : Core) e => t.writeWord y e.1 e.2) k).RunsOn := by
  induction es generalizing k with
  | nil => exact h
  | cons e es ih => exact ih (h.writeWord y e.1 e.2)

theorem Core.after_stores {y : Bool} (hp : k.pend = []) (o : MemOp) (es : List (Nat × Word))
    (h : ∀ e ∈ es, y = true ∨ e.1 < 0x8100) :
    k.after (es.foldl (fun (t : Core) e => t.writeWord y e.1 e.2) (k.update k o)) =
      (es.foldl (fun (t : Core) e => t.writeWord y e.1 e.2) (k.pointed o)).passed := by
  obtain ⟨hpmem, hpc⟩ := Core.foldl_writeWord_fetch (y := y) es k
  have hframe := fun p q => Core.foldl_writeWord_frame p q es h k
  have hupdate : k.update k o = { k with p := k.p, pend := (k.update k o).pend } := by
    unfold Core.update Core.postPtr
    split <;> rfl
  have hpointed : k.pointed o = { k with p := (k.pointed o).p, pend := k.pend } := rfl
  rw [hupdate, hpointed, hframe k.p (k.update k o).pend, hframe (k.pointed o).p k.pend]
  generalize es.foldl (fun (t : Core) e => t.writeWord y e.1 e.2) k = t at hpmem hpc
  unfold Core.update Core.pointed Core.postPtr
  cases k.memPost o <;>
    simp [Core.after, Core.cycle, Core.post, hp, Core.passed, Core.land, Core.fetch, hpmem, hpc]

theorem Core.after_store_nx (hp : k.pend = []) (hpoison : k.poison = []) (o : MemOp) {a : Nat} (w : Word) (h : 0x8100 ≤ a) :
    k.after ((k.update k o).writeWord false a w) =
      { (k.pointed o).passed with pend := [⟨.nx a, w.toNat, 1, false, k.cyc⟩] } := by
  have hpoison' : (k.update k o).poison = [] := by
    unfold Core.update Core.postPtr
    split <;> exact hpoison
  rw [Core.writeWord_nx _ w h hpoison']
  unfold Core.update Core.pointed Core.postPtr
  cases k.memPost o <;>
    simp [Core.after, Core.cycle, Core.post, hp, Core.passed, Core.land, Core.fetch]

theorem Core.store_ok (hp : k.poison = []) (o : MemOp) (w : Word) (h : badWord o.y (k.memAddr o) = false) :
    k.store o w = .ok ((k.update k o).writeWord o.y (k.memAddr o) w) := by
  simp [Core.store, Core.trapOf_none false hp h]

theorem Core.store_bad (o : MemOp) (w : Word) (h : badWord o.y (k.memAddr o) = true) : k.store o w = .badAddr := by
  simp [Core.store, Core.trapOf_bad false h]

theorem Issues.issue_store (h : Issues s c k i) (himm : ∀ n, i ≠ .repImm n) (hreg : ∀ n, i ≠ .repReg n) {o : MemOp}
    {w : Word} (hf : f i k = some (k.store o w)) (hbad : badWord o.y (k.memAddr o) = false)
    (hmem : o.y = true ∨ k.memAddr o < 0x8100) :
    s.issue c .clean f = s.setCore c ((k.pointed o).writeWord o.y (k.memAddr o) w).passed := by
  rw [Core.store_ok h.poison_nil o w hbad] at hf
  have hafter := Core.after_stores (y := o.y) h.pend_nil o [(k.memAddr o, w)] (by simpa using hmem)
  rw [h.issue_after himm hreg hf ((h.runsOn.update k o).writeWord _ _ _)]
  exact congrArg (s.setCore c) hafter

theorem Issues.issue_store_nx (h : Issues s c k i) (himm : ∀ n, i ≠ .repImm n) (hreg : ∀ n, i ≠ .repReg n) {o : MemOp}
    {w : Word} (hf : f i k = some (k.store o w)) (hbad : badWord o.y (k.memAddr o) = false) (hx : o.y = false)
    (hnx : 0x8100 ≤ k.memAddr o) : s.issue c .clean f = s.setCore c
      { (k.pointed o).passed with pend := [⟨.nx (k.memAddr o), w.toNat, 1, false, k.cyc⟩] } := by
  rw [Core.store_ok h.poison_nil o w hbad] at hf
  rw [h.issue_after himm hreg hf ((h.runsOn.update k o).writeWord _ _ _), hx,
    Core.after_store_nx h.pend_nil h.poison_nil o w hnx]

theorem Core.storeQuad_ok (hp : k.poison = []) (k' : Core) (o : MemOp) (ws : List Word)
    (h : badQuad o.y (k.quadAddrs o) = false) : k.storeQuad k' o ws =
      .ok (((k.quadAddrs o).zip ws).foldl (fun (t : Core) e => t.writeWord o.y e.1 e.2) (k.update k' o)) := by
  simp [Core.storeQuad, Core.trapOfQuad_none false hp h]

theorem Issues.issue_storeQuad (h : Issues s c k i) (himm : ∀ n, i ≠ .repImm n) (hreg : ∀ n, i ≠ .repReg n) {o : MemOp}
    {ws : List Word} (hf : f i k = some (k.storeQuad k o ws)) (hbad : badQuad o.y (k.quadAddrs o) = false) :
    s.issue c .clean f = s.setCore c (((k.quadAddrs o).zip ws).foldl
      (fun (t : Core) e => t.writeWord o.y e.1 e.2) (k.pointed o)).passed := by
  rw [Core.storeQuad_ok h.poison_nil k o ws hbad] at hf
  rw [h.issue_after himm hreg hf (Core.RunsOn.foldl_writeWord _ (h.runsOn.update k o)),
    Core.after_stores h.pend_nil o _ fun e he => lt_of_badQuad hbad (List.of_mem_zip he).1]

/-! ### Dual accesses (R226) -/

theorem Core.RunsOn.side {k' : Core} (h : k'.RunsOn) (k : Core) (tag : Nat) (o : MemOp) (st : Bool) (d : Nat) :
    (k.side k' c tag o st d).RunsOn := by
  unfold Core.side
  split
  · exact (h.update k o).writeWord _ _ _
  · exact ((h.update k o).afterRead _ _).postD _ _ _

theorem Core.dual_ok {tag : Nat} (hp : k.poison = []) (k' : Core) (o : DualOp) (hx : badWord false (k.memAddr o.x) = false)
    (hy : badWord true (k.memAddr o.yy) = false) :
    k.dual k' c tag o = .ok (k.side (k.side k' c tag o.x o.xst o.xd) c tag o.yy o.yst o.yd) := by
  simp [Core.dual, Core.trapOf_none _ hp hx, Core.trapOf_none _ hp hy]

theorem Core.dual_bad {tag : Nat} (k' : Core) (o : DualOp) (hx : badWord false (k.memAddr o.x) = true) :
    k.dual k' c tag o = .badAddr := by
  simp [Core.dual, Core.trapOf_bad _ hx]

/-! ### A word stored and read back -/

theorem Core.readWord_writeWord_same {tag : Nat} (t : Core) (y : Bool) {b : Nat} (v : Word) (h : b < 0x8000) :
    (t.writeWord y b v).readWord c tag y b = v := by
  cases y <;> simp [Core.writeWord, Core.readWord, h, Sparse.get_set_same]

theorem Core.readWord_writeWord_other {tag : Nat} (t : Core) (y : Bool) {b b' : Nat} (v : Word) (h : b < 0x8000)
    (h' : b' < 0x8000) (hne : b' ≠ b) : (t.writeWord y b v).readWord c tag y b' = t.readWord c tag y b' := by
  cases y <;> simp [Core.writeWord, Core.readWord, h, h', Sparse.get_set_other, hne]

theorem Core.readWord_writeWord_space {tag : Nat} (t : Core) (y : Bool) {b b' : Nat} (v : Word) (h : b < 0x8000)
    (h' : b' < 0x8000) : (t.writeWord y b v).readWord c tag (!y) b' = t.readWord c tag (!y) b' := by
  cases y <;> simp [Core.writeWord, Core.readWord, h, h']

end

/-- Settles O36: the results on their way after one cycle, for each form of a move, a load and a store. -/
theorem addressesAndMemory : Obligations.AddressesAndMemory := by
  unfold Obligations.AddressesAndMemory
  refine ⟨?moves, ?memory⟩
  case moves =>
    intro c s k dx n v l
    refine ⟨fun h => congrArg Host.Outcome.next (h.issue_postD nofun nofun rfl),
      fun h => congrArg Host.Outcome.next (h.issue_post_late nofun nofun (left := 3) (by decide) rfl),
      fun h => congrArg Host.Outcome.next (h.issue_post_late nofun nofun (left := 2) (by decide) rfl),
      fun h => congrArg Host.Outcome.next (h.issue_post_due (l := .lr) nofun nofun (by simp) rfl),
      fun h => congrArg Host.Outcome.next (h.issue_post_due (l := .ipc) nofun nofun (by simp) rfl),
      fun h => congrArg Host.Outcome.next (h.issue_post_late nofun nofun (left := 3) (by decide) rfl),
      fun h => congrArg Host.Outcome.next (h.issue_post_late nofun nofun (left := 3) (by decide) rfl),
      fun h => congrArg Host.Outcome.next (h.issue_post_late nofun nofun (left := 3) (by decide) rfl),
      fun h => congrArg Host.Outcome.next (h.issue_post_late nofun nofun (left := 3) (by decide) rfl),
      fun h => congrArg Host.Outcome.next (h.issue_post_due (l := .p n) nofun nofun (by simp) rfl),
      fun x h => Core.step_flat x h, fun x h hfit => Core.step_in_buffer x h hfit⟩
  case memory =>
    rintro c s k r l o _ _ rfl rfl
    refine ⟨?ld, ?lds, ?ldsLr, ?st, ?stNx, ?sts, ?ldBad, ?stBad, ?bad, ?ldq, ?stq, ?ldqBad, ?dls, ?dlsBad, ?back, ?others⟩
    case ld =>
      exact fun h hbad => congrArg Host.Outcome.next (h.issue_load nofun nofun (left := 2) rfl hbad (by decide))
    case lds =>
      intro h hbad hl
      have hlate : 1 < specLoadLatency l := by
        cases l <;> simp_all [specLoadLatency, specLatency]
      exact congrArg Host.Outcome.next (h.issue_load nofun nofun rfl hbad hlate)
    case ldsLr => exact fun h hbad => congrArg Host.Outcome.next (h.issue_load_lr nofun nofun rfl hbad)
    case st => exact fun h hbad hmem => congrArg Host.Outcome.next (h.issue_store nofun nofun rfl hbad hmem)
    case stNx => exact fun h hbad hx hnx => congrArg Host.Outcome.next (h.issue_store_nx nofun nofun rfl hbad hx hnx)
    case sts => exact fun h hbad hmem => congrArg Host.Outcome.next (h.issue_store nofun nofun rfl hbad hmem)
    case ldBad =>
      exact fun h hbad => congrArg Host.Outcome.next (h.issue_badAddr (congrArg some (Core.load_bad o hbad _ _)))
    case stBad => exact fun h hbad => congrArg Host.Outcome.next (h.issue_badAddr (congrArg some (Core.store_bad o _ hbad)))
    case bad => intro b; simp [badWord]
    case ldq =>
      intro h hbad
      refine congrArg Host.Outcome.next ((h.issue_after nofun nofun (k' := (List.range 4).foldl (fun t j => t.postD (r + j)
        (k.readWord c s.needle.tag o.y ((k.quadAddrs o).getD j 0)) 2) (k.update k o)) ?_ ?_).trans
          (congrArg (s.setCore c) (Core.after_loadQuad h.pend_nil o r _)))
      · simp [Core.trapOfQuad_none true h.poison_nil hbad]
      · exact (((((h.runsOn.update k o).postD _ _ _).postD _ _ _).postD _ _ _).postD _ _ _)
    case stq => exact fun h hbad => congrArg Host.Outcome.next (h.issue_storeQuad nofun nofun rfl hbad)
    case ldqBad =>
      exact fun h hbad => congrArg Host.Outcome.next (h.issue_badAddr (by simp [Core.trapOfQuad_bad true hbad]))
    case dls =>
      intro p h hx hy
      exact congrArg Host.Outcome.next (h.issue_after nofun nofun (congrArg some (Core.dual_ok h.poison_nil k p hx hy))
        ((h.runsOn.side k _ _ _ _).side k _ _ _ _))
    case dlsBad =>
      exact fun p h hx => congrArg Host.Outcome.next (h.issue_badAddr (congrArg some (Core.dual_bad k p hx)))
    case back => exact fun t b v hb => ⟨t.readWord_writeWord_same true v hb, t.readWord_writeWord_same false v hb⟩
    case others =>
      exact fun t y b b' v hb hb' hne =>
        ⟨t.readWord_writeWord_other y v hb hb' hne, t.readWord_writeWord_space y v hb hb'⟩

end Sys2Proof.Machine
end

section
/-!
PROOF. Multiply-accumulates, accumulator functions and extracts of a core (R182, R193, R194, R214, R219, R222 to R224,
R226).
-/

namespace Sys2Proof.Machine

section
variable {s : State} {c : Nat} {k : Core} {i : NI} {f : NI → Core → Option NRes}

/-! ### Lanes -/

/-- With nothing on its way a MAC sees of an accumulator what the others see. -/
theorem Core.accM_of_pend_nil (hp : k.pend = []) (n : Nat) : k.accM n = k.accO n := by
  simp [Core.accM, hp]

theorem Core.RunsOn.foldl_postMac (g : Nat × Int → Int) (es : List (Nat × Int)) (h : k.RunsOn) :
    (es.foldl (fun (t : Core) e => t.postMac e.1 (g e)) k).RunsOn := by
  induction es generalizing k with
  | nil => exact h
  | cons e es ih => exact ih (h.postMac e.1 (g e))

theorem Core.RunsOn.lanes (h : k.RunsOn) (op : Nat) (ls : List (Nat × Word × Word)) : (k.lanes op ls).RunsOn :=
  (h.foldl_postMac _ _).postFlags _

/-- The results of one lane, a cycle after its instruction. -/
theorem Core.after_lane (hp : k.pend = []) (op an : Nat) (a b : Word) :
    k.after (k.lanes op [(an, a, b)]) = { k.passed with
      pend := [⟨.acc an, pattern 72 (fit 72 (srSat k.sr) (k.lane op an a b)), 2, true, k.cyc⟩,
        k.flagsLeft (flagsV (outOfRange 72 (k.lane op an a b)))] } := by
  simp [Core.lanes, Core.after, Core.cycle, Core.postMac, Core.postFlags, Core.post, hp, Core.passed, Core.flagsLeft]

theorem Issues.issue_lane (h : Issues s c k i) (himm : ∀ n, i ≠ .repImm n) (hreg : ∀ n, i ≠ .repReg n) {op an : Nat}
    {a b : Word} {e : Int} (he : k.lane op an a b = e) (hf : f i k = some (.ok (k.lanes op [(an, a, b)]))) :
    s.issue c .clean f = s.setCore c { k.passed with
      pend := [⟨.acc an, pattern 72 (fit 72 (srSat k.sr) e), 2, true, k.cyc⟩, k.flagsLeft (flagsV (outOfRange 72 e))] } := by
  rw [h.issue_after himm hreg hf (h.runsOn.lanes _ _), Core.after_lane h.pend_nil, he]

/-- The lanes of a quad MAC from memory (R214, R222), when neither side traps. -/
theorem Core.qmacm_ok {tag op : Nat} {o : MacmOp} {xs ys : List Nat} {ls : List (Nat × Word × Word)} (hp : k.poison = [])
    (hxs : xs = k.quadAddrs ⟨false, none, o.xp, o.xam⟩)
    (hys : ys = (if o.bc = true then List.replicate 4 (k.memAddr ⟨true, none, o.yp, o.yam⟩)
      else k.quadAddrs ⟨true, none, o.yp, o.yam⟩))
    (hbx : badQuad false xs = false) (hby : badQuad true ys = false)
    (hls : ls = (List.range 4).map (fun j => (j, k.readWord c tag false (xs.getD j 0), k.readWord c tag true (ys.getD j 0)))) :
    k.qmacm c tag op o =
      .ok (k.update (k.update (k.lanes op ls) ⟨false, none, o.xp, o.xam⟩) ⟨true, none, o.yp, o.yam⟩) := by
  have hy : (if o.bc = true then [k.memAddr ⟨true, none, o.yp, o.yam⟩, k.memAddr ⟨true, none, o.yp, o.yam⟩,
      k.memAddr ⟨true, none, o.yp, o.yam⟩, k.memAddr ⟨true, none, o.yp, o.yam⟩]
        else k.quadAddrs ⟨true, none, o.yp, o.yam⟩) = ys := hys.symm
  unfold Core.qmacm
  simp only [hy, ← hxs, Core.trapOfQuad_none true hp hbx, Core.trapOfQuad_none true hp hby, ← hls]

theorem Issues.issue_qmacm (h : Issues s c k i) (himm : ∀ n, i ≠ .repImm n) (hreg : ∀ n, i ≠ .repReg n) {tag op : Nat}
    {o : MacmOp} {xs ys : List Nat} {ls : List (Nat × Word × Word)} (hf : f i k = some (k.qmacm c tag op o))
    (hxs : xs = k.quadAddrs ⟨false, none, o.xp, o.xam⟩)
    (hys : ys = (if o.bc = true then List.replicate 4 (k.memAddr ⟨true, none, o.yp, o.yam⟩)
      else k.quadAddrs ⟨true, none, o.yp, o.yam⟩))
    (hbx : badQuad false xs = false) (hby : badQuad true ys = false)
    (hls : ls = (List.range 4).map (fun j => (j, k.readWord c tag false (xs.getD j 0), k.readWord c tag true (ys.getD j 0)))) :
    s.issue c .clean f = s.setCore c (k.after
      (k.update (k.update (k.lanes op ls) ⟨false, none, o.xp, o.xam⟩) ⟨true, none, o.yp, o.yam⟩)) :=
  h.issue_after himm hreg (hf.trans (congrArg some (Core.qmacm_ok h.poison_nil hxs hys hbx hby hls)))
    (((h.runsOn.lanes _ _).update k _).update k _)

/-! ### Accumulator functions and extracts (R223, R224) -/

theorem Issues.issue_accResult (h : Issues s c k i) (himm : ∀ n, i ≠ .repImm n) (hreg : ∀ n, i ≠ .repReg n) {an : Nat}
    {e : Int} (hf : f i k = some (k.accResult an e)) : s.issue c .clean f = s.setCore c { k.passed with
      pend := [⟨.acc an, pattern 72 (fit 72 (srSat k.sr) e), 2, false, k.cyc⟩,
        k.flagsLeft (flagsZNV (fit 72 (srSat k.sr) e) (outOfRange 72 e))] } := by
  rw [h.issue_after himm hreg hf ((h.runsOn.post (by simp)).postFlags _)]
  simp [Core.after, Core.cycle, Core.postFlags, Core.post, h.pend_nil, Core.passed, Core.flagsLeft]

theorem Core.RunsOn.quadExtract (h : k.RunsOn) (dd n : Nat) : (k.quadExtract dd n).RunsOn :=
  ((((h.postD _ _ _).postD _ _ _).postD _ _ _).postD _ _ _).postFlags _

theorem Core.after_quadExtract (hp : k.pend = []) (dd sh : Nat) {x : Nat → Int}
    (hx : ∀ j, x j = dropBits (srRnd k.sr) sh (k.accO j)) : k.after (k.quadExtract dd sh) = { k.passed with
      d := [0, 1, 2, 3].foldl (fun v j => v.setIfInBounds (dd + j) (BitVec.ofInt 32 (fit 32 (srSat k.sr) (x j)))) k.d,
      pend := [k.flagsLeft (flagsV ([0, 1, 2, 3].any (fun j => outOfRange 32 (x j))))] } := by
  have hextract : ∀ j, k.extract j sh = (fit 32 (srSat k.sr) (x j), outOfRange 32 (x j)) := fun j => by
    rw [hx j]
    rfl
  simp only [Core.quadExtract, hextract]
  simp [-BitVec.toNat_ofInt, Core.after, Core.cycle, Core.postD, Core.postFlags, Core.post, hp, Core.passed, Core.land,
    Core.flagsLeft]

end

/-- Settles O37: the results of lanes, accumulator functions and extracts after the cycle of their instruction. -/
theorem accumulatorInstructions : Obligations.AccumulatorInstructions := by
  unfold Obligations.AccumulatorInstructions
  refine ⟨?multiply, ?functions⟩
  case multiply =>
    rintro c s k an da db bc o p _ rfl
    refine ⟨?mac, ?msu, ?mpy, ?mpyn, ?quad, ?quadMemory, ?dual, fun t a b => ⟨rfl, rfl, rfl, rfl⟩, ?lanes⟩
    case mac =>
      intro h
      exact congrArg Host.Outcome.next (h.issue_lane nofun nofun
        (congrArg (· + _) (Core.accM_of_pend_nil h.pend_nil an)) rfl)
    case msu =>
      intro h
      exact congrArg Host.Outcome.next (h.issue_lane nofun nofun
        (congrArg (· - _) (Core.accM_of_pend_nil h.pend_nil an)) rfl)
    case mpy => exact fun h => congrArg Host.Outcome.next (h.issue_lane nofun nofun rfl rfl)
    case mpyn => exact fun h => congrArg Host.Outcome.next (h.issue_lane nofun nofun rfl rfl)
    case quad =>
      rintro _ rfl
      exact ⟨fun h => congrArg Host.Outcome.next (h.issue_after nofun nofun rfl (h.runsOn.lanes _ _)),
        fun h => congrArg Host.Outcome.next (h.issue_after nofun nofun rfl (h.runsOn.lanes _ _)),
        fun h => congrArg Host.Outcome.next (h.issue_after nofun nofun rfl (h.runsOn.lanes _ _)),
        fun h => congrArg Host.Outcome.next (h.issue_after nofun nofun rfl (h.runsOn.lanes _ _))⟩
    case quadMemory =>
      intro xs ys ls hxs hys hbx hby hls
      exact ⟨fun h => congrArg Host.Outcome.next (h.issue_qmacm nofun nofun rfl hxs hys hbx hby hls),
        fun h => congrArg Host.Outcome.next (h.issue_qmacm nofun nofun rfl hxs hys hbx hby hls),
        fun h => congrArg Host.Outcome.next (h.issue_qmacm nofun nofun rfl hxs hys hbx hby hls),
        fun h => congrArg Host.Outcome.next (h.issue_qmacm nofun nofun rfl hxs hys hbx hby hls)⟩
    case dual =>
      rintro op _ h hx hy rfl
      exact congrArg Host.Outcome.next (h.issue_after nofun nofun (congrArg some (Core.dual_ok h.poison_nil _ p hx hy))
        (((h.runsOn.lanes _ _).side k _ _ _ _).side k _ _ _ _))
    case lanes =>
      intro t op ls
      simp [Core.lanes, List.any_map, Function.comp_def]
  case functions =>
    rintro c s k an a2 dd sh o e _ rfl
    refine ⟨?aclr, ?aadd, ?asub, ?amov, ?aneg, ?ashl, ?ashr, ?ext, ?qext, ?qexts, ?modes, fun rnd x => if_pos rfl⟩
    case aclr => rintro h rfl; exact congrArg Host.Outcome.next (h.issue_accResult nofun nofun rfl)
    case aadd => rintro h rfl; exact congrArg Host.Outcome.next (h.issue_accResult nofun nofun rfl)
    case asub => rintro h rfl; exact congrArg Host.Outcome.next (h.issue_accResult nofun nofun rfl)
    case amov => rintro h rfl; exact congrArg Host.Outcome.next (h.issue_accResult nofun nofun rfl)
    case aneg => rintro h rfl; exact congrArg Host.Outcome.next (h.issue_accResult nofun nofun rfl)
    case ashl => rintro h rfl; exact congrArg Host.Outcome.next (h.issue_accResult nofun nofun rfl)
    case ashr => rintro h rfl; exact congrArg Host.Outcome.next (h.issue_accResult nofun nofun rfl)
    case ext => rintro h rfl; exact congrArg Host.Outcome.next (h.issue_result nofun nofun rfl)
    case qext =>
      intro x hx h
      exact congrArg Host.Outcome.next ((h.issue_after nofun nofun rfl (h.runsOn.quadExtract dd sh)).trans
        (congrArg (s.setCore c) (Core.after_quadExtract h.pend_nil dd sh hx)))
    case qexts =>
      rintro h hbad _ rfl
      exact congrArg Host.Outcome.next (h.issue_after nofun nofun
        (congrArg some (Core.storeQuad_ok h.poison_nil _ o _ hbad))
          (Core.RunsOn.foldl_writeWord _ ((h.runsOn.quadExtract dd sh).update k o)))
    case modes =>
      intro n x hn
      simp only [dropBits, hn, if_false]
      exact ⟨trivial, trivial, fun h => if_pos h, fun h => if_neg (by omega)⟩

end Sys2Proof.Machine
end

section
/-!
PROOF. System and flow instructions, REP and interrupts of a core (R169, R181, R184 to R190, R217, R220, R225).
-/

namespace Sys2Proof.Machine

section
variable {s : State} {c : Nat} {k : Core} {i : NI} {f : NI → Core → Option NRes}

/-! ### Instructions that leave nothing on their way -/

theorem Issues.issue_ok_running {k' : Core} (h : Issues s c k i) (himm : ∀ n, i ≠ .repImm n) (hreg : ∀ n, i ≠ .repReg n)
    (hf : f i k = some (.ok k')) (hk : k'.RunsOn) (hpend : k'.pend = []) : s.issue c .clean f = s.setCore c { k' with
      pc := (k.pc + nWidth (k.fetch k.pc)) % 16384, cyc := k'.cyc + 1,
      blockAge := if k'.irqPend % 2 = 1 then k'.blockAge + 1 else k'.blockAge } := by
  rw [h.issue_ok himm hreg hf hpend (by simp [hk.running]), ← hk.norep]

/-- A WAITS that stalls stays at its own address (R181). -/
theorem Issues.issue_stays {k' : Core} (h : Issues s c k i) (hno : i.noSlot = true)
    (hf : f i k = some (.ok k')) (hpend : k'.pend = []) (hst : k'.st = .waiting) (hwait : k'.wait ≠ .wait) :
    s.issue c .clean f = s.setCore c { k' with
      cyc := k'.cyc + 1, blockAge := if k'.irqPend % 2 = 1 then k'.blockAge + 1 else k'.blockAge } := by
  obtain ⟨rfl, hissues, -, hslots, hrep, hpoison, hdecode⟩ := h
  have hcycle := State.cycles_one_of_pend_nil s c hpend
  simp [State.issue, hissues, hpoison, hdecode, hf, hno, hslots, hrep, hst, hwait, hcycle]

/-! ### Flow (R184, R225) -/

/-- A flow instruction: what is left of it after its cycle, with two delay slots to go. -/
theorem Issues.flowIssue_eq {g : NI → Core → Option (Core × NFlow)} {k' t : Core} {fl : NFlow} (h : Issues s c k i)
    (himm : ∀ n, i ≠ .repImm n) (hreg : ∀ n, i ≠ .repReg n) (hg : g i k = some (k', fl)) (hk : k'.RunsOn)
    (ht : k.after (k'.flowTo fl) = t) (hflow : t.flow ≠ .none) (hslots : t.slots = 0) (hst : t.st = .running) :
    flowIssue s c .clean g = s.setCore c { t with slots := 2 } := by
  have hissue : s.issue c .clean (fun i k => (g i k).map (fun r => .ok (r.1.flowTo r.2))) = s.setCore c t := by
    rw [h.issue_after himm hreg (k' := k'.flowTo fl) (by simp [hg]) ⟨hk.running, hk.norep, hk.noStore⟩, ht]
  simp [flowIssue, hissue, hflow, hslots, hst]

theorem Core.after_flowTo (hp : k.pend = []) (fl : NFlow) : k.after (k.flowTo fl) = { k.passed with flow := fl } := by
  simp [Core.after, Core.cycle, Core.flowTo, hp, Core.passed]

theorem Core.after_call (hp : k.pend = []) (a : Nat) (fl : NFlow) :
    k.after ((k.post .lr a 1).flowTo fl) = { k.passed with flow := fl, lr := BitVec.ofNat 14 a } := by
  simp [Core.after, Core.cycle, Core.flowTo, Core.post, hp, Core.passed, Core.land]

theorem Issues.flowIssue_jump {g : NI → Core → Option (Core × NFlow)} {fl : NFlow} (h : Issues s c k i)
    (himm : ∀ n, i ≠ .repImm n) (hreg : ∀ n, i ≠ .repReg n) (hg : g i k = some (k, fl)) (hfl : fl ≠ .none) :
    flowIssue s c .clean g = s.setCore c { k.passed with flow := fl, slots := 2 } :=
  have hslots : k.slots = 0 := h.2.2.2.1
  h.flowIssue_eq himm hreg hg h.runsOn (Core.after_flowTo h.pend_nil fl) hfl hslots h.running

theorem Issues.flowIssue_call {g : NI → Core → Option (Core × NFlow)} {a : Nat} {fl : NFlow} (h : Issues s c k i)
    (himm : ∀ n, i ≠ .repImm n) (hreg : ∀ n, i ≠ .repReg n) (hg : g i k = some (k.post .lr a 1, fl)) (hfl : fl ≠ .none) :
    flowIssue s c .clean g = s.setCore c { k.passed with flow := fl, slots := 2, lr := BitVec.ofNat 14 a } :=
  have hslots : k.slots = 0 := h.2.2.2.1
  h.flowIssue_eq himm hreg hg (h.runsOn.post (by simp)) (Core.after_call h.pend_nil a fl) hfl hslots h.running

/-! ### REP (R185) -/

theorem Issues.issue_rep_to {k' t : Core} (h : Issues s c k i) (hi : (∃ n, i = .repImm n) ∨ ∃ dx, i = .repReg dx)
    (hf : f i k = some (.ok k')) (hst : k'.st = .running) (ht : Core.advance k k' (nWidth (k.fetch k.pc)) true = t)
    (hpend : t.pend = []) : s.issue c .clean f = s.setCore c { t with
      cyc := t.cyc + 1, blockAge := if t.irqPend % 2 = 1 then t.blockAge + 1 else t.blockAge } := by
  obtain ⟨rfl, hissues, -, hslots, hrep, hpoison, hdecode⟩ := h
  have hcycle := State.cycles_one_of_pend_nil s c hpend
  have hnotStay : ¬ (k'.st = .waiting ∧ k'.wait ≠ .wait) := by simp [hst]
  rcases hi with ⟨n, rfl⟩ | ⟨dx, rfl⟩ <;>
    simp [State.issue, hissues, hpoison, hdecode, hf, hslots, hrep, hnotStay, ht, hcycle]

theorem Issues.issue_rep {n : Nat} (h : Issues s c k i) (hi : (∃ n, i = .repImm n) ∨ ∃ dx, i = .repReg dx)
    (hf : f i k = some (.ok { k with rep := n })) (hn : n ≠ 0) :
    s.issue c .clean f = s.setCore c { k.passed with rep := n } := by
  rw [h.issue_rep_to hi hf h.running (t := { k with rep := n, pc := (k.pc + nWidth (k.fetch k.pc)) % 16384 })
    (by simp [Core.advance, hn]) h.pend_nil]
  rfl

/-- A count of zero skips the repeated instruction. -/
theorem Issues.issue_rep_zero {dx : Nat} (h : Issues s c k (.repReg dx))
    (hf : f (.repReg dx) k = some (.ok { k with rep := 0 })) : s.issue c .clean f = s.setCore c
      { k.passed with pc := (k.passed.pc + nWidth (k.fetch k.passed.pc)) % 16384 } := by
  rw [h.issue_rep_to (.inr ⟨dx, rfl⟩) hf h.running
    (t := { k with pc := (k.passed.pc + nWidth (k.fetch k.passed.pc)) % 16384 })
    (by simp [Core.advance, Core.passed, h.runsOn.norep]) h.pend_nil]
  rfl

/-! ### Interrupts and stalls (R181, R189, R190) -/

theorem exec_waitsEnd_of_free {c : Fin 64} {stall n : Nat} (hst : (s.core c).st = .waiting)
    (hwait : (s.core c).wait = .waits n) (hfree : ((s.core c).sp n).busy = false) (hirq : (s.core c).takesIrq = false) :
    exec (.waitsEnd c stall) s = .next ((s.setCore c { s.core c with
      st := .running, wait := .none, pc := ((s.core c).pc + 1) % 16384 }).stall c stall) := by
  show execWaitsEnd c stall s = _
  simp [execWaitsEnd, hst, hwait, hfree, hirq]

theorem exec_waitsEnd_of_busy {c : Fin 64} {stall n : Nat} (hwait : (s.core c).wait = .waits n)
    (hbusy : ((s.core c).sp n).busy = true) : exec (.waitsEnd c stall) s = .next s := by
  show execWaitsEnd c stall s = _
  simp [execWaitsEnd, hwait, hbusy]

theorem exec_interruptEntry_of_running {c : Fin 64} {src : Nat} (stall : Nat) (hst : (s.core c).st = .running)
    (htakes : (s.core c).takesIrq = true) (hnext : (s.core c).irqNext = some src) (hsrc : src ≠ 0) :
    exec (.interruptEntry c stall) s = .next ((s.setCore c { s.core c with
      ipc := BitVec.ofNat 14 (s.core c).pc, istat := (s.core c).sr, sr := (s.core c).sr &&& ~~~ 0x100#32,
      irqPend := (s.core c).irqPend &&& (15 - 2 ^ src), pc := irqVector src, st := .running, wait := .none }).stall c 6) := by
  show execInterruptEntry c stall s = _
  simp [execInterruptEntry, htakes, hnext, hst, hsrc]

theorem exec_interruptEntry_of_block {c : Fin 64} (stall : Nat) (hst : (s.core c).st = .running)
    (htakes : (s.core c).takesIrq = true) (hnext : (s.core c).irqNext = some 0) {u : State}
    (hu : u = (s.setCore c { s.core c with
      ipc := BitVec.ofNat 14 (s.core c).pc, istat := (s.core c).sr, sr := (s.core c).sr &&& ~~~ 0x100#32,
      irqPend := (s.core c).irqPend &&& 14, pc := 4, st := .running, wait := .none, blockAge := 0 }).stall c 6) :
    exec (.interruptEntry c stall) s = .next
      (if u.fld (R.NEEDLE_LAT_MAX c) F.NEEDLE_LAT_MAX_CYCLES < min 131071 ((s.core c).blockAge + 6) then
        u.setFld (R.NEEDLE_LAT_MAX c) F.NEEDLE_LAT_MAX_CYCLES (min 131071 ((s.core c).blockAge + 6)) else u) := by
  show execInterruptEntry c stall s = _
  subst hu
  simp [execInterruptEntry, htakes, hnext, hst, irqVector]

end

/-- Settles O38: a flow instruction and REP act on the PC alone, and an interrupt is taken at a clean point. -/
theorem flowInstructions : Obligations.FlowInstructions := by
  unfold Obligations.FlowInstructions
  intro c s k n dx cond target
  refine ⟨?nop, ?halt, ?waits, ?waitsBusy, ?waitsEnd, ?waitsStays, ?br, ?brNot, ?call, ?callr, ?jr, ?ret, ?rti, ?slotTo,
    ?slotRti, ?slot, fun sr => ⟨rfl, rfl, rfl, rfl, rfl, rfl, rfl, rfl⟩, ?repImm, ?repReg, ?repZero, ?repeats, ?entry,
    ?block, ?noEntry, rfl, rfl, rfl, rfl⟩
  case nop =>
    exact fun h => congrArg Host.Outcome.next (h.issue_ok_running nofun nofun rfl h.runsOn h.pend_nil)
  case halt =>
    intro h
    exact congrArg Host.Outcome.next (h.issue_ok_running (k' := { k with halting := true, haltAtClose := true }) nofun nofun
      rfl ⟨h.running, h.runsOn.norep, h.runsOn.noStore⟩ h.pend_nil)
  case waits =>
    intro h hfree
    exact congrArg Host.Outcome.next (h.issue_ok_running nofun nofun (k' := k) (by simp [hfree]) h.runsOn h.pend_nil)
  case waitsBusy =>
    intro h hbusy
    exact congrArg Host.Outcome.next (h.issue_stays rfl (k' := { k with st := .waiting, wait := .waits n })
      (by simp [hbusy]) h.pend_nil rfl nofun)
  case waitsEnd =>
    rintro stall rfl hst hwait hfree hirq
    exact exec_waitsEnd_of_free hst hwait hfree hirq
  case waitsStays =>
    rintro stall rfl hwait hbusy
    exact exec_waitsEnd_of_busy hwait hbusy
  case br =>
    intro h hc
    exact congrArg Host.Outcome.next (h.flowIssue_jump nofun nofun (by simp [hc]) nofun)
  case brNot =>
    intro h hc
    exact congrArg Host.Outcome.next (h.flowIssue_jump nofun nofun (by simp [hc]) nofun)
  case call => exact fun h => congrArg Host.Outcome.next (h.flowIssue_call nofun nofun rfl nofun)
  case callr => exact fun h => congrArg Host.Outcome.next (h.flowIssue_call nofun nofun rfl nofun)
  case jr => exact fun h => congrArg Host.Outcome.next (h.flowIssue_jump nofun nofun rfl nofun)
  case ret => exact fun h => congrArg Host.Outcome.next (h.flowIssue_jump nofun nofun rfl nofun)
  case rti => exact fun h => congrArg Host.Outcome.next (h.flowIssue_jump nofun nofun rfl nofun)
  case slotTo =>
    intro old t w a hrep hslots hflow
    simp [Core.advance, hrep, hslots, hflow]
  case slotRti =>
    intro old t w hrep hslots hflow
    simp [Core.advance, hrep, hslots, hflow]
  case slot =>
    intro old t w hrep hslots
    simp [Core.advance, hrep, hslots]
  case repImm => exact fun h hn => congrArg Host.Outcome.next (h.issue_rep (.inl ⟨n, rfl⟩) rfl hn)
  case repReg =>
    rintro h rfl hn
    exact congrArg Host.Outcome.next (h.issue_rep (.inr ⟨dx, rfl⟩) rfl hn)
  case repZero =>
    intro h h0
    exact congrArg Host.Outcome.next (h.issue_rep_zero (by simp [h0]))
  case repeats =>
    intro old t w h
    simp [Core.advance, h]
  case entry =>
    rintro src stall _ rfl hst htakes hnext hsrc rfl
    exact exec_interruptEntry_of_running stall hst htakes hnext hsrc
  case block =>
    rintro stall _ u rfl hst htakes hnext rfl hu
    exact exec_interruptEntry_of_block stall hst htakes hnext hu
  case noEntry =>
    rintro stall rfl h
    exact exec_interruptEntry_of_not_takesIrq stall h

end Sys2Proof.Machine
end

section
/-!
PROOF. Windows, frames and core commands (R172 to R176, R195, R196, R198), stream ports and host access to core memories
(R177 to R180, R203 to R206).
-/

namespace Sys2Proof.Machine

section
variable {s : State} {c : Nat}

/-! ### Window opening (R172, R198, R203) -/

theorem State.openCore_of_running {k : Core} (hk : k = s.core c) (hst : k.st = .running) (hq : k.queue = [])
    (hb : k.bells = []) (hirq : k.irqPend % 2 = 0) : s.openCore c = s.setCore c
      { k with inF := s.inputFrame c, cyc := 0, ready := false, irqPend := k.irqPend ||| 1, blockAge := 0,
               sp0 := { k.sp0 with started := 0 }, sp1 := { k.sp1 with started := 0 } } := by
  subst hk
  simp [State.openCore, hst, hq, hb, hirq]

theorem State.openCore_of_start {k : Core} (hk : k = s.core c) (hst : k.st = .starting) (hin : k.startIn ≤ 1)
    (hq : k.queue = []) : ∃ t : Core,
      s.openCore c = s.setCore c t ∧ t.st = .running ∧ t.pc = 0 ∧ t.d = ({} : Core).d ∧ t.acc = ({} : Core).acc ∧
      t.p = ({} : Core).p ∧ t.b = ({} : Core).b ∧ t.l = ({} : Core).l ∧ t.m = ({} : Core).m ∧ t.sr = 0x20#32 ∧ t.pend = [] ∧
      t.irqPend % 2 = 1 ∧ t.xmem = k.xmem ∧ t.ymem = k.ymem ∧ t.pmem = k.pmem ∧ t.sp0.buf = k.sp0.buf ∧
      t.sp1.buf = k.sp1.buf := by
  subst hk
  simp only [State.openCore, hst, hq, hin, List.filter_nil, List.map_nil, List.foldl_nil, if_true]
  exact ⟨_, rfl, rfl, rfl, rfl, rfl, rfl, rfl, rfl, rfl, rfl, rfl, by simp, rfl, rfl, rfl, rfl, rfl⟩

theorem Core.foldl_hostWrite_start (ws : List HostWrite) (k : Core) :
    (ws.foldl (fun (k : Core) w => k.hostWrite w.space w.addr w.val) k).st = k.st ∧
      (ws.foldl (fun (k : Core) w => k.hostWrite w.space w.addr w.val) k).startIn = k.startIn := by
  induction ws generalizing k with
  | nil => exact ⟨rfl, rfl⟩
  | cons w ws ih =>
    have hw : (k.hostWrite w.space w.addr w.val).st = k.st ∧ (k.hostWrite w.space w.addr w.val).startIn = k.startIn := by
      unfold Core.hostWrite
      grind
    exact ⟨(ih _).1.trans hw.1, (ih _).2.trans hw.2⟩

/-- The core before a start that is two openings away counts one of them. -/
theorem State.openCore_of_later {k : Core} (hk : k = s.core c) (hst : k.st = .starting) (hin : 1 < k.startIn) :
    ∃ t : Core, s.openCore c = s.setCore c t ∧ t.st = .starting ∧ t.startIn = k.startIn - 1 := by
  subst hk
  have hwrites := fun ws k' => Core.foldl_hostWrite_start ws k'
  refine ⟨_, rfl, ?_, ?_⟩
  · simp [(hwrites _ _).1, (hwrites _ _).2, hst, Nat.not_le.2 hin]
  · simp [(hwrites _ _).1, (hwrites _ _).2, hst, Nat.not_le.2 hin]

/-! ### Window close (R173, R175, R196) -/

theorem State.closeCore_of_delivered {k t : Core} (hk : k = s.core c) (h : k.close = (t, false)) :
    s.closeCore c = s.setCore c t := by
  subst hk
  simp [State.closeCore, h]

theorem State.closeCore_of_missed {k t : Core} (hk : k = s.core c) (hc : c < 32) (h : k.close = (t, true)) :
    s.closeCore c = (((s.setCore c t).count (R.NEEDLE_OVR_CNT c)).setBitAt R.NEEDLE_OVR_LO c true).raise
      FS.NEEDLE_OVERRUN c 0 := by
  subst hk
  simp only [State.closeCore, h, if_true, hc, Nat.mod_eq_of_lt hc]

/-! ### I/O registers as events (R173, R174, R202) -/

theorem State.nxDone_of_first {v : Nat} {k : Core} (cyc : Nat) (hk : k = s.core c) (htag : v % 65536 = s.needle.tag)
    (hready : k.ready = false) {u : State}
    (hu : u = (s.setCore c { k with ready := true, readyOnce := true }).setFld (R.NEEDLE_CYC_LAST c)
      F.NEEDLE_CYC_LAST_CYCLES (min 131071 cyc)) :
    s.nxDone c v cyc = if u.fld (R.NEEDLE_CYC_MAX c) F.NEEDLE_CYC_MAX_CYCLES < min 131071 cyc then
      u.setFld (R.NEEDLE_CYC_MAX c) F.NEEDLE_CYC_MAX_CYCLES (min 131071 cyc) else u := by
  subst hk hu
  simp only [State.nxDone, htag, hready, ne_eq, not_true, if_false, Bool.false_eq_true]

theorem exec_nxTohostStore_of_active {c : Fin 64} (v : Word) (h : (s.core c).active = true) :
    exec (.nxTohostStore c v) s = .next (s.wrN (R.NEEDLE_TOHOST c) v.toNat) := by
  show execNxTohostStore c v s = _
  simp [execNxTohostStore, h, State.nxStore]

theorem exec_nxDbellRead_of_active {c : Fin 64} (h : (s.core c).active = true) :
    exec (.nxDbellRead c) s = .next (s.setCore c { s.core c with dbell := 0#32 }) := by
  show execNxDbellRead c s = _
  simp [execNxDbellRead, h, Core.afterRead]

end

/-- Settles O40: an opening and a close act on each core by its state alone. -/
theorem windowsAndFrames : Obligations.WindowsAndFrames := by
  unfold Obligations.WindowsAndFrames
  refine ⟨?opening, fun s c k hk => State.openCore_of_running hk, fun s c k hk => State.openCore_of_start hk,
    fun s c k hk => State.openCore_of_later hk, ?closing, ?delivered, ?missed, ?halt, ?done,
    fun c v s h => exec_nxTohostStore_of_active v h, fun c s h => exec_nxDbellRead_of_active h, ?inactive, ?run, ?busy, ?halted⟩
  case opening => rintro s _ rfl; rfl
  case closing => rintro n s _ rfl; rfl
  case delivered =>
    intro s c k hk hhalt hactive hready hmissed
    exact State.closeCore_of_delivered hk (by simp [Core.close, hhalt, hactive, hready, hmissed])
  case missed =>
    intro s c k hk hc hhalt hactive hready honce
    exact State.closeCore_of_missed hk hc (by simp [Core.close, hhalt, hactive, hready, honce])
  case halt =>
    intro s c k hk hhalt
    exact State.closeCore_of_delivered hk (by simp [Core.close, hhalt])
  case done =>
    intro c v s k hk hactive htag hready
    refine ⟨_, rfl, ?_⟩
    rw [exec_nxDoneStore_of_active v (hk ▸ hactive), ← hk]
    exact congrArg Host.Outcome.next (State.nxDone_of_first k.cyc hk htag hready rfl)
  case inactive =>
    intro c v s h
    have hno : ¬ (s.core c).active = true := by simp [h]
    exact ⟨congrArg Host.Outcome.next (if_neg hno), congrArg Host.Outcome.next (if_neg hno),
      congrArg Host.Outcome.next (if_neg hno)⟩
  case run =>
    rintro c s k rfl h
    exact congrArg Host.Outcome.next (if_pos (by simpa using h))
  case busy =>
    intro c s h1 h2
    have hno : ¬ (decide ((s.core c).st = .halted) || decide ((s.core c).st = .trapped)) = true := by simp [h1, h2]
    exact ⟨congrArg Host.Outcome.next (if_neg hno), congrArg Host.Outcome.next (if_neg hno)⟩
  case halted =>
    intro c s h
    exact congrArg Host.Outcome.next (if_pos (by simpa using h))

section
variable {s : State} {c : Fin 64}

/-! ### Stream ports (R177 to R180) -/

theorem exec_spGo_of_active {p : Fin 2} (h : (s.core c).active = true) : exec (.spGo c p) s = .next (s.spGo c p) :=
  congrArg Host.Outcome.next (if_pos h)

theorem exec_spSwap_of_active {p : Fin 2} (h : (s.core c).active = true) : exec (.spSwap c p) s = .next (s.spSwap c p) :=
  congrArg Host.Outcome.next (if_pos h)

theorem SpPort.refused_of_len {q : SpPort} (n : Nat) (h : q.len = 0 ∨ 1024 < q.len) : q.refused n = true := by
  rcases h with h | h <;> simp [SpPort.refused, h]

theorem SpPort.refused_flat {q : SpPort} (n : Nat) (h1 : 1 ≤ q.len) (h2 : q.len ≤ 1024) (hr : q.rlen = 0) :
    q.refused n = true ↔ n < q.addr + 4 * q.len := by
  have h0 : q.len ≠ 0 := by omega
  have h3 : ¬ 1024 < q.len := by omega
  simp [SpPort.refused, h0, h3, hr]

/-- A transfer without a failed word. -/
theorem exec_spTransferDone_clean {p : Fin 2} {j : SpJob} (hj : ((s.core c).sp p).job = some j) :
    exec (.spTransferDone c p []) s = .next ((s.spMove c p j []).setCore c
      { ((s.spMove c p j []).core c).setSp p { ((s.spMove c p j []).core c).sp p with
          job := none, done := true, addr := j.ring (j.addr + 4 * j.len) } with
        irqPend := ((s.spMove c p j []).core c).irqPend ||| 2 ^ (1 + p.val) }) := by
  show execSpTransferDone c p [] s = _
  simp only [execSpTransferDone, hj, List.map_nil, List.filter_nil, List.isEmpty_nil, if_true, List.foldl_nil]

theorem exec_spTransferDone_idle {p : Fin 2} (bad : List (Fin 1024)) (h : ((s.core c).sp p).job = none) :
    exec (.spTransferDone c p bad) s = .next s := by
  show execSpTransferDone c p bad s = _
  simp only [execSpTransferDone, h]

/-! ### Host access (R203 to R206) -/

theorem State.needleWrite_program_denied {c : Nat} (a : Nat) (v : Word) (h1 : (s.core c).st ≠ .halted)
    (h2 : (s.core c).st ≠ .trapped) : s.needleWrite c 0 a v = s.flag R.NEEDLE_FLAGS F.NEEDLE_FLAGS_P_DENIED := by
  simp [State.needleWrite, h1, h2]

/-- A host write of X or Y: at once in a core that stands, in the queue of a core that runs while it has room. -/
theorem State.needleWrite_data {c y a : Nat} (v : Word) (hy : y = 1 ∨ y = 2) (ha : a < 0x8000) : s.needleWrite c y a v =
    if (s.core c).active = false then s.setCore c ((s.core c).hostWrite y a v)
    else if 256 ≤ (s.core c).queue.length then (s.flag R.NEEDLE_FLAGS F.NEEDLE_FLAGS_WQ_FULL).raise FS.NEEDLE_WQ_FULL c 0
    else s.setCore c { s.core c with queue := (s.core c).queue ++ [⟨y, a, v, if s.paired = true then 2 else 1⟩] } := by
  have h0 : y ≠ 0 := by omega
  have h3 : y ≠ 3 := by omega
  have ha' : ¬ 0x8000 ≤ a := by omega
  simp [State.needleWrite, h0, h3, ha']

theorem Core.hostRead_hostWrite (k : Core) {y a : Nat} (v : Word) (hy : y = 1 ∨ y = 2) (ha : a < 0x8000) :
    (k.hostWrite y a v).hostRead y a = v := by
  rcases hy with rfl | rfl <;> simp [Core.hostWrite, Core.hostRead, ha, Sparse.get_set_same]

theorem State.needleRead_of_stopped {c y a : Nat} (m : Master) (hactive : (s.core c).active = false)
    (hpoison : (y, a) ∉ (s.core c).poison) : s.needleRead c y a m .clean = (s, (s.core c).hostRead y a, false) := by
  simp [State.needleRead, hactive, hpoison]

end

/-- Settles O42: a stream port acts unless it is BUSY, and the host reaches the memories of a core that stands at once and
those of a core that runs through its queue. -/
theorem streamPortsAndHost : Obligations.StreamPortsAndHost := by
  unfold Obligations.StreamPortsAndHost
  refine ⟨?ports, ?idlePorts, fun q n h => SpPort.refused_of_len n h, fun q n h1 h2 hr => SpPort.refused_flat n h1 h2 hr,
    ?transfer, fun c p bad s h => exec_spTransferDone_idle bad h, fun c v s => rfl, ?step,
    fun s c a v h1 h2 => State.needleWrite_program_denied a v h1 h2, ?data, fun k y a v hy ha => k.hostRead_hostWrite v hy ha,
    ?read, fun c v s => rfl, ?tohost⟩
  case ports =>
    rintro c p s _ _ rfl rfl hactive
    refine ⟨fun hbusy => ⟨?_, ?_⟩, fun hfree => ?_, fun hfree hok => ?_, fun hfree hbad => ⟨_, rfl, ?_⟩⟩
    · rw [exec_spGo_of_active hactive, State.spGo, if_pos hbusy]
    · rw [exec_spSwap_of_active hactive, State.spSwap, if_pos hbusy]
    · rw [exec_spSwap_of_active hactive, State.spSwap, if_neg (Bool.eq_false_iff.1 hfree)]
    · rw [exec_spGo_of_active hactive, State.spGo, if_neg (Bool.eq_false_iff.1 hfree)]
      exact congrArg Host.Outcome.next (if_neg (Bool.eq_false_iff.1 hok))
    · rw [exec_spGo_of_active hactive, State.spGo, if_neg (Bool.eq_false_iff.1 hfree)]
      exact congrArg Host.Outcome.next (if_pos hbad)
  case idlePorts =>
    intro c p s h
    exact ⟨congrArg Host.Outcome.next (if_neg (Bool.eq_false_iff.1 h)),
      congrArg Host.Outcome.next (if_neg (Bool.eq_false_iff.1 h))⟩
  case transfer =>
    rintro c p s j _ _ hj rfl rfl
    exact exec_spTransferDone_clean hj
  case step => exact fun s c => ⟨fun h => if_neg (Bool.eq_false_iff.1 h), fun h => if_pos h⟩
  case data =>
    intro s c y a v hy ha
    rw [State.needleWrite_data v hy ha]
    refine ⟨fun h => if_pos h, fun h hroom => ?_, fun h hfull => ?_⟩
    · rw [if_neg (by simp [h]), if_neg (Nat.not_le.2 hroom)]
    · rw [if_neg (by simp [h]), if_pos hfull]
  case read =>
    rintro c m s _ _ rfl rfl hactive hpoison
    refine ⟨_, rfl, ?_⟩
    show Host.Outcome.next (State.busAnswer (s.memDataRead c m .clean)) = _
    rw [State.memDataRead, State.needleRead_of_stopped m hactive hpoison]
    rfl
  case tohost =>
    intro c s
    refine ⟨_, rfl, rfl, ?_, fun a ha => ?_, rfl, rfl⟩
    · exact State.rd_wrN_zero s _
    · exact State.reg_wrN_ne s _ (by simpa using ha)

end Sys2Proof.Machine
end

section
/-!
PROOF. The steps of a Dweul command at the head of its fold (R438, R476, R477, R490, R492), and the System family (R27,
R35, R42, R70, R499, R500).
-/

namespace Sys2Proof.Machine

section
variable {s u : State} {op : Op} {f cls len : Nat} {h : Hdr} {ps : List Byte} {a : Ans}
  {body : State → Cmd → State × Option Ans}

/-! ### The steps of R490 -/

theorem State.dweul_of_not_served (hs : s.served = false) : s.dweul op f h ps len body = (s, none) := by
  simp [State.dweul, hs]

/-- A refused command is answered, and changes nothing else. -/
theorem State.dweul_of_refused (hat : AtHead s f h cls) (hop : h.opcode = op.code)
    (hrefusal : s.refusal op ⟨f, cls, h, ps⟩ len = some a) :
    s.dweul op f h ps len body = (s.answer f h a, some a.status) := by
  obtain ⟨hserved, rfl, hcheck, hheld, hseg, e, rest, htaken, rfl⟩ := hat
  have htake : s.takeIn f { e.hdr with opcode := op.code } = s := by simp [State.takeIn, htaken, hop]
  have hhead : s.atHead op.code f e.hdr.seq = some e := by simp [State.atHead, htaken, hop, hcheck, hheld]
  have hdrop : s.dropStream f = s := by simp [State.dropStream, hseg]
  simp [State.dweul, hserved, htake, hhead, hdrop, hrefusal, State.finish, hheld, htaken]

theorem State.refusal_of_length (hlen : h.length ≠ ps.length ∨ ps.length ≠ len) :
    s.refusal op ⟨f, cls, h, ps⟩ len = some badLength := by
  simp [State.refusal, hlen]

theorem State.refusal_of_class (hlen : h.length = ps.length) (hps : ps.length = len) (hno : s.notPermitted op cls ≠ 0) :
    s.refusal op ⟨f, cls, h, ps⟩ len = some (forbidden (s.notPermitted op cls)) := by
  simp [State.refusal, hlen, hps, hno]

/-- A command whose writes do not fit the block's delta waits (R438). -/
theorem State.dweul_of_held (hat : AtHead s f h cls) (hop : h.opcode = op.code)
    (hlen : h.length = ps.length) (hps : ps.length = len) (hperm : s.notPermitted op cls = 0)
    (hbody : body s ⟨f, cls, h, ps⟩ = (u, some a)) (hheld : u.twin.held ≠ []) : s.dweul op f h ps len body =
      ((s.flag R.TWIN_FLAGS F.TWIN_FLAGS_DELTA_FULL).raise FS.TWIN_DELTA_FULL 0 0, none) := by
  obtain ⟨hserved, rfl, hcheck, hsheld, hseg, e, rest, htaken, rfl⟩ := hat
  have htake : s.takeIn f { e.hdr with opcode := op.code } = s := by simp [State.takeIn, htaken, hop]
  have hhead : s.atHead op.code f e.hdr.seq = some e := by simp [State.atHead, htaken, hop, hcheck, hsheld]
  have hdrop : s.dropStream f = s := by simp [State.dropStream, hseg]
  have hrefusal : s.refusal op ⟨f, s.foldClass f, e.hdr, ps⟩ len = none := by simp [State.refusal, hlen, hps, hperm]
  simp [State.dweul, hserved, htake, hhead, hdrop, hrefusal, hbody, State.finish, hheld]

/-! ### Permission (R476, R477) -/

theorem State.notPermitted_low (hg : op.gate = .always) (hc : cls < op.cls) : s.notPermitted op cls = 1 := by
  simp [State.notPermitted, hg, hc]

theorem State.notPermitted_open (hg : op.gate = .always) (hc : op.cls ≤ cls) (hm : OpenMode s) :
    s.notPermitted op cls = 0 := by
  obtain ⟨hstandby, halarm⟩ := hm
  simp only [State.notPermitted, hg, Nat.not_lt.2 hc, if_false]
  cases hm : s.mode <;> simp_all

theorem State.notPermitted_read (hg : op.gate = .always) (hc : op.cls ≤ cls) (hr : op.read = true) :
    s.notPermitted op cls = 0 := by
  simp only [State.notPermitted, hg, Nat.not_lt.2 hc, if_false]
  cases s.mode <;> simp [hr]

theorem State.notPermitted_standby (hg : op.gate = .always) (hc : op.cls ≤ cls) (hm : s.mode = .standby)
    (hr : op.read = false) (hcode : op.code / 256 ≠ 0x0A) : s.notPermitted op cls = 2 := by
  simp [State.notPermitted, hg, Nat.not_lt.2 hc, hm, hr, hcode]

theorem State.notPermitted_alarm (hg : op.gate = .always) (hc : op.cls ≤ cls) (hm : s.mode = .alarm)
    (hr : op.read = false) (hcls : cls ≠ 3) : s.notPermitted op cls = 2 := by
  simp [State.notPermitted, hg, Nat.not_lt.2 hc, hm, hr, hcls]

theorem State.notPermitted_engineer (hg : op.gate = .engineerInCommission) (hm : s.mode ≠ .commission) :
    s.notPermitted op 2 = 2 := by
  simp [State.notPermitted, hg, hm]

theorem State.notPermitted_below_engineer (hg : op.gate = .engineerInCommission) (hc : cls < 2) :
    s.notPermitted op cls = 1 := by
  have h2 : cls ≠ 2 := by omega
  have h3 : cls ≠ 3 := by omega
  simp [State.notPermitted, hg, h2, h3]

/-! ### A command that is answered -/

/-- A command without a further effect ends with the answer of its body. -/
theorem AtHead.answered {c : Sys2Proof.Instr} (hat : AtHead s f h cls) (hexec : exec c s = .next (s.dweul op f h ps len body).1)
    (hop : h.opcode = op.code) (hlen : h.length = ps.length) (hps : ps.length = len) (hperm : s.notPermitted op cls = 0)
    (hbody : body s ⟨f, cls, h, ps⟩ = (u, some a)) (hstays : Stays s u f) : Answered c s f h a u := by
  rw [Answered, hexec, State.dweul_of_atHead hat hop hlen hps hperm hbody hstays]

theorem AtHead.answered_self {c : Sys2Proof.Instr} (hat : AtHead s f h cls)
    (hexec : exec c s = .next (s.dweul op f h ps len body).1)
    (hop : h.opcode = op.code) (hlen : h.length = ps.length) (hps : ps.length = len) (hperm : s.notPermitted op cls = 0)
    (hbody : body s ⟨f, cls, h, ps⟩ = (s, some a)) : Answered c s f h a s :=
  hat.answered hexec hop hlen hps hperm hbody hat.stays

end

/-- Settles O43: the first of length, permission and body that answers decides. -/
theorem dweulSteps : Obligations.DweulSteps := by
  unfold Obligations.DweulSteps
  intro s op f h ps len cls body
  refine ⟨State.dweul_of_not_served,
    fun hat hop hlen => State.dweul_of_refused hat hop (State.refusal_of_length hlen),
    fun hat hop hlen hps hno => State.dweul_of_refused hat hop (State.refusal_of_class hlen hps hno),
    fun hat hop hlen hps hperm u a hbody =>
      ⟨State.dweul_of_atHead hat hop hlen hps hperm hbody, State.dweul_of_held hat hop hlen hps hperm hbody⟩,
    State.notPermitted_low, State.notPermitted_open, State.notPermitted_read, State.notPermitted_standby,
    State.notPermitted_alarm, ?engineer, State.notPermitted_below_engineer⟩
  case engineer =>
    rintro hg rfl hm
    exact State.notPermitted_engineer hg hm

section
variable {s : State} {c : Cmd}

/-! ### Bodies of the System family -/

theorem modeRequest_iff (m : Mode) (n : Nat) : modeRequest m n = true ↔
    (m = .commission ∧ (n = 2 ∨ n = 3)) ∨ ((m = .service ∨ m = .standby) ∧ n = 1) := by
  cases m <;> simp [modeRequest]

theorem State.dwSetMode_eq (h5 : c.u8 8 ≤ 5) (hz : c.zero 3 9 = true) : s.dwSetMode c =
    if modeRequest s.baseMode (c.u8 8) = false then (s, some (rejected 0))
    else ((s.enterEvent c (.mode (c.u8 8)) (c.u64 0) []).1, some (s.enterEvent c (.mode (c.u8 8)) (c.u64 0) []).2) := by
  have h5' : ¬ 5 < c.u8 8 := by omega
  simp [State.dwSetMode, h5', hz]

theorem State.dwCancel_of_unknown (h : s.sched.events.find? (fun e => e.handle = c.u32 0) = none) :
    s.dwCancel c = (s, some (rejected 0)) := by
  simp only [State.dwCancel, h]

theorem State.dwCancel_of_known {e : Event} (h : s.sched.events.find? (fun e => e.handle = c.u32 0) = some e) :
    s.dwCancel c = if e.fold ≠ c.fold ∧ c.cls ≠ 3 then (s, some (forbidden 0))
      else if s.armedAt e.fire = true then (s, some { status := 5 }) else (s.cancelEvent e, some {}) := by
  simp only [State.dwCancel, h, Bool.and_eq_true, decide_eq_true_eq]

theorem regRangeOk_eq_false (h : c.u16 4 = 0 ∨ 256 < c.u16 4 ∨ (c.cls < 2 ∧ c.u32 0 < 0x42000000)) :
    regRangeOk c = false := by
  rw [Bool.eq_false_iff]
  simp only [regRangeOk, ne_eq, Bool.and_eq_true, Bool.or_eq_true, decide_eq_true_eq]
  omega

theorem State.dwRegRead_of_badRange (h : regRangeOk c = false) : s.dwRegRead c = (s, some (rejected 0xFD)) := by
  simp [State.dwRegRead, h, badParam]

theorem State.dwRegRead_ok {t : State} {l : List Nat} (h : regRangeOk c = true)
    (hr : s.regReads (c.u32 0) (c.u16 4) 0 [] = (t, l, none, false)) : s.dwRegRead c = (t, some (okWith (words l))) := by
  simp [State.dwRegRead, h, hr]

theorem State.dwRegRead_unmapped {t : State} {l : List Nat} {i : Nat} {e : Bool} (h : regRangeOk c = true)
    (hr : s.regReads (c.u32 0) (c.u16 4) 0 [] = (t, l, some i, e)) :
    s.dwRegRead c = (t, some (rejected (i % 256))) := by
  simp [State.dwRegRead, h, hr]

theorem State.dwRegWrite_ok {t : State} (h : regRangeOk c = true)
    (hw : s.regWrites (c.u32 0) ((List.range (c.u16 4)).map (fun i => c.u32 (8 + 4 * i))) 0 = (t, none)) :
    s.dwRegWrite c = (t, some {}) := by
  simp [State.dwRegWrite, h, hw]

theorem State.dwGroupCancel_of_some {mine gone : List Event} (hg : c.hdr.group ≠ 0)
    (hmine : mine = s.sched.events.filter (fun e => decide (e.group = c.hdr.group) && decide (e.cls ≤ c.cls)))
    (hgone : gone = mine.filter (fun e => !s.armedAt e.fire)) (hne : mine ≠ []) :
    s.dwGroupCancel c = (gone.foldl State.cancelEvent s,
      some ⟨if gone.length = mine.length then 0 else 5, 0, false, le 2 gone.length ++ le 2 0⟩) := by
  have hfilter : s.sched.events.filter (fun e => c.hdr.group ≠ 0 && e.group = c.hdr.group && e.cls ≤ c.cls) = mine := by
    simp only [hmine, hg, ne_eq, not_false_eq_true, decide_true, Bool.true_and]
  have hempty : mine.isEmpty = false := by simp [hne]
  simp only [State.dwGroupCancel, hfilter, ← hgone, hempty, Bool.false_eq_true, if_false]

end

/-- Settles O44: each body of the family by the branch that its parameters choose. -/
theorem dweulSystem : Obligations.DweulSystem := by
  unfold Obligations.DweulSystem
  intro f h ps s cls hat hlen
  refine ⟨?nop, ?info, ?foldInfo, ?setMode, modeRequest_iff, ?cancel, ?regRead, ?regReadUnmapped, ?regWrite, ?badRange,
    ?groupCancel⟩
  case nop =>
    exact fun hop => hat.answered_self rfl hop hlen rfl (State.notPermitted_read rfl (Nat.zero_le _) rfl) rfl
  case info =>
    exact fun hop hps => hat.answered_self rfl hop hlen hps (State.notPermitted_read rfl (Nat.zero_le _) rfl) rfl
  case foldInfo =>
    exact fun hop hps => hat.answered_self rfl hop hlen hps (State.notPermitted_read rfl (Nat.zero_le _) rfl) rfl
  case setMode =>
    rintro n hop hps hcls hmode rfl h5 hz
    have hperm := State.notPermitted_open (op := ⟨0x0102, false, 2, .always⟩) rfl hcls hmode
    have hbody := State.dwSetMode_eq (s := s) (c := ⟨f, cls, h, ps⟩) h5 hz
    refine ⟨fun hno => hat.answered_self rfl hop hlen hps hperm (hbody.trans (if_pos hno)), ?_⟩
    rintro r hyes rfl hstays
    exact hat.answered rfl hop hlen hps hperm (hbody.trans (if_neg (by simpa [Cmd.u8] using hyes))) hstays
  case cancel =>
    intro hop hps hcls hmode
    have hperm := State.notPermitted_open (op := ⟨0x0103, false, 1, .always⟩) rfl hcls hmode
    refine ⟨fun hno => hat.answered_self rfl hop hlen hps hperm (State.dwCancel_of_unknown hno), fun e he => ?_⟩
    have hbody := State.dwCancel_of_known (s := s) (c := ⟨f, cls, h, ps⟩) he
    refine ⟨fun hf hc => hat.answered_self rfl hop hlen hps hperm (hbody.trans (if_pos ⟨hf, hc⟩)), fun hmine harmed => ?_,
      fun hmine hfree hstays => ?_⟩
    · exact hat.answered_self rfl hop hlen hps hperm
        (hbody.trans ((if_neg fun ⟨hf, hc⟩ => hmine.elim hf hc).trans (if_pos harmed)))
    · exact hat.answered rfl hop hlen hps hperm
        (hbody.trans ((if_neg fun ⟨hf, hc⟩ => hmine.elim hf hc).trans (if_neg (by simp [hfree])))) hstays
  case regRead =>
    intro t l hop hps hok hr hstays
    exact hat.answered rfl hop hlen hps (State.notPermitted_read rfl (Nat.zero_le _) rfl) (State.dwRegRead_ok hok hr) hstays
  case regReadUnmapped =>
    intro t l i hop hps hok hr hstays
    exact hat.answered rfl hop hlen hps (State.notPermitted_read rfl (Nat.zero_le _) rfl)
      (State.dwRegRead_unmapped hok hr) hstays
  case regWrite =>
    intro t hop hps hcls hmode hok hw hstays
    exact hat.answered rfl hop hlen hps (State.notPermitted_open rfl hcls hmode) (State.dwRegWrite_ok hok hw) hstays
  case badRange =>
    intro hop hps hbad
    exact hat.answered_self rfl hop hlen hps (State.notPermitted_read rfl (Nat.zero_le _) rfl)
      (State.dwRegRead_of_badRange (regRangeOk_eq_false hbad))
  case groupCancel =>
    rintro mine gone _ hop hps hcls hmode hg hmine hgone rfl hstays hne
    exact hat.answered rfl hop hlen hps (State.notPermitted_open rfl hcls hmode)
      (State.dwGroupCancel_of_some hg hmine hgone hne) hstays

end Sys2Proof.Machine
end

section
/-!
PROOF. Dweul: the Stitches family (R102, R116 to R119, R136, R500).
-/

namespace Sys2Proof.Machine

section
variable {s : State} {c : Cmd}

/-! ### Words read in turn -/

/-- Reads that change nothing and meet no failed word give their words in order. -/
theorem State.readEach_sound {read : State → Nat → State × List Byte × Bool} {w : Nat → List Byte} (n : Nat)
    (h : ∀ i, read s i = (s, w i, false)) : s.readEach n read = (s, some (okWith ((List.range n).flatMap w))) := by
  have hfold : ∀ (l : List Nat) (acc : List (List Byte)), l.foldl (fun (a : State × List (List Byte) × Bool) i =>
      if a.2.2 then a else let r := read a.1 i; (r.1, r.2.1 :: a.2.1, r.2.2)) (s, acc, false) =
        (s, (l.map w).reverse ++ acc, false) := by
    intro l
    induction l with
    | nil => intro acc; rfl
    | cons i l ih =>
      intro acc
      simp only [List.foldl_cons, Bool.false_eq_true, if_false, h, ih, List.map_cons, List.reverse_cons,
        List.append_assoc, List.singleton_append]
  simp only [State.readEach, hfold, Bool.false_eq_true, if_false, List.append_nil, List.reverse_reverse, List.flatMap]

theorem State.readEach_one {read : State → Nat → State × List Byte × Bool} (t : State) (w : List Byte)
    (h : read s 0 = (t, w, false)) : s.readEach 1 read = (t, some (okWith w)) := by
  simp [State.readEach, List.range, List.range.loop, h]

theorem State.quiltReads_sound (w : QWord) (h : s.quilt.ue = []) : s.quiltReads [w] = (s, false) := by
  simp [State.quiltReads, State.quiltWord, h]

/-! ### Bodies of the Stitches family -/

theorem State.dwStitchRead_sound (h0 : c.u8 0 ≤ 1) (h1 : c.u8 1 ≤ 15) (hz : c.zero 2 2 = true) (hn : 1 ≤ c.u32 8)
    (hmax : c.u32 8 ≤ 500) (hend : c.u32 4 + c.u32 8 ≤ 65536) (hue : s.quilt.ue = []) :
    s.dwStitchRead c = (s, some (okWith ((List.range (c.u32 8)).flatMap (fun i =>
      le 8 ((s.bankOf (c.u8 0)).slot (65536 * c.u8 1 + c.u32 4 + i)).toNat)))) := by
  have hbad : ¬ (1 < c.u8 0 ∨ 15 < c.u8 1 ∨ c.u32 8 = 0 ∨ 500 < c.u32 8 ∨ 65536 < c.u32 4 + c.u32 8) := by omega
  simp only [not_or] at hbad
  obtain ⟨b1, b2, b3, b4, b5⟩ := hbad
  simp only [State.dwStitchRead, b1, b2, b3, b4, b5, hz, decide_false, Bool.not_true, Bool.or_self, Bool.false_eq_true,
    if_false]
  exact State.readEach_sound _ fun i => by rw [State.quiltReads_sound _ hue]

theorem State.dwDescRead_sound (h0 : c.u8 0 ≤ 1) (hz : c.zero 1 1 = true) (hz' : c.zero 2 6 = true) (hn : 1 ≤ c.u16 4)
    (hmax : c.u16 4 ≤ 125) (hend : c.u16 2 + c.u16 4 ≤ 4096) (hue : s.quilt.ue = []) :
    s.dwDescRead c = (s, some (okWith ((List.range (4 * c.u16 4)).flatMap (fun i =>
      le 8 (Sparse.get zeroD (s.bankOf (c.u8 0)).desc (4 * c.u16 2 + i)).toNat)))) := by
  have hbad : ¬ (1 < c.u8 0 ∨ c.u16 4 = 0 ∨ 125 < c.u16 4 ∨ 4096 < c.u16 2 + c.u16 4) := by omega
  simp only [not_or] at hbad
  obtain ⟨b1, b2, b3, b4⟩ := hbad
  simp only [State.dwDescRead, b1, b2, b3, b4, hz, hz', decide_false, Bool.not_true, Bool.or_self, Bool.false_eq_true,
    if_false]
  exact State.readEach_sound _ fun i => by rw [State.quiltReads_sound _ hue]

theorem State.dwStitchBaste_eq (h0 : c.u8 0 ≤ 15) (hz : c.zero 3 1 = true) (hn : 1 ≤ c.u32 8) (hmax : c.u32 8 ≤ 500)
    (hend : c.u32 4 + c.u32 8 ≤ 65536) : s.dwStitchBaste c =
      if s.basteOpen = false then (s.seamBusy, some busyState)
      else ((List.range (c.u32 8)).foldl (fun (t : State) i =>
        t.shepSlot (65536 * c.u8 0 + c.u32 4 + i) (c.u64 (12 + 8 * i))) s, some {}) := by
  have hbad : ¬ (15 < c.u8 0 ∨ c.u32 8 = 0 ∨ 500 < c.u32 8 ∨ 65536 < c.u32 4 + c.u32 8) := by omega
  simp only [not_or] at hbad
  obtain ⟨b1, b2, b3, b4⟩ := hbad
  simp only [State.dwStitchBaste, b1, b2, b3, b4, hz, decide_false, Bool.not_true, Bool.or_self, Bool.false_eq_true,
    if_false, Bool.not_eq_true']

theorem State.dwDescBaste_eq (hn : 1 ≤ c.u16 2) (hmax : c.u16 2 ≤ 125) (hend : c.u16 0 + c.u16 2 ≤ 4096) :
    s.dwDescBaste c = if s.basteOpen = false then (s.seamBusy, some busyState)
      else (s.shepWrites ((List.range (8 * c.u16 2)).map (fun i =>
        (R.QUILT_DESC_BASTE (c.u16 0 + i / 8) (i % 8), c.u32 (4 + 4 * i)))), some {}) := by
  have hbad : ¬ (c.u16 2 = 0 ∨ 125 < c.u16 2 ∨ 4096 < c.u16 0 + c.u16 2) := by omega
  simp only [not_or] at hbad
  obtain ⟨b1, b2, b3⟩ := hbad
  simp only [State.dwDescBaste, b1, b2, b3, decide_false, Bool.or_self, Bool.false_eq_true, if_false, Bool.not_eq_true']

theorem State.dwDmapBaste_eq (hn : 1 ≤ c.u16 2) (hmax : c.u16 2 ≤ 1000) (hend : c.u16 0 + c.u16 2 ≤ 8192) :
    s.dwDmapBaste c = if s.basteOpen = false then (s.seamBusy, some busyState)
      else (s.shepWrites ((List.range (c.u16 2)).map (fun i => (R.QUILT_DMAP_BASTE (c.u16 0 + i), c.u32 (4 + 4 * i)))),
        some {}) := by
  have hbad : ¬ (c.u16 2 = 0 ∨ 1000 < c.u16 2 ∨ 8192 < c.u16 0 + c.u16 2) := by omega
  simp only [not_or] at hbad
  obtain ⟨b1, b2, b3⟩ := hbad
  simp only [State.dwDmapBaste, b1, b2, b3, decide_false, Bool.or_self, Bool.false_eq_true, if_false, Bool.not_eq_true']

theorem State.dwSrcAttr_eq (hn : 1 ≤ c.u16 2) (hmax : c.u16 2 ≤ 1000) (hend : c.u16 0 + c.u16 2 ≤ 8192) :
    s.dwSrcAttr c = (s.shepWrites ((List.range (c.u16 2)).map (fun i =>
      (R.QUILT_SRC_ATTR (c.u16 0 + i), c.u32 (4 + 4 * i)))), some {}) := by
  have hbad : ¬ (c.u16 2 = 0 ∨ 1000 < c.u16 2 ∨ 8192 < c.u16 0 + c.u16 2) := by omega
  simp only [not_or] at hbad
  obtain ⟨b1, b2, b3⟩ := hbad
  simp only [State.dwSrcAttr, b1, b2, b3, decide_false, Bool.or_self, Bool.false_eq_true, if_false]

/-- With no half of a direct write waiting, the record of the command alone is written. -/
theorem State.dwStitchDirect_eq (h0 : c.u8 0 ≤ 15) (hz : c.zero 1 1 = true) (hhold : s.quilt.hold = [])
    (hsolo : s.paired = false) {r : State × Nat}
    (hr : r = s.dwrRecord (65536 * c.u8 0 + c.u16 2) (BitVec.ofNat 64 (c.u64 4))) :
    s.dwStitchDirect c =
      (r.1, some (if r.2 = 0 then okWith (le 8 s.msc) else if r.2 = 2 then forbidden 3 else rejected r.2)) := by
  have hself : { s with quilt := { s.quilt with hold := s.quilt.hold.filter (fun e => e.1 ≠ c.u8 0) } } = s := by
    rw [hhold, List.filter_nil, ← hhold]
  subst hr
  simp only [State.dwStitchDirect, hself, Nat.not_lt.2 h0, hz, hsolo, decide_false, Bool.not_true, Bool.or_self,
    Bool.false_eq_true, if_false]

theorem State.dwMeterRead_one (hn : c.u16 2 = 1) (hfirst : c.u16 0 < 1024) :
    s.dwMeterRead c = ((s.meterPeak (c.u16 0)).2, some (okWith
      (words [(s.meterPeak (c.u16 0)).1.toNat] ++ s.viewWords [R.QUILT_METER_RMS (c.u16 0)]))) := by
  have hend : ¬ 1024 < c.u16 0 + 1 := by omega
  simp only [State.dwMeterRead, hn, hend, decide_false, Bool.or_self, Bool.false_eq_true, if_false, Nat.one_ne_zero,
    show ¬ 500 < 1 by decide]
  exact State.readEach_one _ _ rfl

end

/-- Settles O45: sound parameters leave the branch on the state of BASTE, and the records follow in order. -/
theorem dweulStitches : Obligations.DweulStitches := by
  unfold Obligations.DweulStitches
  intro f h ps s cls hat hlen
  refine ⟨?read, ?descRead, ?closed, ?opened, ?attr, ?direct, ?meter⟩
  case read =>
    intro hop hps h0 h1 hz hn hmax hend hue
    exact hat.answered_self rfl hop hlen hps (State.notPermitted_read rfl (Nat.zero_le _) rfl)
      (State.dwStitchRead_sound (c := ⟨f, cls, h, ps⟩) h0 h1 hz hn hmax hend hue)
  case descRead =>
    intro hop hps h0 hz hz' hn hmax hend hue
    exact hat.answered_self rfl hop hlen hps (State.notPermitted_read rfl (Nat.zero_le _) rfl)
      (State.dwDescRead_sound (c := ⟨f, cls, h, ps⟩) h0 hz hz' hn hmax hend hue)
  case closed =>
    intro hclosed hcls hmode hstays
    refine ⟨fun hop hps h0 hz hn hmax hend => ?_, fun hop hps hn hmax hend => ?_, fun hop hps hn hmax hend => ?_⟩
    · exact hat.answered rfl hop hlen hps (State.notPermitted_open rfl hcls hmode)
        ((State.dwStitchBaste_eq (c := ⟨f, cls, h, ps⟩) h0 hz hn hmax hend).trans (if_pos hclosed)) hstays
    · exact hat.answered rfl hop hlen hps (State.notPermitted_open rfl hcls hmode)
        ((State.dwDescBaste_eq (c := ⟨f, cls, h, ps⟩) hn hmax hend).trans (if_pos hclosed)) hstays
    · exact hat.answered rfl hop hlen hps (State.notPermitted_open rfl hcls hmode)
        ((State.dwDmapBaste_eq (c := ⟨f, cls, h, ps⟩) hn hmax hend).trans (if_pos hclosed)) hstays
  case opened =>
    intro u hopen hcls hmode hstays
    have hno : ¬ s.basteOpen = false := by simp [hopen]
    refine ⟨?_, ?_, ?_⟩
    · rintro hop hps h0 hz hn hmax hend rfl
      exact hat.answered rfl hop hlen hps (State.notPermitted_open rfl hcls hmode)
        ((State.dwStitchBaste_eq (c := ⟨f, cls, h, ps⟩) h0 hz hn hmax hend).trans (if_neg hno)) hstays
    · rintro hop hps hn hmax hend rfl
      exact hat.answered rfl hop hlen hps (State.notPermitted_open rfl hcls hmode)
        ((State.dwDescBaste_eq (c := ⟨f, cls, h, ps⟩) hn hmax hend).trans (if_neg hno)) hstays
    · rintro hop hps hn hmax hend rfl
      exact hat.answered rfl hop hlen hps (State.notPermitted_open rfl hcls hmode)
        ((State.dwDmapBaste_eq (c := ⟨f, cls, h, ps⟩) hn hmax hend).trans (if_neg hno)) hstays
  case attr =>
    rintro _ hop hcls hmode hps hn hmax hend hstays rfl
    exact hat.answered rfl hop hlen hps (State.notPermitted_open rfl hcls hmode)
      (State.dwSrcAttr_eq (c := ⟨f, cls, h, ps⟩) hn hmax hend) hstays
  case direct =>
    intro r hop hps hcls hmode h0 hz hhold hsolo hr hstays
    have hbody := State.dwStitchDirect_eq (c := ⟨f, cls, h, ps⟩) h0 hz hhold hsolo hr
    have hanswer : ∀ a, (if r.2 = 0 then okWith (le 8 s.msc) else if r.2 = 2 then forbidden 3 else rejected r.2) = a →
        Answered (.dwStitchDirect f h ps) s f h a r.1 := by
      rintro _ rfl
      exact hat.answered rfl hop hlen hps (State.notPermitted_open rfl hcls hmode) hbody hstays
    exact ⟨fun h0 => hanswer _ (if_pos h0), fun h2 => hanswer _ ((if_neg (by omega)).trans (if_pos h2)),
      fun h0 h2 => hanswer _ ((if_neg h0).trans (if_neg h2))⟩
  case meter =>
    intro hop hps hn hfirst hstays
    exact hat.answered rfl hop hlen hps (State.notPermitted_read rfl (Nat.zero_le _) rfl)
      (State.dwMeterRead_one (c := ⟨f, cls, h, ps⟩) hn hfirst) hstays

end Sys2Proof.Machine
end

section
/-!
PROOF. Dweul: a command with a bulk block (R491), and the Patterns family (R123, R136, R138, R139, R146, R155, R499).
-/

namespace Sys2Proof.Machine

section
variable {s u : State} {op : Op} {f cls len fixed : Nat} {h : Hdr} {ps block : List Byte} {a : Ans}

/-! ### A command that is not answered yet -/

/-- A command that waits for more leaves the state of its body. -/
theorem State.dweul_of_unanswered {body : State → Cmd → State × Option Ans} (hat : AtHead s f h cls)
    (hop : h.opcode = op.code) (hlen : h.length = ps.length) (hps : ps.length = len) (hperm : s.notPermitted op cls = 0)
    (hbody : body s ⟨f, cls, h, ps⟩ = (u, none)) (hheld : u.twin.held = []) : s.dweul op f h ps len body = (u, none) := by
  obtain ⟨hserved, rfl, hcheck, hsheld, hseg, e, rest, htaken, rfl⟩ := hat
  have htake : s.takeIn f { e.hdr with opcode := op.code } = s := by simp [State.takeIn, htaken, hop]
  have hhead : s.atHead op.code f e.hdr.seq = some e := by simp [State.atHead, htaken, hop, hcheck, hsheld]
  have hdrop : s.dropStream f = s := by simp [State.dropStream, hseg]
  have hrefusal : s.refusal op ⟨f, s.foldClass f, e.hdr, ps⟩ len = none := by simp [State.refusal, hlen, hps, hperm]
  simp [State.dweul, hserved, htake, hhead, hdrop, hrefusal, hbody, State.finish, hheld]

/-! ### A block that Drover has fetched (R491) -/

theorem State.dweulBulk_of_fetched {body : State → Cmd → List Byte → State × Option Ans} (hat : Fetched s f h cls)
    (hop : h.opcode = op.code) (hlen : h.length = ps.length) (hps : ps.length = fixed + 12)
    (hperm : s.notPermitted op cls = 0) (htotal : leAt ps 4 fixed = block.length) (h1 : 1 ≤ block.length)
    (hmax : block.length ≤ 16777216) (hbody : body s ⟨f, cls, h, ps.take fixed⟩ block = (u, some a))
    (hstays : Stays s u f) : s.dweulBulk op f h ps block fixed body = (u.answer f h a, some a.status) := by
  obtain ⟨hserved, rfl, hudp, hcheck, hheld, e, rest, htaken, rfl, hfetch, herr⟩ := hat
  obtain ⟨huheld, hutaken⟩ := hstays
  have htake : s.takeIn f { e.hdr with opcode := op.code } = s := by simp [State.takeIn, htaken, hop]
  have hhead : s.atHead op.code f e.hdr.seq = some e := by simp [State.atHead, htaken, hop, hcheck, hheld]
  have hrefusal : s.refusal op ⟨f, s.foldClass f, e.hdr, ps⟩ (fixed + 12) = none := by
    simp [State.refusal, hlen, hps, hperm]
  have h0 : block ≠ [] := List.ne_nil_of_length_pos h1
  have hmax' : ¬ 16777216 < block.length := by omega
  simp only [State.dweulBulk, hserved, Bool.not_true, Bool.false_eq_true, if_false, htake, hhead, hudp, State.bulkFetched,
    hrefusal, htotal, hfetch, herr, ne_eq, not_true, hbody, State.finish, huheld, List.isEmpty_nil, hutaken, htaken, if_true]
  simp [h0, hmax']

/-! ### A block in segments over UDP (R491) -/

/-- The first segment of a stream: it starts at offset 0 and holds the whole of a block that it ends. -/
theorem streamWith_first (code : Nat) (params : List Nat) (total off : Nat) (data : List Byte) (last : Bool) :
    streamWith none code params total off data last =
      if off ≠ 0 ∨ total < off + (if last = true then total - off else data.length) ∨
          (last = true ∧ data.length ≠ ((if last = true then total - off else data.length) + 3) / 4 * 4) then none
      else some ⟨code, params, total, data.take (if last = true then total - off else data.length)⟩ := by
  simp [streamWith, or_assoc]

theorem streamWith_offset {code : Nat} {params : List Nat} {total off : Nat} {data : List Byte} {last : Bool} (h : off ≠ 0) :
    streamWith none code params total off data last = none := by
  rw [streamWith_first, if_pos (.inl h)]

theorem streamWith_open {code : Nat} {params : List Nat} {total : Nat} {data : List Byte} (h : data.length ≤ total) :
    streamWith none code params total 0 data false = some ⟨code, params, total, data⟩ := by
  have hbad : ¬ total < 0 + data.length := by omega
  simp [streamWith_first, Nat.not_lt.2 h]

theorem streamWith_whole {code : Nat} {params : List Nat} {total : Nat} {data : List Byte}
    (h : data.length = (total + 3) / 4 * 4) :
    streamWith none code params total 0 data true = some ⟨code, params, total, data.take total⟩ := by
  simp [streamWith_first, h]

theorem State.dweulBulk_of_udp {body : State → Cmd → List Byte → State × Option Ans} (hat : AtHead s f h cls)
    (hudp : s.foldUdp f = true) (hop : h.opcode = op.code) {e : Taken} {rest : List Taken}
    (htaken : (s.fold f).taken = e :: rest) (he : e.hdr = h) : s.dweulBulk op f h ps block fixed body =
      s.bulkSegment op e ⟨f, cls, h, ps.take fixed⟩ ps fixed body := by
  obtain ⟨hserved, rfl, hcheck, hheld, -, -⟩ := hat
  subst he
  have htake : s.takeIn f { e.hdr with opcode := op.code } = s := by simp [State.takeIn, htaken, hop]
  have hhead : s.atHead op.code f e.hdr.seq = some e := by simp [State.atHead, htaken, hop, hcheck, hheld]
  simp only [State.dweulBulk, hserved, Bool.not_true, Bool.false_eq_true, if_false, htake, hhead, hudp, if_true]

/-- The parameters of a segment of sound length, permitted and within the bounds of BULK_LEN. -/
structure SegmentOk (s : State) (op : Op) (h : Hdr) (ps : List Byte) (fixed cls : Nat) : Prop where
  length : h.length = ps.length
  short : fixed + 8 ≤ ps.length
  permitted : s.notPermitted op cls = 0
  total_pos : 1 ≤ leAt ps 4 fixed
  total_le : leAt ps 4 fixed ≤ 16777216

section
variable {e : Taken} {body : State → Cmd → List Byte → State × Option Ans}
  (hok : SegmentOk s op e.hdr ps fixed cls) (hseg : (s.fold f).seg = none)
include hok hseg

theorem State.bulkSegment_refused
    (hx : streamWith none op.code ((ps.take fixed).map BitVec.toNat) (leAt ps 4 fixed) (leAt ps 4 (fixed + 4))
      (ps.drop (fixed + 8)) (decide (e.hdr.flags / 16 % 2 = 1)) = none) :
    s.bulkSegment op e ⟨f, cls, e.hdr, ps.take fixed⟩ ps fixed body = s.finish s f e (some badSegment) := by
  have hdrop : s.dropStream f = s := by simp [State.dropStream, hseg]
  have hbad : (decide (e.hdr.length ≠ ps.length) || decide (ps.length < fixed + 8)) = false := by
    simp [hok.length, hok.short]
  simp only [State.bulkSegment, hdrop, hbad, hseg, hx, Bool.false_eq_true, if_false]

theorem State.bulkSegment_more {g : SegStream} (hmore : e.hdr.flags / 16 % 2 = 0)
    (hx : streamWith none op.code ((ps.take fixed).map BitVec.toNat) (leAt ps 4 fixed) (leAt ps 4 (fixed + 4))
      (ps.drop (fixed + 8)) false = some g) {u : State} (hu : u = (s.setFold f { s.fold f with seg := some g }).syncFold f) :
    s.bulkSegment op e ⟨f, cls, e.hdr, ps.take fixed⟩ ps fixed body = u.finish u f e (some {}) := by
  have hdrop : s.dropStream f = s := by simp [State.dropStream, hseg]
  have hbad : (decide (e.hdr.length ≠ ps.length) || decide (ps.length < fixed + 8)) = false := by
    simp [hok.length, hok.short]
  have h0 : leAt ps 4 fixed ≠ 0 := by have := hok.total_pos; omega
  have hmax : ¬ 16777216 < leAt ps 4 fixed := Nat.not_lt.2 hok.total_le
  subst hu
  simp only [State.bulkSegment, hdrop, hbad, hseg, hmore, Nat.zero_ne_one, decide_false, hx, hok.permitted, ne_eq,
    not_true, h0, hmax, Bool.or_self, Bool.false_eq_true, if_false]

theorem State.bulkSegment_last {g : SegStream} (hlast : e.hdr.flags / 16 % 2 = 1)
    (hx : streamWith none op.code ((ps.take fixed).map BitVec.toNat) (leAt ps 4 fixed) (leAt ps 4 (fixed + 4))
      (ps.drop (fixed + 8)) true = some g) (hbody : body s ⟨f, cls, e.hdr, ps.take fixed⟩ g.data = (u, some a)) :
    s.bulkSegment op e ⟨f, cls, e.hdr, ps.take fixed⟩ ps fixed body = s.finish u f e (some a) := by
  have hdrop : s.dropStream f = s := by simp [State.dropStream, hseg]
  have hbad : (decide (e.hdr.length ≠ ps.length) || decide (ps.length < fixed + 8)) = false := by
    simp [hok.length, hok.short]
  have h0 : leAt ps 4 fixed ≠ 0 := by have := hok.total_pos; omega
  have hmax : ¬ 16777216 < leAt ps 4 fixed := Nat.not_lt.2 hok.total_le
  simp only [State.bulkSegment, hdrop, hbad, hseg, hlast, decide_true, hx, hok.permitted, ne_eq,
    not_true, h0, hmax, decide_false, Bool.or_self, Bool.false_eq_true, if_false, if_true, hbody]

end

theorem State.finish_of_stays {e : Taken} {rest : List Taken} (hstays : Stays s u f) (htaken : (s.fold f).taken = e :: rest)
    (t : State) : t.finish u f e (some a) = (u.answer f e.hdr a, some a.status) := by
  obtain ⟨hheld, hutaken⟩ := hstays
  simp [State.finish, hheld, hutaken, htaken]

/-! ### Bodies of the Patterns family -/

/-- A new BASTE bank, with the state of BASTE in its register, is all that changes. -/
theorem State.setBaste_eq (s : State) (k : Bank) :
    ∃ regs, s.setBaste k = { s with quilt := { s.quilt with baste := k }, regs := regs } := by
  unfold State.setBaste
  dsimp only
  split
  · exact ⟨_, rfl⟩
  · exact ⟨_, rfl⟩

theorem State.stays_setBaste {k : Bank} (hheld : s.twin.held = []) : Stays s (s.setBaste k) f := by
  obtain ⟨regs, hk⟩ := s.setBaste_eq k
  rw [hk]
  exact ⟨hheld, rfl⟩

theorem State.ue_setBaste (k : Bank) : (s.setBaste k).quilt.ue = s.quilt.ue := by
  obtain ⟨regs, hk⟩ := s.setBaste_eq k
  rw [hk]

theorem State.dwBasteImage_closed {c : Cmd} (h : s.basteOpen = false) :
    s.dwBasteImage c block = (s.seamBusy, some busyState) := by
  simp [State.dwBasteImage, h]

theorem State.dwBasteImage_unsound {c : Cmd} (h : s.basteOpen = true)
    (hparse : parseImage (s.fld R.SYS_ENGINE_ID F.SYS_ENGINE_ID_ENGINE) block = none) :
    s.dwBasteImage c block = (s, some (rejected 0)) := by
  simp only [State.dwBasteImage, h, hparse, Bool.not_true, Bool.false_eq_true, if_false]

theorem State.dwBasteImage_ok {c : Cmd} {xs : List Section} (h : s.basteOpen = true)
    (hparse : parseImage (s.fld R.SYS_ENGINE_ID F.SYS_ENGINE_ID_ENGINE) block = some xs) (hue : s.quilt.ue = []) :
    s.dwBasteImage c block = (s.setBaste (s.quilt.baste.applyImage block xs), some {}) := by
  have hue' := (State.ue_setBaste (s := s) (s.quilt.baste.applyImage block xs)).trans hue
  simp only [State.dwBasteImage, h, hparse, Bool.not_true, Bool.false_eq_true, if_false]
  generalize s.setBaste (s.quilt.baste.applyImage block xs) = t at hue'
  rw [hue', List.filter_nil, ← hue']

theorem State.held_startCheck (ask : Option SewAsk) (hheld : s.twin.held = []) :
    (s.startCheck cls (some h) ask).twin.held = [] := by
  unfold State.startCheck State.setBstate
  rw [State.twin_setFld]
  exact hheld

end

/-- Settles O46: the state of BASTE chooses the branch; a bulk block arrives whole, or segment by segment. -/
theorem dweulPatterns : Obligations.DweulPatterns := by
  unfold Obligations.DweulPatterns
  intro f h ps s cls hlen
  refine ⟨?state, ?commands, ?image, ?segments⟩
  case state =>
    intro hat hop hps
    exact hat.answered_self rfl hop hlen hps (State.notPermitted_read rfl (Nat.zero_le _) rfl) rfl
  case commands =>
    intro hat hcls hmode
    obtain ⟨-, -, -, hheld, -⟩ := id hat
    refine ⟨?check, ?sew, ?groupSew, ?discard⟩
    case check =>
      intro hop hps
      refine ⟨fun hopen => congrArg (fun r : State × Option Nat => Host.Outcome.next r.1)
        (State.dweul_of_unanswered (op := ⟨0x0302, false, 1, .always⟩) hat hop hlen hps
          (State.notPermitted_open rfl hcls hmode) (if_pos hopen) (State.held_startCheck _ hheld)),
        fun hclosed hstays => hat.answered rfl hop hlen hps (State.notPermitted_open rfl hcls hmode)
          (if_neg (Bool.eq_false_iff.1 hclosed)) hstays⟩
    case sew =>
      rintro _ rfl hop hps
      refine ⟨fun h0 => congrArg (fun r : State × Option Nat => Host.Outcome.next r.1)
        (State.dweul_of_unanswered (op := ⟨0x0303, false, 1, .always⟩) hat hop hlen hps
          (State.notPermitted_open rfl hcls hmode) (if_pos h0) (State.held_startCheck _ hheld)), fun h2 hstays => ?_,
        fun h0 h2 hstays => ?_⟩
      · exact hat.answered rfl hop hlen hps (State.notPermitted_open rfl hcls hmode)
          ((if_neg (by omega)).trans (if_pos h2)) hstays
      · exact hat.answered rfl hop hlen hps (State.notPermitted_open rfl hcls hmode)
          ((if_neg h0).trans (if_neg h2)) hstays
    case groupSew =>
      rintro _ rfl hop hps
      refine ⟨fun hg => hat.answered_self rfl hop hlen hps (State.notPermitted_open rfl hcls hmode) (if_pos hg),
        fun hg h0 => congrArg (fun r : State × Option Nat => Host.Outcome.next r.1)
          (State.dweul_of_unanswered (op := ⟨0x0305, false, 1, .always⟩) hat hop hlen hps
            (State.notPermitted_open rfl hcls hmode) ((if_neg hg).trans (if_pos h0)) (State.held_startCheck _ hheld)),
        fun hg h2 hstays => ?_, fun hg h0 h2 hstays => ?_⟩
      · exact hat.answered rfl hop hlen hps (State.notPermitted_open rfl hcls hmode)
          ((if_neg hg).trans ((if_neg (by omega)).trans (if_pos h2))) hstays
      · exact hat.answered rfl hop hlen hps (State.notPermitted_open rfl hcls hmode)
          ((if_neg hg).trans ((if_neg h0).trans (if_neg h2))) hstays
    case discard =>
      intro hop hps hz
      have hbody : s.dwDiscard ⟨f, cls, h, ps⟩ = if byteAt ps 0 ≠ 0 ∧ cls ≠ 3 then (s, some (forbidden 1))
          else ((s.discard (decide (byteAt ps 0 ≠ 0))).1, some
            ⟨(s.discard (decide (byteAt ps 0 ≠ 0))).2.1, (s.discard (decide (byteAt ps 0 ≠ 0))).2.2, false, []⟩) := by
        simp only [State.dwDiscard, Cmd.zero, hz, Cmd.u8, Bool.not_true, Bool.false_eq_true, if_false, Bool.and_eq_true,
          decide_eq_true_eq]
        exact ite_congr (congrArg (· ∧ cls ≠ 3) (propext decide_eq_true_iff)) (fun _ => rfl) (fun _ => rfl)
      refine ⟨fun h0 h3 => hat.answered_self rfl hop hlen hps (State.notPermitted_open rfl hcls hmode)
        (hbody.trans (if_pos ⟨h0, h3⟩)), ?_⟩
      rintro _ hforce rfl hstays
      exact hat.answered rfl hop hlen hps (State.notPermitted_open rfl hcls hmode)
        (hbody.trans (if_neg fun ⟨h0, h3⟩ => hforce.elim h0 h3)) hstays
  case image =>
    intro block hat hcls hmode hop hps htotal h1 hmax
    have hperm := State.notPermitted_open (s := s) (op := ⟨0x0301, false, 1, .always⟩) rfl hcls hmode
    obtain ⟨-, -, -, -, hheld, -⟩ := id hat
    have hanswer : ∀ {u a}, s.dwBasteImage ⟨f, cls, h, ps.take 0⟩ block = (u, some a) → Stays s u f →
        Answered (.dwBasteImage f h ps block) s f h a u := fun hbody hstays =>
      congrArg (fun r : State × Option Nat => Host.Outcome.next r.1)
        (State.dweulBulk_of_fetched hat hop hlen hps hperm htotal h1 hmax hbody hstays)
    refine ⟨fun hclosed hstays => hanswer (State.dwBasteImage_closed hclosed) hstays,
      fun hopen hparse => hanswer (State.dwBasteImage_unsound hopen hparse) ⟨hheld, rfl⟩,
      fun xs hopen hparse hue => hanswer (State.dwBasteImage_ok hopen hparse hue) (State.stays_setBaste hheld)⟩
  case segments =>
    intro op fixed block body hat hudp hop hperm hshort h1 hmax
    obtain ⟨-, -, -, hheld, hseg, e, rest, htaken, rfl⟩ := id hat
    have hok : SegmentOk s op e.hdr ps fixed cls := ⟨hlen, hshort, hperm, h1, hmax⟩
    have hbulk := State.dweulBulk_of_udp (ps := ps) (block := block) (fixed := fixed) (body := body) hat hudp hop htaken rfl
    refine ⟨fun hoff => ?_, ?_, ?_⟩
    · rw [hbulk, State.bulkSegment_refused hok hseg (streamWith_offset hoff)]
      exact State.finish_of_stays hat.stays htaken s
    · rintro u hoff hmore hfit rfl hstays
      rw [hbulk, State.bulkSegment_more hok hseg hmore (by rw [hoff]; exact streamWith_open (by simpa using hfit)) rfl]
      exact State.finish_of_stays hstays htaken _
    · intro u a hoff hlast hdata hbody hstays
      rw [hbulk, State.bulkSegment_last hok hseg hlast (by rw [hoff]; exact streamWith_whole (by simpa using hdata)) hbody]
      exact State.finish_of_stays hstays htaken s

end Sys2Proof.Machine
end

section
/-!
PROOF. Dweul: the Needle and Clocking families (R198, R203 to R205, R235, R239, R262, R289, R500).
-/

namespace Sys2Proof.Machine

section
variable {s : State} {c : Cmd}

/-! ### Parameters -/

/-- A number within its bound and reserved bytes of zero pass step 5 of R490. -/
theorem not_badParam {n m : Nat} {z : Bool} (hn : n ≤ m) (hz : z = true) : ¬ (decide (m < n) || !z) = true := by
  simp [hz, hn]

theorem byteAt_take (bs : List Byte) {n i : Nat} (h : i < n) : byteAt (bs.take n) i = byteAt bs i := by
  simp [byteAt, List.getD, h]

theorem leAt_take (bs : List Byte) {n w i : Nat} (h : i + w ≤ n) : leAt (bs.take n) w i = leAt bs w i := by
  unfold leAt
  refine congrArg ofLe (List.map_congr_left fun j hj => byteAt_take bs ?_)
  have := List.mem_range.1 hj
  omega

/-! ### Bodies of the Needle family -/

theorem needleRunOk_of {core space addr n : Nat} (h1 : core < 64) (h2 : space < 3) (h3 : addr + n ≤ needleSpace space) :
    needleRunOk core space addr n = true := by
  simp [needleRunOk, h1, h2, h3]

theorem State.dwNeedleLoad_ok {block : List Byte} {n : Nat} (hlen : block.length = 4 * n) (h1 : c.u8 0 < 64)
    (h2 : c.u8 1 < 3) (h3 : c.u16 2 + n ≤ needleSpace (c.u8 1)) : s.dwNeedleLoad c block =
      ((List.range n).foldl (fun (t : State) i => t.needleWrite (c.u8 0) (c.u8 1) (c.u16 2 + i)
        (BitVec.ofNat 32 (leAt block 4 (4 * i)))) s, some {}) := by
  have hn : block.length / 4 = n := by omega
  have hmod : block.length % 4 = 0 := by omega
  simp [State.dwNeedleLoad, hn, hmod, needleRunOk_of h1 h2 h3]

theorem State.dwNeedleRead_of_stopped (h1 : c.u8 0 < 64) (h2 : c.u8 1 < 3) (hz : c.zero 2 6 = true) (hn : 1 ≤ c.u16 4)
    (hmax : c.u16 4 ≤ 1000) (h3 : c.u16 2 + c.u16 4 ≤ needleSpace (c.u8 1)) (hactive : (s.core (c.u8 0)).active = false)
    (hpoison : (s.core (c.u8 0)).poison = []) : s.dwNeedleRead c = (s, some (okWith ((List.range (c.u16 4)).flatMap
      (fun i => words [((s.core (c.u8 0)).hostRead (c.u8 1) (c.u16 2 + i)).toNat])))) := by
  have h0 : c.u16 4 ≠ 0 := by omega
  simp only [State.dwNeedleRead, h0, Nat.not_lt.2 hmax, hz, needleRunOk_of h1 h2 h3, decide_false, Bool.not_true,
    Bool.or_self, Bool.false_eq_true, if_false]
  exact State.readEach_sound _ fun i => by rw [State.needleRead_of_stopped _ hactive (by simp [hpoison])]

theorem State.dwNeedleCtrl_ok (hcmd : c.u8 8 = 1 ∨ c.u8 8 = 2) (hz : c.zero 3 9 = true) : s.dwNeedleCtrl c =
    (s.shepWrites ((maskList 64 (c.u64 0)).map (fun k => (R.NEEDLE_CTRL k, c.u8 8))), some {}) := by
  rcases hcmd with hcmd | hcmd <;> simp [State.dwNeedleCtrl, hcmd, hz]

/-! ### Bodies of the Clocking family -/

theorem State.dwRefSet_eq {n : Nat} {r : State × Bool} (hn : n = c.u8 0) (h16 : n < 16) (hz : c.zero 3 1 = true)
    (hr : r = s.tryApply R.BELL_FLAGS F.BELL_FLAGS_APPLY_ERR (fun t => t.shepWrites [(R.BELL_REF_ACCEPT n, c.u32 12),
      (R.BELL_REF_REJECT n, c.u32 16), (R.BELL_REF_APPLY, 2 ^ 31 + n)])) :
    s.dwRefSet c = if r.2 = true then (r.1.shepWrites [(R.BELL_REF_CFG n, c.u32 4), (R.BELL_REF_NOM n, c.u32 8)], some {})
      else (r.1, some (rejected 0)) := by
  subst hn hr
  exact if_neg (not_badParam (Nat.le_of_lt_succ h16) hz)

theorem State.dwServoSet_ok (h8 : c.u8 0 < 8) (hz : c.zero 3 1 = true) (h1 : 1 ≤ c.u32 4) (hmax : c.u32 4 ≤ 1000000000) :
    s.dwServoSet c = ({ s with ptp := { s.ptp with servo := Sparse.set (fun _ => 1000000) s.ptp.servo (c.u8 0) (c.u32 4) } },
      some {}) := by
  have h0 : c.u32 4 ≠ 0 := by omega
  simp only [State.dwServoSet, Nat.not_lt.2 (Nat.le_of_lt_succ h8), hz, h0, Nat.not_lt.2 hmax, decide_false, Bool.not_true,
    Bool.or_self, Bool.false_eq_true, if_false]

end

/-- Settles O47: parameters that pass step 5 leave the words that each body writes. -/
theorem dweulNeedleAndClock : Obligations.DweulNeedleAndClock := by
  unfold Obligations.DweulNeedleAndClock
  intro f h ps s cls hlen
  refine ⟨?load, ?reads, ?doorbell, ?writes⟩
  case load =>
    rintro block n _ hat hcls hmode hop hps htotal hn h1 hmax h64 h3 hend hstays rfl
    have hcore : byteAt (ps.take 4) 0 = byteAt ps 0 := byteAt_take ps (by decide)
    have hspace : byteAt (ps.take 4) 1 = byteAt ps 1 := byteAt_take ps (by decide)
    have haddr : leAt (ps.take 4) 2 2 = leAt ps 2 2 := leAt_take ps (by decide)
    have hbody := State.dwNeedleLoad_ok (s := s) (c := ⟨f, cls, h, ps.take 4⟩) hn (hcore ▸ h64 :) (hspace ▸ h3 :)
      (by simp only [Cmd.u16, Cmd.u8, hspace, haddr]; exact hend)
    simp only [Cmd.u8, Cmd.u16, hcore, hspace, haddr] at hbody
    exact congrArg (fun r : State × Option Nat => Host.Outcome.next r.1)
      (State.dweulBulk_of_fetched (op := ⟨0x0401, false, 2, .always⟩) hat hop hlen hps
        (State.notPermitted_open rfl hcls hmode) htotal (by omega) hmax hbody hstays)
  case reads =>
    intro hat
    refine ⟨?_, ?_, fun hop hps => hat.answered_self rfl hop hlen hps (State.notPermitted_read rfl (Nat.zero_le _) rfl) rfl⟩
    · intro hop hps h64 h3 hz hn hmax hend hactive hpoison
      exact hat.answered_self rfl hop hlen hps (State.notPermitted_read rfl (Nat.zero_le _) rfl)
        (State.dwNeedleRead_of_stopped (c := ⟨f, cls, h, ps⟩) h64 h3 hz hn hmax hend hactive hpoison)
    · rintro _ _ rfl hop hps h64 hz rfl hstays
      exact hat.answered rfl hop hlen hps (State.notPermitted_read rfl (Nat.zero_le _) rfl)
        (if_neg (not_badParam (Nat.le_of_lt_succ h64) hz)) hstays
  case doorbell =>
    rintro _ hat hcls hmode hop hps h64 hz rfl hstays
    exact hat.answered rfl hop hlen hps (State.notPermitted_open rfl hcls hmode)
      (if_neg (not_badParam (Nat.le_of_lt_succ h64) hz)) hstays
  case writes =>
    intro u hat hcls hmode hstays
    refine ⟨?ctrl, ?refSet, ?refSelect, ?loopSet, ?divSet, ?servoSet⟩
    case ctrl =>
      rintro hop hps hcmd hz rfl
      exact hat.answered rfl hop hlen hps (State.notPermitted_open rfl hcls hmode)
        (State.dwNeedleCtrl_ok (c := ⟨f, cls, h, ps⟩) hcmd hz) hstays
    case refSet =>
      rintro n r hn hop hps h16 hz hr
      have hbody := State.dwRefSet_eq (c := ⟨f, cls, h, ps⟩) hn h16 hz hr
      refine ⟨?_, ?_⟩
      · rintro hyes rfl
        exact hat.answered rfl hop hlen hps (State.notPermitted_open rfl hcls hmode) (hbody.trans (if_pos hyes)) hstays
      · rintro hno rfl
        exact hat.answered rfl hop hlen hps (State.notPermitted_open rfl hcls hmode)
          (hbody.trans (if_neg (Bool.eq_false_iff.1 hno))) hstays
    case refSelect =>
      rintro hop hps h16 hz rfl
      exact hat.answered rfl hop hlen hps (State.notPermitted_open rfl hcls hmode)
        (if_neg (not_badParam (Nat.le_of_lt_succ h16) hz)) hstays
    case loopSet =>
      rintro hop hps rfl
      exact hat.answered rfl hop hlen hps (State.notPermitted_open rfl hcls hmode) rfl hstays
    case divSet =>
      rintro r hop hps rfl rfl
      refine ⟨fun hyes => ?_, fun hno => ?_⟩
      · exact hat.answered rfl hop hlen hps (State.notPermitted_open rfl hcls hmode)
          (congrArg (fun a => (_, some a)) (if_pos hyes)) hstays
      · exact hat.answered rfl hop hlen hps (State.notPermitted_open rfl hcls hmode)
          (congrArg (fun a => (_, some a)) (if_neg (Bool.eq_false_iff.1 hno))) hstays
    case servoSet =>
      rintro hop hps h8 hz h1 hmax rfl
      exact hat.answered rfl hop hlen hps (State.notPermitted_open rfl hcls hmode)
        (State.dwServoSet_ok (c := ⟨f, cls, h, ps⟩) h8 hz h1 hmax) hstays

end Sys2Proof.Machine
end

section
/-!
PROOF. Dweul: the PTP and streams family (R276, R287, R296, R303, R318, R319, R326, R500).
-/

namespace Sys2Proof.Machine

section
variable {s : State} {c : Cmd}

/-! ### Parameters -/

theorem zeroAt_one {bs : List Byte} {i : Nat} (h : byteAt bs i = 0) : zeroAt bs 1 i = true := by
  simp [zeroAt, List.range, List.range.loop, h]

theorem flowOk_of (h1 : c.u8 0 ≤ 1) (hz : c.zero 1 1 = true) (h2 : c.u16 2 < 1024) : flowOk c = true := by
  simp [flowOk, h1, hz, h2]

theorem flockOk_of (h1 : c.u8 0 < 64) (hz : c.zero 3 1 = true) : flockOk c = true := by
  simp [flockOk, h1, hz]

theorem flowSetLen_eq {ps : List Byte} (h : byteAt ps 0 ≤ 1) :
    flowSetLen ps = if byteAt ps 0 = 0 then 40 else 36 := by
  unfold flowSetLen
  split
  · rfl
  · exact if_pos (by omega)

/-! ### PTP (R276, R287) -/

theorem State.stays_bump {f : Nat} (hheld : s.twin.held = []) : Stays s s.bump.bump f := ⟨hheld, rfl⟩

/-- The interval of a profile that a parameter keeps. -/
theorem State.dwPtpSet_eq {x : PtpInst} {r : (Int × Int) × Int × Int}
    (hx : x = ⟨c.u8 1, c.u8 2, c.u8 3, sext 8 (c.u8 4), sext 8 (c.u8 5), c.u8 6⟩) (hr : r = profileRange x.profile)
    (h8 : c.u8 0 < 8) (hprofile : x.profile ≤ 3) (hdomain : x.domain ≤ 127) (hports : x.ports ≤ 15) (hrole : x.role ≤ 1)
    (hz : c.zero 1 7 = true) : s.dwPtpSet c =
      if r.1.1 ≤ x.logSync ∧ x.logSync ≤ r.1.2 ∧ r.2.1 ≤ x.logAnnounce ∧ x.logAnnounce ≤ r.2.2 then
        ({ s with ptp := { s.ptp with insts := Sparse.set (fun _ => none) s.ptp.insts (c.u8 0) (some x) } }, some {})
      else (s, some badParam) := by
  subst hr hx
  simp only at hprofile hdomain hports hrole
  simp only [State.dwPtpSet, Nat.not_lt.2 (Nat.le_of_lt_succ h8), Nat.not_lt.2 hprofile, Nat.not_lt.2 hdomain,
    Nat.not_lt.2 hports, Nat.not_lt.2 hrole, hz, decide_false, Bool.not_true, Bool.false_or, Bool.or_eq_true,
    Bool.not_eq_true', Bool.and_eq_false_iff, decide_eq_false_iff_not]
  split
  · rw [if_neg (by omega)]
  · rw [if_pos (by omega)]

/-! ### Flows and flocks (R303, R318, R319) -/

theorem State.dwFlowSet_eq {tx n : Nat} {g : List Nat} {r : State × Bool} (hok : flowOk c = true) (htx : tx = c.u8 0)
    (hn : n = c.u16 2) (hg : g = if tx = 1 then txGroup n else rxGroup n)
    (hr : r = s.tryApply R.NET_FLAGS F.NET_FLAGS_APPLY_ERR (fun t => t.shepWrites ((List.range g.length).map (fun i =>
      (g.getD i 0, c.u32 (4 + 4 * i))) ++ [(R.NET_APPLY, 2 ^ 31 + tx * 2 ^ 30 + n)]))) :
    s.dwFlowSet c =
      (r.1, some (if r.2 = true then {} else inconsistent (r.1.fld R.NET_APPLY_RESULT F.NET_APPLY_RESULT_CODE))) := by
  subst hr hg hn htx
  simp only [State.dwFlowSet, hok, Bool.not_true, Bool.false_eq_true, if_false, State.dwApply]

theorem State.startOne_eq (o : Obj) (target : Nat) : s.startOne c o target =
    if s.startAccepted o target = false then (s, some (rejected 0))
    else ((s.enterEvent c (.start o) target [o]).1, some (s.enterEvent c (.start o) target [o]).2) := by
  unfold State.startOne
  cases s.startAccepted o target <;> rfl

theorem State.dwFlowStart_ok (hok : flowOk c = true) : s.dwFlowStart c = s.startOne c (flowObj c) (c.u64 4) := by
  simp [State.dwFlowStart, hok]

theorem State.dwFlowStop_ok (hok : flowOk c = true) : s.dwFlowStop c = s.stopEvent c (flowObj c) (c.u64 4) := by
  simp [State.dwFlowStop, hok]

theorem State.dwFlockStart_none (hok : flockOk c = true)
    (hmine : (s.flockObjs (c.u8 0)).filter (fun o => s.startAccepted o (c.u64 4)) = []) :
    s.dwFlockStart c = (s, some (rejected 0)) := by
  simp only [State.dwFlockStart, hok, hmine, Bool.not_true, Bool.false_eq_true, if_false, List.isEmpty_nil, if_true]

theorem State.dwFlockStart_some {mine : List Obj} {r : State × Ans} {k : Nat} (hok : flockOk c = true)
    (hmine : mine = (s.flockObjs (c.u8 0)).filter (fun o => s.startAccepted o (c.u64 4))) (hne : mine ≠ [])
    (hr : r = s.enterEvent c (.start (.flock (c.u8 0))) (c.u64 4) mine) (hstatus : r.2.status = 0)
    (hk : k = min 255 ((s.flockObjs (c.u8 0)).length - mine.length)) : s.dwFlockStart c =
      ((r.1.setFld (R.NET_FLOCK_STAT (c.u8 0)) F.NET_FLOCK_STAT_SKIPPED k).wr64 (R.NET_FLOCK_MSC_LO (c.u8 0))
        (R.NET_FLOCK_MSC_HI (c.u8 0)) (c.u64 4), some { r.2 with results := r.2.results ++ le 1 k ++ le 3 0 }) := by
  have hempty : mine.isEmpty = false := by simp [hne]
  subst hk
  simp only [State.dwFlockStart, hok, ← hmine, hempty, ← hr, hstatus, Bool.not_true, Bool.false_eq_true, if_false, ne_eq,
    not_true]

end

/-- Settles O48: parameters that pass step 5 leave the effect of each body. -/
theorem dweulStreams : Obligations.DweulStreams := by
  unfold Obligations.DweulStreams
  intro f h ps s cls hat hlen
  refine ⟨?ptpRead, ?flowRead, ?sets, ?events⟩
  case ptpRead =>
    rintro _ rfl hop hps h8 hz
    obtain ⟨-, -, -, hheld, -⟩ := id hat
    exact hat.answered rfl hop hlen hps (State.notPermitted_read rfl (Nat.zero_le _) rfl)
      (if_neg (not_badParam (Nat.le_of_lt_succ h8) hz)) (State.stays_bump hheld)
  case flowRead =>
    intro hop hps h1 hz h2
    exact hat.answered_self rfl hop hlen hps (State.notPermitted_read rfl (Nat.zero_le _) rfl)
      (if_neg (by rw [flowOk_of (c := ⟨f, cls, h, ps⟩) h1 hz h2]; simp))
  case sets =>
    intro u hcls hmode hstays
    refine ⟨?ptpSet, ?portSet, ?flowSet⟩
    case ptpSet =>
      intro x r hx hr hop hps h8 hprofile hdomain hports hrole hz
      have hbody := State.dwPtpSet_eq (s := s) (c := ⟨f, cls, h, ps⟩) hx hr h8 hprofile hdomain hports hrole (zeroAt_one hz)
      refine ⟨?_, fun hbad => ?_⟩
      · rintro h1 h2 h3 h4 rfl
        exact hat.answered rfl hop hlen hps (State.notPermitted_open rfl hcls hmode) (hbody.trans (if_pos ⟨h1, h2, h3, h4⟩))
          hstays
      · exact hat.answered_self rfl hop hlen hps (State.notPermitted_open rfl hcls hmode) (hbody.trans (if_neg (by omega)))
    case portSet =>
      rintro _ rfl hop hps h4 hz rfl
      exact hat.answered rfl hop hlen hps (State.notPermitted_open rfl hcls hmode)
        (if_neg (not_badParam (Nat.le_of_lt_succ h4) hz)) hstays
    case flowSet =>
      intro tx n g r htx hn hg hop h1 hps hz h2 hu hr
      subst htx hn hu
      have hbody := State.dwFlowSet_eq (c := ⟨f, cls, h, ps⟩) (flowOk_of h1 hz h2) rfl rfl hg hr
      have hanswer : ∀ a, (if r.2 = true then ({} : Ans) else
          inconsistent (r.1.fld R.NET_APPLY_RESULT F.NET_APPLY_RESULT_CODE)) = a → Answered (.dwFlowSet f h ps) s f h a r.1 := by
        rintro _ rfl
        exact hat.answered rfl hop hlen (hps.trans (flowSetLen_eq h1).symm) (State.notPermitted_open rfl hcls hmode) hbody
          hstays
      exact ⟨fun hyes => hanswer _ (if_pos hyes), fun hno => hanswer _ (if_neg (Bool.eq_false_iff.1 hno))⟩
  case events =>
    intro hcls hmode hps
    refine ⟨?flow, ?flock⟩
    case flow =>
      intro o t r ho ht h1 hz h2
      replace ht := ht.symm
      subst ho ht
      have hstart := (State.dwFlowStart_ok (s := s) (c := ⟨f, cls, h, ps⟩) (flowOk_of h1 hz h2)).trans
        (State.startOne_eq _ _)
      refine ⟨fun hop hno => ?_, ?_, ?_⟩
      · exact hat.answered_self rfl hop hlen hps (State.notPermitted_open rfl hcls hmode) (hstart.trans (if_pos hno))
      · rintro hop hyes rfl hstays
        exact hat.answered rfl hop hlen hps (State.notPermitted_open rfl hcls hmode)
          (hstart.trans (if_neg (ne_false_of_eq_true hyes))) hstays
      · rintro hop rfl hstays
        exact hat.answered rfl hop hlen hps (State.notPermitted_open rfl hcls hmode)
          (State.dwFlowStop_ok (c := ⟨f, cls, h, ps⟩) (flowOk_of h1 hz h2)) hstays
    case flock =>
      intro g t mine r hg ht h64 hz hmine
      replace ht := ht.symm
      subst hg ht
      have hok : flockOk ⟨f, cls, h, ps⟩ = true := flockOk_of (c := ⟨f, cls, h, ps⟩) h64 hz
      refine ⟨?_, ?_, ?_⟩
      · rintro hop hnone
        exact hat.answered_self rfl hop hlen hps (State.notPermitted_open rfl hcls hmode)
          (State.dwFlockStart_none hok (hmine.symm.trans hnone))
      · intro hop hne hr hstatus k u hk hu hstays
        subst hu
        exact hat.answered rfl hop hlen hps (State.notPermitted_open rfl hcls hmode)
          (State.dwFlockStart_some hok hmine hne hr hstatus hk) hstays
      · rintro hop rfl hstays
        exact hat.answered rfl hop hlen hps (State.notPermitted_open rfl hcls hmode)
          (if_neg (by rw [hok]; simp)) hstays

end Sys2Proof.Machine
end

section
/-!
PROOF. Dweul: the Local ports and Line families (R345, R352, R370, R382, R385, R390, R500).
-/

namespace Sys2Proof.Machine

section
variable {s : State} {c : Cmd}

/-! ### Parameters -/

theorem portOk_of (h : (c.u8 0 < 2 ∧ c.u8 1 < 32) ∨ (c.u8 0 = 2 ∧ c.u8 1 < 16)) : portOk c = true := by
  simpa [portOk] using h

theorem lineOk_of (h : c.u8 0 < 16) (hz : c.zero 3 1 = true) : lineOk c = true := by
  simp [lineOk, h, hz]

theorem portSetLen_eq {ps : List Byte} (h : byteAt ps 0 < 3) :
    portSetLen ps = 4 + 4 * portGroupWords (byteAt ps 0) := if_pos h

/-! ### Bodies -/

/-- The answer of an APPLY through the bus (R303, R345, R390). -/
theorem State.dwApply_eq {off : Nat} {g : List Nat} {apply : Nat × Nat} {flags : Nat} {err : Fld} {result : Nat} {code : Fld}
    {r : State × Bool} (hr : r = s.tryApply flags err (fun t => t.shepWrites ((List.range g.length).map (fun i =>
      (g.getD i 0, c.u32 (off + 4 * i))) ++ [apply]))) :
    s.dwApply c off g apply flags err result code =
      (r.1, some (if r.2 = true then {} else inconsistent (r.1.fld result code))) := by
  subst hr
  rfl

theorem State.dwPortSet_ok (hok : portOk c = true) (hz : c.zero 2 2 = true) : s.dwPortSet c =
    s.dwApply c 4 (portGroup (portOf c)) (R.PORT_APPLY, 2 ^ 31 + c.u8 0 * 2 ^ 8 + c.u8 1) R.PORT_FLAGS
      F.PORT_FLAGS_APPLY_ERR R.PORT_APPLY_RESULT F.PORT_APPLY_RESULT_CODE := by
  simp only [State.dwPortSet, hok, hz, Bool.not_true, Bool.or_self, Bool.false_eq_true, if_false]

theorem State.dwPortStart_ok (hok : portOk c = true) (hz : c.zero 2 2 = true) :
    s.dwPortStart c = s.startOne c (portOf c).obj (c.u64 4) := by
  simp only [State.dwPortStart, hok, hz, Bool.not_true, Bool.or_self, Bool.false_eq_true, if_false]

theorem State.dwPortStop_ok (hok : portOk c = true) (hz : c.zero 2 2 = true) :
    s.dwPortStop c = s.stopEvent c (portOf c).obj (c.u64 4) := by
  simp only [State.dwPortStop, hok, hz, Bool.not_true, Bool.or_self, Bool.false_eq_true, if_false]

theorem State.dwPortRead_ok (hok : portOk c = true) (hz : c.zero 2 2 = true) :
    s.dwPortRead c = (s, some (okWith (s.viewWords (portRegs (portOf c))))) := by
  simp only [State.dwPortRead, hok, hz, Bool.not_true, Bool.or_self, Bool.false_eq_true, if_false]

theorem State.dwLineSet_ok (hok : lineOk c = true) : s.dwLineSet c =
    s.dwApply c 4 (lineGroup (c.u8 0)) (R.LINE_APPLY, 2 ^ 31 + c.u8 0) R.LINE_FLAGS F.LINE_FLAGS_APPLY_ERR
      R.LINE_APPLY_RESULT F.LINE_APPLY_RESULT_CODE := by
  simp only [State.dwLineSet, hok, Bool.not_true, Bool.false_eq_true, if_false]

theorem State.dwLineRead_ok (hok : lineOk c = true) :
    s.dwLineRead c = (s, some (okWith (s.viewWords (R.LINE_STATUS :: lineRegs (c.u8 0))))) := by
  simp only [State.dwLineRead, hok, Bool.not_true, Bool.false_eq_true, if_false]

/-- Reserved bytes of zero pass step 5 of R490. -/
theorem not_badZero {z : Bool} (hz : z = true) : ¬ (!z) = true := by simp [hz]

end

/-- Settles O49: the port or the channel that the parameters name, and the event or the words of the command. -/
theorem dweulPortsAndLine : Obligations.DweulPortsAndLine := by
  unfold Obligations.DweulPortsAndLine
  intro f h ps s cls hat hlen
  refine ⟨?ports, ?lineRead, ?lineWrites, ?lineEvents⟩
  case ports =>
    rintro _ _ _ rfl rfl rfl hrange hz
    have hok : portOk ⟨f, cls, h, ps⟩ = true := portOk_of (c := ⟨f, cls, h, ps⟩) hrange
    refine ⟨fun hop hps => ?_, ?set, ?events⟩
    · exact hat.answered_self rfl hop hlen hps (State.notPermitted_read rfl (Nat.zero_le _) rfl) (State.dwPortRead_ok hok hz)
    case set =>
      intro g r hcls hmode hg hop hps hr hstays
      subst hg
      have h3 : byteAt ps 0 < 3 := by omega
      have hbody := (State.dwPortSet_ok (s := s) (c := ⟨f, cls, h, ps⟩) hok hz).trans (State.dwApply_eq hr)
      have hanswer : ∀ a, (if r.2 = true then ({} : Ans) else
          inconsistent (r.1.fld R.PORT_APPLY_RESULT F.PORT_APPLY_RESULT_CODE)) = a →
            Answered (.dwPortSet f h ps) s f h a r.1 := by
        rintro _ rfl
        exact hat.answered rfl hop hlen (hps.trans (portSetLen_eq h3).symm) (State.notPermitted_open rfl hcls hmode) hbody
          hstays
      exact ⟨fun hyes => hanswer _ (if_pos hyes), fun hno => hanswer _ (if_neg (Bool.eq_false_iff.1 hno))⟩
    case events =>
      intro t r hcls hmode hps ht
      replace ht := ht.symm
      subst ht
      have hstart := (State.dwPortStart_ok (s := s) (c := ⟨f, cls, h, ps⟩) hok hz).trans (State.startOne_eq _ _)
      refine ⟨fun hop hno => ?_, ?_, ?_⟩
      · exact hat.answered_self rfl hop hlen hps (State.notPermitted_open rfl hcls hmode) (hstart.trans (if_pos hno))
      · rintro hop hyes rfl hstays
        exact hat.answered rfl hop hlen hps (State.notPermitted_open rfl hcls hmode)
          (hstart.trans (if_neg (ne_false_of_eq_true hyes))) hstays
      · rintro hop rfl hstays
        exact hat.answered rfl hop hlen hps (State.notPermitted_open rfl hcls hmode)
          (State.dwPortStop_ok (c := ⟨f, cls, h, ps⟩) hok hz) hstays
  case lineRead =>
    intro hop hps h16 hz
    exact hat.answered_self rfl hop hlen hps (State.notPermitted_read rfl (Nat.zero_le _) rfl)
      (State.dwLineRead_ok (lineOk_of (c := ⟨f, cls, h, ps⟩) h16 hz))
  case lineWrites =>
    intro hcls hmode
    refine ⟨?set, ?clear, ?ctrl⟩
    case set =>
      intro n g r hn hg hop hps h16 hz hr hstays
      subst hg hn
      have hbody := (State.dwLineSet_ok (s := s) (lineOk_of (c := ⟨f, cls, h, ps⟩) h16 hz)).trans (State.dwApply_eq hr)
      have hanswer : ∀ a, (if r.2 = true then ({} : Ans) else
          inconsistent (r.1.fld R.LINE_APPLY_RESULT F.LINE_APPLY_RESULT_CODE)) = a →
            Answered (.dwLineSet f h ps) s f h a r.1 := by
        rintro _ rfl
        exact hat.answered rfl hop hlen hps (State.notPermitted_open rfl hcls hmode) hbody hstays
      exact ⟨fun hyes => hanswer _ (if_pos hyes), fun hno => hanswer _ (if_neg (Bool.eq_false_iff.1 hno))⟩
    case clear =>
      rintro _ hop hps hz hstays rfl
      exact hat.answered rfl hop hlen hps (State.notPermitted_open rfl hcls hmode) (if_neg (not_badZero hz)) hstays
    case ctrl =>
      rintro r hop hps rfl hstays
      refine ⟨fun hyes => ?_, fun hno => ?_⟩
      · exact hat.answered rfl hop hlen hps (State.notPermitted_open rfl hcls hmode)
          (congrArg (fun a => (_, some a)) (if_pos hyes)) hstays
      · exact hat.answered rfl hop hlen hps (State.notPermitted_open rfl hcls hmode)
          (congrArg (fun a => (_, some a)) (if_neg (Bool.eq_false_iff.1 hno))) hstays
  case lineEvents =>
    intro r hcls hmode hps hz hstays
    refine ⟨?_, ?_⟩
    · rintro hop rfl
      exact hat.answered rfl hop hlen hps (State.notPermitted_open rfl hcls hmode) (if_neg (not_badZero hz)) hstays
    · rintro hop rfl
      exact hat.answered rfl hop hlen hps (State.notPermitted_open rfl hcls hmode) (if_neg (not_badZero hz)) hstays

end Sys2Proof.Machine
end

section
/-!
PROOF. Dweul: the Alarm family (R32, R401, R404, R411, R413, R417, R420, R500).
-/

namespace Sys2Proof.Machine

section
variable {s u : State} {op : Op} {c : Cmd} {f cls : Nat}

/-! ### Permission of the family (R476) -/

theorem State.notPermitted_lifeSafety (hg : op.gate = .always) (hc : op.cls ≤ 3) (hm : s.mode ≠ .standby) :
    s.notPermitted op 3 = 0 := by
  simp only [State.notPermitted, hg, Nat.not_lt.2 hc, if_false]
  cases hmode : s.mode <;> simp_all

theorem State.notPermitted_load (hg : op.gate = .engineerInCommission) (hm : OpenMode s)
    (hc : cls = 3 ∨ (cls = 2 ∧ s.mode = .commission)) : s.notPermitted op cls = 0 := by
  obtain ⟨hstandby, halarm⟩ := hm
  rcases hc with rfl | ⟨rfl, hcom⟩
  · cases hmode : s.mode <;> simp_all [State.notPermitted]
  · simp [State.notPermitted, hg, hcom]

/-! ### Action samples (R404, R411) -/

theorem State.alarmActivate_sample (p : Nat) : (s.alarmActivate p).2 = actionSample s.msc := rfl

theorem State.msc_foldl_setBitAt (a : Nat) (l : List Nat) (t : State) :
    (l.foldl (fun (t : State) i => t.setBitAt a i true) t).msc = t.msc := by
  induction l generalizing t with
  | nil => rfl
  | cons i l ih => exact (ih _).trans rfl

theorem State.alarmRelease_sample : s.alarmRelease.2 = actionSample s.msc := by
  unfold State.alarmRelease
  simp only
  refine congrArg actionSample ?_
  split
  · exact State.msc_foldl_setBitAt _ _ _
  · exact (State.msc_setFld _ _ _ _).trans (State.msc_foldl_setBitAt _ _ _)

/-! ### Bodies -/

theorem State.dwAlarmActivate_ok (h16 : c.u8 0 < 16) (hz : c.zero 3 1 = true) : s.dwAlarmActivate c =
    ((s.alarmActivate (c.u8 0)).1, some (okWith (le 8 (actionSample s.msc)))) :=
  if_neg (not_badParam (Nat.le_of_lt_succ h16) hz)

theorem State.dwAlarmRelease_ok (h : s.releaseRefused = false) :
    s.dwAlarmRelease c = (s.alarmRelease.1, some (okWith (le 8 (actionSample s.msc)))) := by
  rw [← State.alarmRelease_sample]
  exact if_neg (Bool.eq_false_iff.1 h)

section
variable {p : Nat} {block : List Byte} (hp : c.u8 0 = p) (h16 : p < 16) (hz : c.zero 3 1 = true)
include hp h16 hz

theorem State.dwPatternLoad_unsound (hx : parsePat p block = none) :
    s.dwPatternLoad c block = (s, some (inconsistent 0)) := by
  subst hp
  refine (if_neg (not_badParam (Nat.le_of_lt_succ h16) hz)).trans ?_
  simp only [hx]

theorem State.dwPatternLoad_large {x : AlarmPat} (hx : parsePat p block = some x) (hlarge : s.loadTooLarge p x = true) :
    s.dwPatternLoad c block = (s, some { status := 6 }) := by
  subst hp
  refine (if_neg (not_badParam (Nat.le_of_lt_succ h16) hz)).trans ?_
  simp only [hx, hlarge, if_true]

theorem State.dwPatternLoad_ok {x : AlarmPat} (hx : parsePat p block = some x) (hfits : s.loadTooLarge p x = false) :
    s.dwPatternLoad c block =
      ((s.patternLoad p (block.take 0x20000) x).unpoison 10 (patBase p) (block.take 0x20000).length, some {}) := by
  subst hp
  refine (if_neg (not_badParam (Nat.le_of_lt_succ h16) hz)).trans ?_
  simp only [hx, hfits, Bool.false_eq_true, if_false]

end

/-- What MESSAGE_WRITE does when its parameters are sound (R413). -/
theorem State.dwMessageWrite_eq {slot fmt w len : Nat} {block : List Byte} (hslot : c.u16 0 = slot) (hfmt : c.u8 2 = fmt)
    (h512 : slot < 512) (h3 : fmt ≤ 3) (hz : c.zero 1 3 = true) (hw : w = if fmt / 2 % 2 = 1 then 3 else 2)
    (hlen : block.length = w * len) (h1 : 1 ≤ len) (hmax : len ≤ 12574720) : s.dwMessageWrite c block =
      if s.slotUsed slot = true then (s, some busyState)
      else (s.msgPlace slot block.length).elim (s, some { status := 6 }) fun off =>
        (((s.messageWrite slot off fmt len block).unpoison 10 (dataBase + off) block.length).unpoison 10
          (dirBase + 32 * slot) 32, some {}) := by
  have hpos : 0 < w := by rw [hw]; split <;> decide
  have hmod : block.length % w = 0 := by rw [hlen, Nat.mul_mod_right]
  have hdiv : block.length / w = len := by rw [hlen, Nat.mul_div_cancel_left _ hpos]
  have h0 : len ≠ 0 := by omega
  simp only [State.dwMessageWrite, hslot, hfmt, ← hw, hmod, hdiv, Nat.not_lt.2 (Nat.le_of_lt_succ h512), Nat.not_lt.2 h3, hz,
    h0, Nat.not_lt.2 hmax, ne_eq, not_true, decide_false, Bool.not_true, Bool.or_self, Bool.false_eq_true, if_false]
  cases s.msgPlace slot block.length <;> rfl

theorem State.dwMessageStart_eq {slot : Nat} (hslot : slot = c.u16 2) (h64 : c.u8 0 < 64) (h512 : slot < 512)
    (hz : c.zero 2 6 = true) : s.dwMessageStart c = if s.slotMsg slot = none then (s, some (inconsistent 0))
      else ((s.enterEvent c (.message (c.u8 0) slot (c.u8 1) (c.u16 4)) (c.u64 8) []).1,
        some (s.enterEvent c (.message (c.u8 0) slot (c.u8 1) (c.u16 4)) (c.u64 8) []).2) := by
  subst hslot
  simp only [State.dwMessageStart, Nat.not_lt.2 (Nat.le_of_lt_succ h64), Nat.not_lt.2 (Nat.le_of_lt_succ h512), hz,
    decide_false, Bool.not_true, Bool.or_self, Bool.false_eq_true, if_false, Option.isNone_iff_eq_none]

theorem State.dwFallbackLoad_unsound {block : List Byte} (hlen : block.length ≤ 65536) (h : s.parseFallback block = none) :
    s.dwFallbackLoad c block = (s, some (rejected 0)) := by
  simp only [State.dwFallbackLoad, Nat.not_lt.2 hlen, if_false, h, Option.isNone_none, if_true]

theorem State.dwFallbackLoad_ok {block : List Byte} {t : State} (hlen : block.length ≤ 65536)
    (h : s.parseFallback block ≠ none)
    (ht : t = s.nvsStore fallbackBase (block ++ List.replicate (65536 - block.length) 0#8)) :
    s.dwFallbackLoad c block = ({ t with boot := { t.boot with fbValid := true } }, some {}) := by
  subst ht
  simp only [State.dwFallbackLoad, Nat.not_lt.2 hlen, if_false, Option.isNone_iff_eq_none, h]

/-! ### A fetched block -/

theorem zeroAt_take (bs : List Byte) {m n i : Nat} (h : i + n ≤ m) : zeroAt (bs.take m) n i = zeroAt bs n i := by
  unfold zeroAt
  refine Bool.eq_iff_iff.2 ?_
  simp only [List.all_eq_true, List.mem_range, decide_eq_true_eq]
  exact forall₂_congr fun j hj => by rw [byteAt_take bs (by omega)]

theorem Fetched.answered {i : Sys2Proof.Instr} {h : Hdr} {ps block : List Byte} {fixed : Nat} {a : Ans}
    {body : State → Cmd → List Byte → State × Option Ans} (hat : Fetched s f h cls)
    (hexec : exec i s = .next (s.dweulBulk op f h ps block fixed body).1) (hop : h.opcode = op.code)
    (hlen : h.length = ps.length) (hps : ps.length = fixed + 12) (hperm : s.notPermitted op cls = 0)
    (htotal : leAt ps 4 fixed = block.length) (h1 : 1 ≤ block.length) (hmax : block.length ≤ 16777216)
    (hbody : body s ⟨f, cls, h, ps.take fixed⟩ block = (u, some a)) (hstays : Stays s u f) : Answered i s f h a u := by
  rw [Answered, hexec, State.dweulBulk_of_fetched hat hop hlen hps hperm htotal h1 hmax hbody hstays]

theorem Fetched.stays {h : Hdr} (hat : Fetched s f h cls) : Stays s s f := by
  obtain ⟨-, -, -, -, hheld, -⟩ := hat
  exact ⟨hheld, rfl⟩

end

/-- Settles O50: who may act, what a load must pass, and what it stores. -/
theorem dweulAlarm : Obligations.DweulAlarm := by
  unfold Obligations.DweulAlarm
  intro f h ps s cls hlen
  refine ⟨?commands, ?loads⟩
  case commands =>
    intro hat
    refine ⟨?read, ?activate, ?release, ?refused, ?messages⟩
    case read =>
      exact fun hop hps => hat.answered_self rfl hop hlen hps (State.notPermitted_read rfl (Nat.zero_le _) rfl) rfl
    case activate =>
      rintro _ rfl hmode hop hps h16 hz rfl hstays
      exact hat.answered rfl hop hlen hps (State.notPermitted_lifeSafety rfl (Nat.le_refl _) hmode)
        (State.dwAlarmActivate_ok (c := ⟨f, 3, h, ps⟩) h16 hz) hstays
    case release =>
      rintro _ rfl hmode hop hps hok rfl hstays
      exact hat.answered rfl hop hlen hps (State.notPermitted_lifeSafety rfl (Nat.le_refl _) hmode)
        (State.dwAlarmRelease_ok hok) hstays
    case refused =>
      rintro rfl hmode hop hps hno
      exact hat.answered_self rfl hop hlen hps (State.notPermitted_lifeSafety rfl (Nat.le_refl _) hmode) (if_pos hno)
    case messages =>
      intro hcls hmode
      refine ⟨?start, ?stop⟩
      case start =>
        intro slot hslot hop hps h64 h512 hz
        have hbody := State.dwMessageStart_eq (s := s) (c := ⟨f, cls, h, ps⟩) hslot h64 h512 hz
        refine ⟨fun hnone => ?_, ?_⟩
        · exact hat.answered_self rfl hop hlen hps (State.notPermitted_open rfl hcls hmode) (hbody.trans (if_pos hnone))
        · rintro _ hsome rfl hstays
          exact hat.answered rfl hop hlen hps (State.notPermitted_open rfl hcls hmode) (hbody.trans (if_neg hsome)) hstays
      case stop =>
        rintro _ hop hps h64 hz rfl hstays
        exact hat.answered rfl hop hlen hps (State.notPermitted_open rfl hcls hmode)
          (if_neg (not_badParam (Nat.le_of_lt_succ h64) hz)) hstays
  case loads =>
    intro block hat hmode hcls h1 hmax
    refine ⟨?pattern, ?message, ?fallback⟩
    case pattern =>
      intro p hpn hop hps htotal h16 hz
      have hp : Cmd.u8 ⟨f, cls, h, ps.take 4⟩ 0 = p := (byteAt_take ps (by decide)).trans hpn.symm
      have hz' : Cmd.zero ⟨f, cls, h, ps.take 4⟩ 3 1 = true := (zeroAt_take ps (by decide)).trans hz
      refine ⟨fun hx => ?_, fun x hx hlarge => ?_, ?_⟩
      · exact hat.answered rfl hop hlen hps (State.notPermitted_load rfl hmode hcls) htotal h1 hmax
          (State.dwPatternLoad_unsound hp h16 hz' hx) hat.stays
      · exact hat.answered rfl hop hlen hps (State.notPermitted_load rfl hmode hcls) htotal h1 hmax
          (State.dwPatternLoad_large hp h16 hz' hx hlarge) hat.stays
      · rintro x _ hx hfits rfl hstays
        exact hat.answered rfl hop hlen hps (State.notPermitted_load rfl hmode hcls) htotal h1 hmax
          (State.dwPatternLoad_ok hp h16 hz' hx hfits) hstays
    case message =>
      intro slot w len hslotn hw hop hps htotal h512 h3 hz hblock hlong
      have hslot : Cmd.u16 ⟨f, cls, h, ps.take 4⟩ 0 = slot := (leAt_take ps (by decide)).trans hslotn.symm
      have hfmt : Cmd.u8 ⟨f, cls, h, ps.take 4⟩ 2 = byteAt ps 2 := byteAt_take ps (by decide)
      have hz' : Cmd.zero ⟨f, cls, h, ps.take 4⟩ 1 3 = true := (zeroAt_take ps (by decide)).trans (zeroAt_one hz)
      have hsome : 1 ≤ len := Nat.one_le_iff_ne_zero.2 fun h0 => by rw [hblock, h0] at h1; omega
      have hbody := State.dwMessageWrite_eq (s := s) hslot hfmt h512 h3 hz' hw hblock hsome hlong
      refine ⟨fun hused => ?_, fun hfree hplace => ?_, ?_⟩
      · exact hat.answered rfl hop hlen hps (State.notPermitted_load rfl hmode hcls) htotal h1 hmax
          (hbody.trans (if_pos hused)) hat.stays
      · rw [if_neg (Bool.eq_false_iff.1 hfree), hplace] at hbody
        exact hat.answered rfl hop hlen hps (State.notPermitted_load rfl hmode hcls) htotal h1 hmax hbody hat.stays
      · rintro off _ hfree hplace rfl hstays
        rw [if_neg (Bool.eq_false_iff.1 hfree), hplace] at hbody
        exact hat.answered rfl hop hlen hps (State.notPermitted_load rfl hmode hcls) htotal h1 hmax hbody hstays
    case fallback =>
      intro hop hps htotal h64k
      refine ⟨fun hx => ?_, ?_⟩
      · exact hat.answered rfl hop hlen hps (State.notPermitted_load rfl hmode hcls) htotal h1 hmax
          (State.dwFallbackLoad_unsound h64k hx) hat.stays
      · rintro t _ hx ht rfl hstays
        exact hat.answered rfl hop hlen hps (State.notPermitted_load rfl hmode hcls) htotal h1 hmax
          (State.dwFallbackLoad_ok h64k hx ht) hstays

end Sys2Proof.Machine
end

section
/-!
PROOF. Dweul: the Twin, Faults and Telemetry families (R449, R450, R456, R466, R500, R502).
-/

namespace Sys2Proof.Machine

section
variable {s : State} {op : Op} {c : Cmd} {f cls : Nat}

/-- The Twin family executes in STANDBY as well (R476). -/
theorem State.notPermitted_twin (hg : op.gate = .always) (hc : op.cls ≤ cls) (hcode : op.code / 256 = 0x0A)
    (hm : s.mode ≠ .alarm) : s.notPermitted op cls = 0 := by
  simp only [State.notPermitted, hg, Nat.not_lt.2 hc, if_false]
  cases hmode : s.mode <;> simp_all

/-! ### Bodies of the Faults family -/

theorem State.dwFaultSrcRead_ok (hz : c.zero 2 2 = true) (h1 : 1 ≤ c.u8 1) (h64 : c.u8 1 ≤ 64)
    (hend : c.u8 0 + c.u8 1 ≤ 256) : s.dwFaultSrcRead c = (s, some (okWith (s.viewWords ((List.range (c.u8 1)).flatMap
      (fun k => [R.FAULT_SRC_STAT (c.u8 0 + k), R.FAULT_SRC_CNT (c.u8 0 + k)]))))) := by
  have h0 : c.u8 1 ≠ 0 := by omega
  simp only [State.dwFaultSrcRead, h0, Nat.not_lt.2 h64, hz, Nat.not_lt.2 hend, decide_false, Bool.not_true, Bool.or_self,
    Bool.false_eq_true, if_false]

theorem State.dwFaultSrcRead_bad (h : c.u8 1 = 0 ∨ 64 < c.u8 1 ∨ 256 < c.u8 0 + c.u8 1) :
    s.dwFaultSrcRead c = (s, some badParam) := by
  refine if_pos ?_
  simp only [Bool.or_eq_true, decide_eq_true_eq]
  omega

/-! ### Bodies of the Telemetry family (R502) -/

/-- A snapshot of a set: as the last refresh took it, or of free values before the first. -/
theorem State.dwTelemSnapshot_eq {sel : Nat} {set : Nat × List Word} (hsel : sel = c.u16 0)
    (hset : set = Sparse.get telemDefault s.shep.telem sel) (hz : c.zero 2 2 = true) : s.dwTelemSnapshot c =
      if selOk sel = false then (s, some (rejected 1))
      else if set.2 = [] then ((s.freeSet (telemCount sel)).1, some (okWith
        (le 8 (s.freeSet (telemCount sel)).2.1 ++ telemBody sel (s.freeSet (telemCount sel)).2.2)))
      else (s, some (okWith (le 8 set.1 ++ telemBody sel set.2))) := by
  subst hsel hset
  simp only [State.dwTelemSnapshot, hz, Bool.not_true, Bool.false_eq_true, if_false, Bool.not_eq_true', List.isEmpty_iff]

theorem State.dwTelemSubscribe_eq {sel p : Nat} {x : Fold} (hsel : sel = c.u16 0) (hx : x = s.fold c.fold)
    (hp : p = c.u16 2) (h1 : 1 ≤ p) (hmax : p ≤ 600) : s.dwTelemSubscribe c =
      if selOk sel = false then (s, some (rejected 1))
      else if x.subs.any (fun u => u.sel = sel) = true then
        (s.setFold c.fold { x with subs := x.subs.map (fun u => if u.sel = sel then { u with period := p } else u) }, some {})
      else if 8 ≤ x.subs.length then (s, some { status := 6 })
      else (s.setFold c.fold { x with subs := x.subs ++ [⟨sel, p, 0, c.hdr.seq, c.hdr.group⟩] }, some {}) := by
  subst hsel hx hp
  have h0 : c.u16 2 ≠ 0 := by omega
  simp only [State.dwTelemSubscribe, h0, Nat.not_lt.2 hmax, decide_false, Bool.or_self, Bool.false_eq_true, if_false,
    Bool.not_eq_true']

theorem State.dwTelemUnsubscribe_eq {sel : Nat} {x : Fold} (hsel : sel = c.u16 0) (hx : x = s.fold c.fold)
    (hz : c.zero 2 2 = true) : s.dwTelemUnsubscribe c =
      if x.subs.any (fun u => u.sel = sel) = true then
        (s.setFold c.fold { x with subs := x.subs.filter (fun u => u.sel ≠ sel) }, some {})
      else (s, some (rejected 0)) := by
  subst hsel hx
  simp only [State.dwTelemUnsubscribe, hz, Bool.not_true, Bool.false_eq_true, if_false]

/-- The subscriptions of a fold do not touch the commands that it has taken. -/
theorem State.stays_setFold_subs {x : Fold} (l : List Sub) (hheld : s.twin.held = []) (hx : x = s.fold f) :
    Stays s (s.setFold f { x with subs := l }) f := by
  refine ⟨hheld, ?_⟩
  rw [State.fold_setFold, hx]

end

/-- Settles O51: the state of the pair, of the record and of the subscriptions chooses the branch. -/
theorem dweulTwinFaultsTelemetry : Obligations.DweulTwinFaultsTelemetry := by
  unfold Obligations.DweulTwinFaultsTelemetry
  intro f h ps s cls hat hlen
  refine ⟨?twinRead, ?twin, ?faultRead, ?ack, ?srcSet, ?srcRead, ?telemetry⟩
  case twinRead =>
    exact fun hop hps => hat.answered_self rfl hop hlen hps (State.notPermitted_read rfl (Nat.zero_le _) rfl) rfl
  case twin =>
    intro hcls hmode
    refine ⟨?handover, ?command, ?config⟩
    case handover =>
      intro hop hps
      refine ⟨fun hstandby => ?_, fun hduty hcom => ?_, fun hduty hcom h5 => ?_, ?_⟩
      · exact hat.answered_self rfl hop hlen hps (State.notPermitted_twin rfl hcls rfl hmode) (if_pos hstandby)
      · exact hat.answered_self rfl hop hlen hps (State.notPermitted_twin rfl hcls rfl hmode)
          ((if_neg (Bool.eq_false_iff.1 hduty)).trans (if_pos hcom))
      · exact hat.answered_self rfl hop hlen hps (State.notPermitted_twin rfl hcls rfl hmode)
          ((if_neg (Bool.eq_false_iff.1 hduty)).trans ((if_neg hcom).trans (if_pos h5)))
      · rintro _ hduty hcom h5 rfl hstays
        exact hat.answered rfl hop hlen hps (State.notPermitted_twin rfl hcls rfl hmode)
          ((if_neg (Bool.eq_false_iff.1 hduty)).trans ((if_neg hcom).trans (if_neg (Classical.not_not.2 h5)))) hstays
    case command =>
      rintro r hop hps rfl hstays
      refine ⟨fun hyes => ?_, fun hno => ?_⟩
      · exact hat.answered rfl hop hlen hps (State.notPermitted_twin rfl hcls rfl hmode)
          (congrArg (fun a => (_, some a)) (if_pos hyes)) hstays
      · exact hat.answered rfl hop hlen hps (State.notPermitted_twin rfl hcls rfl hmode)
          (congrArg (fun a => (_, some a)) (if_neg (Bool.eq_false_iff.1 hno))) hstays
    case config =>
      rintro _ hop hps rfl hstays
      exact hat.answered rfl hop hlen hps (State.notPermitted_twin rfl hcls rfl hmode) rfl hstays
  case faultRead =>
    exact fun hop hps => hat.answered_self rfl hop hlen hps (State.notPermitted_read rfl (Nat.zero_le _) rfl) rfl
  case ack =>
    rintro _ hcls hmode hop hps rfl hstays
    exact hat.answered rfl hop hlen hps (State.notPermitted_open rfl hcls hmode) rfl hstays
  case srcSet =>
    rintro _ _ hcls hmode rfl hop hps hz rfl hstays
    exact hat.answered rfl hop hlen hps (State.notPermitted_open rfl hcls hmode) (if_neg (not_badZero hz)) hstays
  case srcRead =>
    rintro _ _ rfl rfl hop hps hz
    refine ⟨fun h1 h64 hend => ?_, fun hbad => ?_⟩
    · exact hat.answered_self rfl hop hlen hps (State.notPermitted_read rfl (Nat.zero_le _) rfl)
        (State.dwFaultSrcRead_ok (c := ⟨f, cls, h, ps⟩) hz h1 h64 hend)
    · exact hat.answered_self rfl hop hlen hps (State.notPermitted_read rfl (Nat.zero_le _) rfl)
        (State.dwFaultSrcRead_bad (c := ⟨f, cls, h, ps⟩) hbad)
  case telemetry =>
    intro sel set x hsel hset hx hps
    obtain ⟨-, -, -, hheld, -⟩ := id hat
    refine ⟨?snapshot, ?subscribe, ?unsubscribe⟩
    case snapshot =>
      intro hop hz
      have hbody := State.dwTelemSnapshot_eq (c := ⟨f, cls, h, ps⟩) hsel hset hz
      refine ⟨fun hno => ?_, fun hyes hset' => ?_, ?_⟩
      · exact hat.answered_self rfl hop hlen hps (State.notPermitted_read rfl (Nat.zero_le _) rfl) (hbody.trans (if_pos hno))
      · exact hat.answered_self rfl hop hlen hps (State.notPermitted_read rfl (Nat.zero_le _) rfl)
          (hbody.trans ((if_neg (ne_false_of_eq_true hyes)).trans (if_neg hset')))
      · rintro _ hyes hset' rfl
        exact hat.answered rfl hop hlen hps (State.notPermitted_read rfl (Nat.zero_le _) rfl)
          (hbody.trans ((if_neg (ne_false_of_eq_true hyes)).trans (if_pos hset'))) ⟨hheld, rfl⟩
    case subscribe =>
      intro p hp hop h1 hmax
      have hbody := State.dwTelemSubscribe_eq (s := s) (c := ⟨f, cls, h, ps⟩) hsel hx hp h1 hmax
      refine ⟨fun hno => ?_, fun hyes hany => ?_, fun hyes hany hroom => ?_, fun hyes hany hfull => ?_⟩
      · exact hat.answered_self rfl hop hlen hps (State.notPermitted_read rfl (Nat.zero_le _) rfl) (hbody.trans (if_pos hno))
      · exact hat.answered rfl hop hlen hps (State.notPermitted_read rfl (Nat.zero_le _) rfl)
          (hbody.trans ((if_neg (ne_false_of_eq_true hyes)).trans (if_pos hany))) (State.stays_setFold_subs _ hheld hx)
      · exact hat.answered rfl hop hlen hps (State.notPermitted_read rfl (Nat.zero_le _) rfl)
          (hbody.trans ((if_neg (ne_false_of_eq_true hyes)).trans
            ((if_neg (Bool.eq_false_iff.1 hany)).trans (if_neg (Nat.not_le.2 hroom))))) (State.stays_setFold_subs _ hheld hx)
      · exact hat.answered_self rfl hop hlen hps (State.notPermitted_read rfl (Nat.zero_le _) rfl)
          (hbody.trans ((if_neg (ne_false_of_eq_true hyes)).trans
            ((if_neg (Bool.eq_false_iff.1 hany)).trans (if_pos hfull))))
    case unsubscribe =>
      intro hop hz
      have hbody := State.dwTelemUnsubscribe_eq (s := s) (c := ⟨f, cls, h, ps⟩) hsel hx hz
      refine ⟨fun hany => ?_, fun hnone => ?_⟩
      · exact hat.answered rfl hop hlen hps (State.notPermitted_read rfl (Nat.zero_le _) rfl) (hbody.trans (if_pos hany))
          (State.stays_setFold_subs _ hheld hx)
      · exact hat.answered_self rfl hop hlen hps (State.notPermitted_read rfl (Nat.zero_le _) rfl)
          (hbody.trans (if_neg (Bool.eq_false_iff.1 hnone)))

end Sys2Proof.Machine
end

section
/-!
PROOF. Dweul: the NVS and firmware family (R471, R500, R582, R584, R585, R590).
-/

namespace Sys2Proof.Machine

section
variable {s : State} {op : Op} {c : Cmd} {f cls : Nat} {block : List Byte}

/-! ### Permission of the family (R476, R590) -/

theorem State.notPermitted_commission (hg : op.gate = .onlyInCommission) (hc : op.cls ≤ cls) (hm : s.mode = .commission) :
    s.notPermitted op cls = 0 := by
  simp [State.notPermitted, hg, Nat.not_lt.2 hc, hm]

theorem State.notPermitted_section (hg : op.gate = .section_) (hm : OpenMode s)
    (hc : cls = 3 ∨ (cls = 2 ∧ s.mode = .commission)) : s.notPermitted op cls = 0 := by
  obtain ⟨hstandby, halarm⟩ := hm
  rcases hc with rfl | ⟨rfl, hcom⟩
  · cases hmode : s.mode <;> simp_all [State.notPermitted]
  · simp [State.notPermitted, hg, hcom]

/-! ### Bodies -/

theorem State.dwNvsRead_ok {a n : Nat} (ha : a = c.u32 0) (hn : n = c.u32 4) (h1 : 1 ≤ n) (hmax : n ≤ 4000)
    (hend : a + n ≤ 0x2000000) (hsound : ∀ i, i < n → s.poisoned 10 (a + i) = false) :
    s.dwNvsRead c = (s, some (okWith ((List.range n).map (fun i => s.mem.nvsByte (a + i))))) := by
  have h0 : n ≠ 0 := by omega
  have hfind : (List.range n).find? (fun i => s.poisoned 10 (a + i)) = none :=
    List.find?_eq_none.2 fun i hi => by simp [hsound i (List.mem_range.1 hi)]
  simp only [State.dwNvsRead, ← ha, ← hn, h0, Nat.not_lt.2 hmax, nvsSize, Nat.not_lt.2 hend, decide_false, Bool.or_self,
    Bool.false_eq_true, if_false, hfind]

theorem State.dwNvsWrite_outside {a : Nat} (ha : c.u32 0 = a) (h : a < 0x500000 ∨ 0x5F0000 < a + block.length) :
    s.dwNvsWrite c block = (s, some (rejected 0)) := by
  subst ha
  exact if_pos (by simpa using h)

theorem State.dwNvsWrite_ok {a : Nat} (ha : c.u32 0 = a) (h1 : 0x500000 ≤ a) (h2 : a + block.length ≤ 0x5F0000) :
    s.dwNvsWrite c block = (s.nvsStore a block, some {}) := by
  subst ha
  exact if_neg (by simp [h1, h2])

theorem State.dwFwUpdate_eq (h : block.length ≤ 0x200000) : s.dwFwUpdate c block = if s.pins.bootsel % 8 = 1 then
    ({ s with out := { s.out with flash := s.out.flash ++ [(s.idleSlot, block)] } }, some {})
  else (s.nvsStore (if s.idleSlot = 0 then 0x100000 else 0x300000) block, some {}) :=
  if_neg (Nat.not_lt.2 h)

theorem State.dwCommit_some {t : State} {folds : Option (List (Nat × Nat))} {r : Nat × Nat}
    (h : s.configCommit folds = (t, some r)) : s.dwCommit folds = (t, some (okWith (le 4 r.1 ++ le 4 r.2))) := by
  simp only [State.dwCommit, h]

theorem State.dwCommit_none {t : State} {folds : Option (List (Nat × Nat))} (h : s.configCommit folds = (t, none)) :
    s.dwCommit folds = (t, some (rejected 1)) := by
  simp only [State.dwCommit, h]

theorem State.dwCommitSection_ok {t : State} {r : Nat × Nat} (h8 : block.length % 8 = 0)
    (h : s.configCommit (some (entriesOf block)) = (t, some r)) :
    s.dwCommitSection c block = (t, some (okWith (le 4 r.1 ++ le 4 r.2))) :=
  (if_neg (Classical.not_not.2 h8)).trans (State.dwCommit_some h)

/-! ### CONFIG_COMMIT with and without a section (R590) -/

/-- Without parameters and without a bulk block there is no section. -/
theorem exec_dwConfigCommit_plain {f : Fin 128} {h : Hdr} (hat : AtHead s f h cls) (hop : h.opcode = 0x0D05)
    (hplain : h.flags / 8 % 2 = 0) : exec (.dwConfigCommit f h [] block) s =
      .next (s.dweul ⟨0x0D05, false, 2, .always⟩ f h [] 0 (fun t _ => t.dwCommit none)).1 := by
  obtain ⟨-, -, -, -, -, e, rest, htaken, rfl⟩ := hat
  have htake : s.takeIn f { e.hdr with opcode := 0x0D05 } = s := by simp [State.takeIn, htaken, hop]
  show execDwConfigCommit f e.hdr [] block s = _
  simp [execDwConfigCommit, htake, htaken, hplain]

theorem exec_dwConfigCommit_section {f : Fin 128} {h : Hdr} {ps : List Byte} (hps : ps ≠ []) :
    exec (.dwConfigCommit f h ps block) s =
      .next (s.dweulBulk ⟨0x0D05, false, 2, .section_⟩ f h ps block 0 State.dwCommitSection).1 := by
  have hempty : ps.isEmpty = false := by simp [hps]
  show execDwConfigCommit f h ps block s = _
  simp only [execDwConfigCommit, hempty, Bool.false_and, Bool.false_eq_true, if_false]

/-- CHIP_RESET: the reply comes first (R471). -/
theorem exec_dwChipReset_of_atHead {f : Fin 128} {h : Hdr} {ps : List Byte} (hat : AtHead s f h cls)
    (hop : h.opcode = 0x0D07) (hlen : h.length = ps.length) (hps : ps.length = 0) (hcls : 2 ≤ cls) (hmode : OpenMode s) :
    exec (.dwChipReset f h ps) s = .next ((s.answer f h {}).chipRstReaction 6 0) := by
  have hdweul := State.dweul_of_atHead (op := ⟨0x0D07, false, 2, .always⟩) (body := fun t _ => (t, some {})) hat hop hlen hps
    (State.notPermitted_open rfl hcls hmode) rfl hat.stays
  show execDwChipReset f h ps s = _
  simp only [execDwChipReset, hdweul, if_true]

end

/-- Settles O52: the area, the slot and the section that each command names, and what it stores there. -/
theorem dweulFirmware : Obligations.DweulFirmware := by
  unfold Obligations.DweulFirmware
  intro f h ps s cls hlen hcls
  refine ⟨?commands, ?blocks⟩
  case commands =>
    intro hat
    obtain ⟨-, -, -, hheld, -⟩ := id hat
    refine ⟨?read, ?writes⟩
    case read =>
      intro a n ha hn hop hps h1 hmax hend hsound
      exact hat.answered_self rfl hop hlen hps (State.notPermitted_read rfl hcls rfl)
        (State.dwNvsRead_ok (c := ⟨f, cls, h, ps⟩) ha hn h1 hmax hend hsound)
    case writes =>
      intro hmode
      refine ⟨?activate, ?commit, fun hop hps => exec_dwChipReset_of_atHead hat hop hlen hps hcls hmode⟩
      case activate =>
        rintro _ hop hps h1 hz rfl
        exact hat.answered rfl hop hlen hps (State.notPermitted_open rfl hcls hmode) (if_neg (not_badParam h1 hz))
          ⟨hheld, rfl⟩
      case commit =>
        rintro block t hop rfl hplain
        have hexec := exec_dwConfigCommit_plain (block := block) hat hop hplain
        refine ⟨fun r hr hstays => ?_, fun hnone hstays => ?_⟩
        · exact hat.answered hexec hop hlen rfl (State.notPermitted_open rfl hcls hmode) (State.dwCommit_some hr) hstays
        · exact hat.answered hexec hop hlen rfl (State.notPermitted_open rfl hcls hmode) (State.dwCommit_none hnone) hstays
  case blocks =>
    intro block hat hmode h1 hmax
    obtain ⟨-, -, -, -, hheld, -⟩ := id hat
    refine ⟨?nvsWrite, ?update, ?commitSection⟩
    case nvsWrite =>
      intro a ha hcom hop hps htotal
      have ha' : Cmd.u32 ⟨f, cls, h, ps.take 4⟩ 0 = a := (leAt_take ps (by decide)).trans ha.symm
      refine ⟨fun hout => ?_, fun hlow hhigh hstays => ?_⟩
      · exact hat.answered rfl hop hlen hps (State.notPermitted_commission rfl hcls hcom) htotal h1 hmax
          (State.dwNvsWrite_outside ha' hout) hat.stays
      · exact hat.answered rfl hop hlen hps (State.notPermitted_commission rfl hcls hcom) htotal h1 hmax
          (State.dwNvsWrite_ok ha' hlow hhigh) hstays
    case update =>
      intro hop hps htotal hfit
      have hbody := State.dwFwUpdate_eq (s := s) (c := ⟨f, cls, h, ps.take 0⟩) hfit
      refine ⟨?_, ?_⟩
      · rintro _ hflash rfl
        exact hat.answered rfl hop hlen hps (State.notPermitted_open rfl hcls hmode) htotal h1 hmax
          (hbody.trans (if_pos hflash)) ⟨hheld, rfl⟩
      · rintro _ hnvs rfl hstays
        exact hat.answered rfl hop hlen hps (State.notPermitted_open rfl hcls hmode) htotal h1 hmax
          (hbody.trans (if_neg hnvs)) hstays
    case commitSection =>
      intro t r hwho hop hps htotal h8 hr hstays
      have hne : ps ≠ [] := by rintro rfl; simp at hps
      exact hat.answered (exec_dwConfigCommit_section hne) hop hlen hps (State.notPermitted_section rfl hmode hwho) htotal h1
        hmax (State.dwCommitSection_ok h8 hr) hstays

end Sys2Proof.Machine
end

section
/-!
PROOF. Concrete cores and engines on which the statements about the Needle cores and about Dweul speak.
-/

namespace Sys2Proof.Machine

/-! ### Cores with one instruction -/

/-- A running core with the instruction word `w` at word 0, the numbers `x` and `y` in D1 and D2, and a 7 in word 16 of X. -/
def programCore (w x y : Word) : Core :=
  { st := .running, pmem := [(0, w)], xmem := [(16, 7#32)]
    d := ((Vector.replicate 32 0#32).set 1 x).set 2 y }

theorem issues_programCore {w x y : Word} {i : NI} (hd : decodeNeedle w 0#32 = some i) (s : State) :
    Issues (s.setCore 0 (programCore w x y)) 0 (programCore w x y) i :=
  ⟨(State.core_setCore s 0 _).symm, by simp [Core.issues, Core.takesIrq, programCore, srIe], rfl, rfl, rfl, rfl, hd⟩

/-- Major opcode 0x3F is reserved: whatever the command, the core traps with cause 1. -/
theorem instructionIssue_reserved_witness :
    (State.reset.setCore 0 (programCore 0xFC000000#32 0#32 0#32)).issue 0 .clean (fun _ k => some (.ok k)) =
      (State.reset.setCore 0 (programCore 0xFC000000#32 0#32 0#32)).trapCore 0 1 := by
  obtain ⟨-, -, -, hreserved, -⟩ := instructionIssue
  exact hreserved _ 0 _ _ (State.core_setCore State.reset 0 _).symm rfl rfl (by decide)

/-- ADD of the greatest word and 1 with SR.SAT = 1 stays at the greatest word, and V and SV are on their way. -/
theorem aluInstructions_saturates_witness :
    Gives (.alAdd 0 .clean) (State.reset.setCore 0 (programCore 0x04611000#32 0x7FFFFFFF#32 1#32)) fun t =>
      (t.core 0).dReg 3 = 0x7FFFFFFF#32 ∧ (t.core 0).pend.length = 1 := by
  obtain ⟨hadd, -⟩ := aluInstructions 0 (State.reset.setCore 0 (programCore 0x04611000#32 0x7FFFFFFF#32 1#32))
    (programCore 0x04611000#32 0x7FFFFFFF#32 1#32) 3 1 2 0 0 0#32 _ _ 0x7FFFFFFF rfl rfl
  refine ⟨_, hadd (issues_programCore (by decide) State.reset) (by decide), ?_⟩
  simp only [Fin.val_zero, State.core_setCore]
  decide

/-- LD D1 from word 16 of X: the word is on its way for one more cycle. -/
theorem addressesAndMemory_load_witness :
    Gives (.alLd 0 .clean) (State.reset.setCore 0 (programCore 0x20140010#32 0#32 0#32)) fun t =>
      (t.core 0).pend = [⟨.d 1, 7, 1, false, 0⟩] := by
  obtain ⟨-, hmemory⟩ := addressesAndMemory
  obtain ⟨hload, -⟩ := hmemory 0 (State.reset.setCore 0 (programCore 0x20140010#32 0#32 0#32))
    (programCore 0x20140010#32 0#32 0#32) 1 .sr ⟨false, some 16, 0, 0⟩ 16 7#32 rfl rfl
  refine ⟨_, hload (issues_programCore (by decide) State.reset) (by decide), ?_⟩
  simp only [Fin.val_zero, State.core_setCore]
  exact rfl

/-- MAC of 3 and 5 into A0. -/
theorem accumulatorInstructions_mac_witness :
    Gives (.alMac 0 .clean) (State.reset.setCore 0 (programCore 0x40022000#32 3#32 5#32)) fun t =>
      (t.core 0).accM 0 = 15 ∧ (t.core 0).accO 0 = 0 := by
  obtain ⟨hmultiply, -⟩ := accumulatorInstructions
  obtain ⟨hmac, -⟩ := hmultiply 0 (State.reset.setCore 0 (programCore 0x40022000#32 3#32 5#32))
    (programCore 0x40022000#32 3#32 5#32) 0 1 2 false ⟨0, 0, 0, 0, false⟩ ⟨false, 0, 0, 0, false, 0, 0, 0⟩ 15 (by decide)
  refine ⟨_, hmac (issues_programCore (by decide) State.reset), ?_⟩
  simp only [Fin.val_zero, State.core_setCore]
  decide

/-- BR always to word 100: two delay slots are open, and the PC stands at the first. -/
theorem flowInstructions_branch_witness :
    Gives (.alBr 0 .clean) (State.reset.setCore 0 (programCore 0x60000064#32 0#32 0#32)) fun t =>
      (t.core 0).slots = 2 ∧ (t.core 0).flow = .to 100 ∧ (t.core 0).pc = 1 := by
  obtain ⟨-, -, -, -, -, -, hbr, -⟩ := flowInstructions 0
    (State.reset.setCore 0 (programCore 0x60000064#32 0#32 0#32)) (programCore 0x60000064#32 0#32 0#32) 0 0 0 100
  refine ⟨_, hbr (issues_programCore (by decide) State.reset) rfl, ?_⟩
  simp only [Fin.val_zero, State.core_setCore]
  exact ⟨trivial, trivial, rfl⟩

/-- A core that halts at the close of its window. -/
theorem windowsAndFrames_halt_witness :
    (State.reset.setCore 0 { st := .running, haltAtClose := true, pc := 5 }).closeCore 0 =
      (State.reset.setCore 0 { st := .running, haltAtClose := true, pc := 5 }).setCore 0
        { st := .halted, haltPc := 5, pc := 5, deliver := (Core.fadeOutFrame {}) } := by
  obtain ⟨-, -, -, -, -, -, -, hhalt, -⟩ := windowsAndFrames
  exact hhalt _ 0 _ (State.core_setCore State.reset 0 _).symm rfl

/-- SWAP of an idle stream port gives its other half to the core. -/
theorem streamPortsAndHost_swap_witness :
    Gives (.spSwap 0 1) (State.reset.setCore 0 { st := .running }) fun t => (t.core 0).sp1.own = true := by
  obtain ⟨hports, -⟩ := streamPortsAndHost
  obtain ⟨-, hswap, -⟩ := hports 0 1 (State.reset.setCore 0 { st := .running }) _ _
    (State.core_setCore State.reset 0 _).symm rfl rfl
  refine ⟨_, hswap rfl, ?_⟩
  simp only [Fin.val_zero, State.core_setCore]
  exact rfl

/-! ### Engines with one command -/

/-- The header of a command for fold 0. -/
def dweulHdr (opcode length : Nat) : Hdr := ⟨1, 0, opcode, 5, length, 0, 0, 0⟩

/-- An engine in COMMISSION with the command `h` at the head of fold 0, which has the class LIFE-SAFETY. -/
def dweulEngine (h : Hdr) : State :=
  State.setFld (State.setFld { State.reset with
    boot := { State.reset.boot with fwRuns := true }
    shep := { State.reset.shep with folds := [(0, { taken := [⟨h, 0, false, false⟩] })] } }
    R.SYS_MODE F.SYS_MODE_MODE 1) (R.FOLD_CFG 0) F.FOLD_CFG_CLASS 3

/-- The registers of the engine do not hang on its command. -/
theorem reg_dweulEngine (h : Hdr) (a : Nat) : (dweulEngine h).reg a = (dweulEngine (dweulHdr 0 0)).reg a := rfl

theorem mode_dweulEngine (h : Hdr) : (dweulEngine h).mode = .commission :=
  (congrArg Mode.ofCode (State.fld_congr (reg_dweulEngine h _) _)).trans (by decide)

theorem openMode_dweulEngine (h : Hdr) : OpenMode (dweulEngine h) := by
  rw [OpenMode, mode_dweulEngine]
  decide

theorem served_dweulEngine (h : Hdr) : (dweulEngine h).served = true := by
  have hserved : (dweulEngine h).served = (dweulEngine (dweulHdr 0 0)).served := by
    refine congrArg (· && _) (State.ringServed_congr ?_ ?_)
    · exact reg_dweulEngine h _
    · rfl
  exact hserved.trans (by decide)

theorem foldClass_dweulEngine (h : Hdr) : (dweulEngine h).foldClass 0 = 3 :=
  (State.foldClass_congr (reg_dweulEngine h _)).trans (by decide)

theorem foldUdp_dweulEngine (h : Hdr) : (dweulEngine h).foldUdp 0 = false :=
  (State.foldUdp_congr (reg_dweulEngine h _)).trans (by decide)

theorem atHead_dweulEngine (h : Hdr) : AtHead (dweulEngine h) 0 h 3 :=
  ⟨served_dweulEngine h, foldClass_dweulEngine h, rfl, rfl, rfl, _, _, rfl, rfl⟩

theorem fetched_dweulEngine (h : Hdr) : Fetched (dweulEngine h) 0 h 3 :=
  ⟨served_dweulEngine h, foldClass_dweulEngine h, foldUdp_dweulEngine h, rfl, rfl, _, _, rfl, rfl, rfl, rfl⟩

/-- A GET_INFO whose header states four bytes that are not there is refused for its length. -/
theorem dweulSteps_length_witness : (dweulEngine (dweulHdr 0x0101 4)).dweul ⟨0x0101, true, 0, .always⟩ 0
    (dweulHdr 0x0101 4) [] 0 State.dwInfo =
      ((dweulEngine (dweulHdr 0x0101 4)).answer 0 (dweulHdr 0x0101 4) { status := 8, detail := 4 }, some 8) := by
  obtain ⟨-, hlength, -⟩ := dweulSteps (dweulEngine (dweulHdr 0x0101 4)) ⟨0x0101, true, 0, .always⟩ 0 (dweulHdr 0x0101 4) [] 0
    3 State.dwInfo
  exact hlength (atHead_dweulEngine _) rfl (.inl (by decide))

theorem dweulSystem_nop_witness : Answered (.dwNop 0 (dweulHdr 0x0100 0) []) (dweulEngine (dweulHdr 0x0100 0)) 0
    (dweulHdr 0x0100 0) {} (dweulEngine (dweulHdr 0x0100 0)) := by
  obtain ⟨hnop, -⟩ := dweulSystem 0 (dweulHdr 0x0100 0) [] _ 3 (atHead_dweulEngine _) rfl
  exact hnop rfl

/-- STITCH_READ of slot 0 of LIVE, which is zero after reset. -/
theorem dweulStitches_read_witness : Answered (.dwStitchRead 0 (dweulHdr 0x0201 12) (le 8 0 ++ le 4 1))
    (dweulEngine (dweulHdr 0x0201 12)) 0 (dweulHdr 0x0201 12) (okWith (le 8 0)) (dweulEngine (dweulHdr 0x0201 12)) := by
  obtain ⟨hread, -⟩ := dweulStitches 0 (dweulHdr 0x0201 12) (le 8 0 ++ le 4 1) _ 3 (atHead_dweulEngine _) (by decide)
  exact hread rfl (by decide) (by decide) (by decide) (by decide) (by decide) (by decide) (by decide) rfl

/-- Four zero bytes are no image, and BASTE is open after reset. -/
theorem dweulPatterns_image_witness : Answered (.dwBasteImage 0 (dweulHdr 0x0301 12) (le 4 4 ++ le 8 0) (le 4 0))
    (dweulEngine (dweulHdr 0x0301 12)) 0 (dweulHdr 0x0301 12) (rejected 0) (dweulEngine (dweulHdr 0x0301 12)) := by
  obtain ⟨-, -, himage, -⟩ := dweulPatterns 0 (dweulHdr 0x0301 12) (le 4 4 ++ le 8 0) (dweulEngine (dweulHdr 0x0301 12)) 3
    (by decide)
  obtain ⟨-, hunsound, -⟩ := himage (le 4 0) (fetched_dweulEngine _) (by decide) (openMode_dweulEngine _) rfl (by decide)
    (by decide) (by decide) (by decide)
  exact hunsound (by decide) (by decide)

/-- NEEDLE_READ of word 0 of X of core 0, which is halted after reset. -/
theorem dweulNeedleAndClock_read_witness : Answered (.dwNeedleRead 0 (dweulHdr 0x0402 8) (le 4 256 ++ le 4 1))
    (dweulEngine (dweulHdr 0x0402 8)) 0 (dweulHdr 0x0402 8) (okWith (words [0])) (dweulEngine (dweulHdr 0x0402 8)) := by
  obtain ⟨-, hreads, -⟩ := dweulNeedleAndClock 0 (dweulHdr 0x0402 8) (le 4 256 ++ le 4 1) (dweulEngine (dweulHdr 0x0402 8)) 3
    (by decide)
  obtain ⟨hread, -⟩ := hreads (atHead_dweulEngine _)
  exact hread rfl (by decide) (by decide) (by decide) (by decide) (by decide) (by decide) (by decide) rfl rfl

/-- FLOW_READ of receive flow 0. -/
theorem dweulStreams_read_witness : Answered (.dwFlowRead 0 (dweulHdr 0x0609 4) (le 4 0)) (dweulEngine (dweulHdr 0x0609 4)) 0
    (dweulHdr 0x0609 4) (okWith ((dweulEngine (dweulHdr 0x0609 4)).viewWords (flowRegs false 0)))
    (dweulEngine (dweulHdr 0x0609 4)) := by
  obtain ⟨-, hread, -⟩ := dweulStreams 0 (dweulHdr 0x0609 4) (le 4 0) (dweulEngine (dweulHdr 0x0609 4)) 3
    (atHead_dweulEngine _) (by decide)
  exact hread rfl (by decide) (by decide) (by decide) (by decide)

/-- LINE_READ of channel 15, the last. -/
theorem dweulPortsAndLine_read_witness : Answered (.dwLineRead 0 (dweulHdr 0x0806 4) (le 4 15))
    (dweulEngine (dweulHdr 0x0806 4)) 0 (dweulHdr 0x0806 4)
    (okWith ((dweulEngine (dweulHdr 0x0806 4)).viewWords (R.LINE_STATUS :: lineRegs 15))) (dweulEngine (dweulHdr 0x0806 4)) := by
  obtain ⟨-, hread, -⟩ := dweulPortsAndLine 0 (dweulHdr 0x0806 4) (le 4 15) (dweulEngine (dweulHdr 0x0806 4)) 3
    (atHead_dweulEngine _) (by decide)
  exact hread rfl (by decide) (by decide) (by decide)

/-- Four zero bytes are no fallback image. -/
theorem dweulAlarm_fallback_witness : Answered (.dwFallbackLoad 0 (dweulHdr 0x0907 12) (le 4 4 ++ le 8 0) (le 4 0))
    (dweulEngine (dweulHdr 0x0907 12)) 0 (dweulHdr 0x0907 12) (rejected 0) (dweulEngine (dweulHdr 0x0907 12)) := by
  obtain ⟨-, hloads⟩ := dweulAlarm 0 (dweulHdr 0x0907 12) (le 4 4 ++ le 8 0) (dweulEngine (dweulHdr 0x0907 12)) 3 (by decide)
  obtain ⟨-, -, hfallback⟩ := hloads (le 4 0) (fetched_dweulEngine _) (openMode_dweulEngine _) (.inl rfl) (by decide) (by decide)
  obtain ⟨hunsound, -⟩ := hfallback rfl (by decide) (by decide) (by decide)
  exact hunsound (by decide)

/-- A fold without subscriptions cannot unsubscribe. -/
theorem dweulTwinFaultsTelemetry_unsubscribe_witness : Answered (.dwTelemUnsubscribe 0 (dweulHdr 0x0C03 4) (le 4 0))
    (dweulEngine (dweulHdr 0x0C03 4)) 0 (dweulHdr 0x0C03 4) (rejected 0) (dweulEngine (dweulHdr 0x0C03 4)) := by
  obtain ⟨-, -, -, -, -, -, htelemetry⟩ := dweulTwinFaultsTelemetry 0 (dweulHdr 0x0C03 4) (le 4 0)
    (dweulEngine (dweulHdr 0x0C03 4)) 3 (atHead_dweulEngine _) (by decide)
  obtain ⟨-, -, hunsubscribe⟩ := htelemetry 0 _ _ (by decide) rfl rfl (by decide)
  obtain ⟨-, hnone⟩ := hunsubscribe rfl (by decide)
  exact hnone rfl

/-- NVS_READ of the last byte of NVS. -/
theorem dweulFirmware_read_witness : Answered (.dwNvsRead 0 (dweulHdr 0x0D01 8) (le 4 0x1FFFFFF ++ le 4 1))
    (dweulEngine (dweulHdr 0x0D01 8)) 0 (dweulHdr 0x0D01 8)
    (okWith [(dweulEngine (dweulHdr 0x0D01 8)).mem.nvsByte 0x1FFFFFF]) (dweulEngine (dweulHdr 0x0D01 8)) := by
  obtain ⟨hcommands, -⟩ := dweulFirmware 0 (dweulHdr 0x0D01 8) (le 4 0x1FFFFFF ++ le 4 1) (dweulEngine (dweulHdr 0x0D01 8)) 3
    (by decide) (by decide)
  obtain ⟨hread, -⟩ := hcommands (atHead_dweulEngine _)
  exact hread 0x1FFFFFF 1 (by decide) (by decide) rfl (by decide) (by decide) (by decide) (by decide) (fun i _ => rfl)

end Sys2Proof.Machine
end
